-- ==== Sys2Proof/Word.lean ====
section
/-! DEFINITION. The words the manual treats as bits: data bytes, Time Base readings, CRC registers. -/

namespace Sys2Proof

/-- Target data is 8 bits wide; each cycle moves one byte (00_scope, "Target addresses"). -/
abbrev Byte := BitVec 8

/-- A stamp is a reading of the 32-bit Time Base (R84). Elapsed times are taken modulo 2^32. -/
abbrev Stamp := BitVec 32

/-- A CRC-32 register or value (00_scope, "CRC-32"). -/
abbrev Crc := BitVec 32

end Sys2Proof
end

