-- ==== Sys2Proof/Config.lean ====
section
/-! DEFINITION. What the part fixes (sizes, limits, thresholds) and the free values: constants without a body,
so that no proof can rest on what they are. -/

namespace Sys2Proof.Config

/-- A page is 256 bytes (00_scope, "Pages"; R46). -/
def pageSize : Nat := 256

/-- Target addresses are 0x00000 to 0xFFFFF (00_scope, "Target addresses"). -/
def addressLimit : Nat := 0x100000

/-- Overlay memory is built as 272 physical pages (R46). -/
def physicalPages : Nat := 272

/-- At most 256 logical pages (R47). -/
def maxCapacity : Nat := 256

/-- What a byte of overlay memory holds after a survey, and what an unlisted cell reads as (R49, R50; log 12). -/
def blankByte : Byte := 0xFF#8

/-- The trace store holds at most 4096 records (R119). -/
def traceLimit : Nat := 4096

/-- A staging slot holds at most 4096 bytes (R152). -/
def slotLimit : Nat := 4096

/-- The job table holds at most 8 entries (R165). -/
def jobLimit : Nat := 8

/-- The receive queue holds at most 4 frames (R186). -/
def frameLimit : Nat := 4

/-- A frame must be whole within 50 ms of its start byte (R185), in microseconds. -/
def frameTime : Nat := 50000

/-- Supply lost below this level, in millivolts, by threshold index (R21). -/
def lossLevel (index : Fin 4) : Nat := [1500, 2500, 3000, 4200].getD index.val 0

/-- Supply returned at or above this level, in millivolts, by threshold index (R21). -/
def returnLevel (index : Fin 4) : Nat := [1600, 2600, 3100, 4300].getD index.val 0

/-- The codes of the command table (11.5). -/
def commandCodes : List Byte :=
  [0x01, 0x02, 0x03, 0x04, 0x05, 0x10, 0x11, 0x12, 0x13, 0x18, 0x19, 0x1A, 0x1B, 0x20, 0x21, 0x24, 0x25] ++
  [0x30, 0x31, 0x32, 0x33, 0x34, 0x35, 0x36, 0x37, 0x38, 0x39, 0x40, 0x41, 0x42, 0x43, 0x44, 0x45] ++
  [0x50, 0x51, 0x52, 0x53, 0x54, 0x60, 0x61, 0x62, 0x63, 0x68, 0x69, 0x6A, 0x70, 0x71, 0x72, 0x73, 0x74]

/-- A command frame's payload has at most 1040 bytes (R185). -/
def payloadLimit : Nat := 1040

/-- FREE VALUE (log 22): what a yes/no field means whose byte is neither 1 nor 0 (R188 gives 1 and 0 only). -/
opaque yesNo : Byte → Bool

/-- FREE VALUE (log 11): the physical page a commanded survey is on when a part reset stops it (R54). -/
opaque surveyPage : Nat → Fin 272

/-- FREE VALUE (log 14): whether SET HOLD OPTIONS acts on a changed wait wiring before the supply is judged anew. -/
opaque waitWiringFirst : Nat → Bool

end Sys2Proof.Config
end

