-- ==== Sys2Proof/Syntax.lean ====
section
/-! DEFINITION. The commands of the block: one constructor for each row of spec/opcode_table.json, with what the row brings
from outside. A bench command carries the fields of its frame (R188) as they stand on the wire: numbers, codes and bytes,
in range or not, since the checks of each command judge them. A field that may be absent is an Option. -/

namespace Sys2Proof

/-- The record SET WINDOW carries (R35). `lane`: 0-3, 8 for ANY; `kind`: 0 PASS to 5 FLOAT (R188). -/
structure WindowFields where
  enabled : Bool
  lane : Nat
  firstPage : Nat
  lastPage : Nat
  kind : Nat
  origin : Option Nat
  capture : Bool
  guardLevel : Option Nat
  deriving DecidableEq, Repr

/-- The record SET WATCH carries (R80). `probe`: the line and the level code (0 high, 1 low), or none (log 21). -/
structure WatchFields where
  mode : Nat
  lane : Nat
  firstAddress : Nat
  lastAddress : Nat
  kinds : Byte
  dataValue : Byte
  dataMask : Byte
  probe : Option (Nat × Nat)
  countA : Nat
  countB : Nat
  chained : Bool
  actions : Byte
  holdLevel : Nat
  gateQualifies : Bool
  deriving DecidableEq, Repr

/-- The five configured fields SET PROBE carries (R92). -/
structure ProbeFields where
  sense : Nat
  record : Bool
  note : Bool
  holdLevel : Option Nat
  holdFirst : Bool
  deriving DecidableEq, Repr

/-- The value for every option that SET HOLD OPTIONS carries (R102). -/
structure HoldFields where
  waitWired : Bool
  fetchWired : Bool
  selectEnables : BitVec 4
  holdLimit : Nat
  powerUpHold : Bool
  threshold : Nat
  deriving DecidableEq, Repr

/-- The setting values TRACE SETUP carries (R136). -/
structure TraceFields where
  fillMode : Nat
  postCount : Nat
  watermark : Nat
  engineCycles : Bool
  edges : Bool
  markers : Bool
  deriving DecidableEq, Repr

/-- An (offset, byte) entry of a lane profile (00_scope, "Pair"). -/
structure Pair where
  offset : Nat
  byte : Byte
  deriving DecidableEq, Repr

/-- A run of sectors: a sector size and a count (R158). -/
structure SectorRun where
  size : Nat
  count : Nat
  deriving DecidableEq, Repr

/-- The whole profile record SET PROFILE carries (R162, fields of R158). -/
structure ProfileFields where
  cls : Nat
  base : Nat
  size : Nat
  erased : Byte
  unlock : List Pair
  program : Pair
  sectorErase : List Pair
  sectorCommand : Byte
  laneErase : List Pair
  resetPair : Pair
  pollMethod : Nat
  pollBit : Nat
  programTimeout : Nat
  sectorTimeout : Nat
  laneTimeout : Nat
  sectors : List SectorRun
  deriving DecidableEq, Repr

/-- The fields SUBMIT carries (R166); an operation ignores those it does not need. -/
structure SubmitFields where
  operation : Nat
  lane : Nat
  address : Nat
  length : Nat
  slot : Nat
  slotOffset : Nat
  precheck : Bool
  verifyAfter : Bool
  policy : Nat
  deriving DecidableEq, Repr

/-- A byte that a survey of overlay memory reads back: physical page, pass 1 (`second` false) or pass 2, offset, and the byte the memory returned
(R49; log 9). -/
structure ReadBack where
  page : Nat
  second : Bool
  offset : Nat
  byte : Byte
  deriving DecidableEq, Repr

/-- The commands: bench commands, events of the pins and the board, and the ends of what the part does by itself. -/
inductive Instr where
  /-- Power-on of the part: the supply level in millivolts, the probe input levels, and whether the board asserts its reset net. -/
  | powerOn (supply : Nat) (probes : BitVec 4) (boardReset : Bool)
  /-- The PRST input is asserted. -/
  | prstAsserted
  /-- The PRST input is released: the part reset ends. -/
  | prstReleased
  /-- The part reset that follows the response of RESET PART. -/
  | partReset
  /-- The power-on survey ends; what its passes read back, a byte that is not listed having come back as written. -/
  | powerOnSurveyEnd (readBacks : List ReadBack)
  /-- A commanded overlay survey ends; what its passes read back. -/
  | overlaySurveyEnd (readBacks : List ReadBack)
  /-- The line survey ends: for each line in turn the 28 levels read in its high phase and in its low phase. -/
  | lineSurveyEnd (high : List (BitVec 28)) (low : List (BitVec 28))
  /-- The target makes a cycle: address, the byte driven with the write strobe (none: read strobe), fetch-status input, select inputs. -/
  | cyclePresented (address : BitVec 20) (write : Option Byte) (fetchStatus : Bool) (selects : BitVec 4)
  /-- A target cycle made while a delayed one is in flight. -/
  | lostCycle
  /-- The board access in progress ends; the byte on the board's data lines. -/
  | boardAccessEnd (data : Byte)
  /-- The board's own reset source asserts the reset net. -/
  | boardResetSeen
  /-- The board's own reset source lets the net go. -/
  | boardResetReleased
  /-- The supply falls to this level (millivolts). -/
  | supplyLost (level : Nat)
  /-- The supply rises to this level (millivolts). -/
  | supplyReturned (level : Nat)
  /-- An edge on a probe input. -/
  | probeEdge (line : Fin 4) (rising : Bool)
  /-- The hold-limit timer runs out. -/
  | holdLimitExpiry
  /-- The engine judges its start rule. -/
  | jobStart
  /-- The board ready input asserts. -/
  | readyLineAsserted
  /-- A poll's limit is reached. -/
  | pollTimeout
  /-- 50 ms after its start byte the frame under reception is not whole; its code byte where the row names it. -/
  | lateFrame (code : Option Byte)
  /-- The second length byte gives a length over 1040. -/
  | overlongFrame
  /-- A start byte finds the receive queue full. -/
  | startByteNoRoom
  /-- The link takes a discarded frame; the code byte to echo. -/
  | frameError (code : Byte)
  /-- The link takes a frame whose code is in no row of the command table. -/
  | unknownCommand (code : Byte) (payload : List Byte)
  /-- The response of SET LINK RATE has left the line; the code byte of a frame under reception, if it had arrived. -/
  | linkRateChange (code : Option Byte)
  | identify
  | readNotices
  | setNoticeMask (mask : BitVec 16)
  | setLinkRate (rate : Nat)
  | resetPart
  | setWindow (index : Nat) (fields : WindowFields)
  | clearWindow (index : Nat)
  | readWindow (index : Nat)
  | setFloat (byte : Byte)
  | surveyOverlay
  | readRepairMap
  | writeOverlay (page : Nat) (offset : Nat) (data : List Byte)
  | readOverlay (page : Nat) (offset : Nat) (count : Nat)
  | setWatch (unit : Nat) (fields : WatchFields)
  | readWatch (unit : Nat)
  | setProbe (line : Nat) (fields : ProbeFields)
  | readProbe (line : Nat)
  | setHoldOptions (fields : HoldFields)
  | setFloor (floor : Nat)
  | halt (level : Nat)
  /-- `source` 0-10 or 255 for ALL; `mode` 0 PROCEED, 1 SUBSTITUTE, 2 STEP; `stepKind` 0 ANY, 1 FETCH. -/
  | release (source : Nat) (mode : Nat) (byte : Option Byte) (stepKind : Option Nat)
  | resetTarget
  | resume
  | rehearse
  /-- `lane` 0-3 or 7 for NONE; `kind` 0 READ, 1 FETCH, 2 WRITE. -/
  | inject (address : Nat) (lane : Nat) (kind : Nat) (data : Option Byte)
  | endRehearsal
  | listClaims
  | traceSetup (fields : TraceFields)
  | traceArm (mode : Nat)
  | traceHalt
  | traceClear
  | traceStatus
  | drain (count : Nat)
  /-- `path` 0 BOARD, 1 TARGET_VIEW; `lane` 0-3 or 7 for NONE, looked at for TARGET_VIEW. -/
  | peek (path : Nat) (address : Nat) (count : Nat) (lane : Nat)
  | poke (path : Nat) (address : Nat) (data : List Byte) (lane : Nat)
  | surveyLines
  | readLineMap
  | clearLineMap
  | loadSlot (slot : Nat) (data : List Byte)
  | sealSlot (slot : Nat)
  | freeSlot (slot : Nat)
  | slotStatus (slot : Nat)
  | setProfile (lane : Nat) (fields : ProfileFields)
  | readProfile (lane : Nat)
  | clearProfile (lane : Nat)
  | submit (fields : SubmitFields)
  | collect
  | jobStatus
  | cancelJob (number : Nat)
  | abortEngine
  /-- A start byte arrives at the receiver; the code byte of its frame where that comes within 50 ms. -/
  | startByteReceived (code : Option Byte := none)
  /-- The check byte of the frame under reception arrives: the frame's code, payload and check byte. -/
  | checkByteReceived (code : Byte) (payload : List Byte) (check : Byte)
  deriving DecidableEq, Repr

end Sys2Proof
end

