-- ==== Sys2Proof/Machine/State.lean ====
section
/-! DEFINITION. The state of the part: each block's state as its chapter gives it, the queue of commands, and the reset state. -/

namespace Sys2Proof.Machine

/-! ### Stops -/

/-- Why the machine stops with a fault. -/
inductive Fault where
  /-- Raised by a step that may access overlay memory for a cycle or for a byte of a command, when the logical page concerned is at or
  above the capacity and so has no physical page. R48 says that no such page reaches the memory. Safe (log 13). -/
  | noOverlayPage
  deriving DecidableEq, Repr

/-- Why a command has no meaning. -/
inductive Refusal where
  /-- Raised by an arm of `exec` whose row has no meaning yet; no arm is in that case. Safe. -/
  | notModelled (mnemonic : String)
  deriving DecidableEq, Repr

/-! ### Target Port (chapter 1) -/

/-- The kind of a cycle (R1). -/
inductive Kind where
  | read | fetch | write
  deriving DecidableEq, Repr

/-- The route of a cycle and the kind of a window (R24, R29). -/
inductive Route where
  | pass | overlay | overlayRo | shadow | guard | float
  deriving DecidableEq, Repr

/-- The lane of a cycle: 0 to 3, or none for NONE (R3). -/
abbrev Lane := Option (Fin 4)

/-- A lane a record names: ANY or one lane (R24, R60). -/
inductive LaneSel where
  | any
  | lane (n : Fin 4)
  deriving DecidableEq, Repr

/-- An overlay location: logical page and byte offset (R30). -/
structure Location where
  page : Nat
  offset : Nat
  deriving DecidableEq, Repr

/-- A source of claims (R94). -/
inductive Source where
  | watch (unit : Fin 4)
  | probe (line : Fin 4)
  | guard
  | halt
  | step
  deriving DecidableEq, Repr

/-- The phase of the cycle in flight (R1). -/
inductive Phase where
  | arriving | held | performing
  deriving DecidableEq, Repr

/-- The cycle in flight (R1). `window` is none for DEFAULT. `capture` is the governing window's setting (R31), `gate` the gate result noted
at presentation (R79), `probes` the sampled probe levels (R91). `raised` lists the claims raised by its own evaluation (R7, R116),
`stopAfter` says that a TRACE_STOP waits for its record (R76), `waiting` that WAIT is asserted for it (R8, R16). -/
structure Cycle where
  address : Nat
  lane : Lane
  kind : Kind
  writeData : Option Byte
  contention : Bool
  injected : Bool
  probes : BitVec 4
  window : Option (Fin 16)
  route : Route
  location : Option Location
  capture : Bool
  gate : Bool
  matched : BitVec 4
  fired : BitVec 4
  raised : List Source
  stopAfter : Bool
  phase : Phase
  held : Bool
  stretched : Bool
  substituted : Bool
  waiting : Bool
  readData : Option Byte
  deriving DecidableEq, Repr

/-- The Target Port: the cycle in flight (R1), the byte last driven to the target as read data (R14; log 37), the wiring options (R5), the
supply monitor and its input (R21), the board's drive of the reset net and the sense of it (R20). `prst`: the part is held in reset (R192);
`resetEnds`: the reset ends as soon as the board access in progress has ended (R137; log 34). -/
structure Port where
  inFlight : Option Cycle
  driven : Option Byte
  waitWired : Bool
  fetchWired : Bool
  selectEnables : BitVec 4
  powered : Bool
  supply : Nat
  boardReset : Bool
  resetSense : Bool
  prst : Bool
  resetEnds : Bool
  deriving DecidableEq, Repr

/-! ### Window Table (chapter 2) -/

/-- A window record (R24). -/
structure Window where
  enabled : Bool
  lane : LaneSel
  firstPage : Nat
  lastPage : Nat
  kind : Route
  origin : Option Nat
  capture : Bool
  guardLevel : Option Nat
  deriving DecidableEq, Repr

/-! ### Overlay memory (chapter 3) -/

/-- Which overlay survey runs (R50, R52). -/
inductive OverlaySurvey where
  | idle | powerOn | commanded
  deriving DecidableEq, Repr

/-- Overlay memory: its bytes by physical page x 256 + offset (R46), the repair list (R47), and the survey that runs. -/
structure Overlay where
  cells : List Host.Cell
  repairList : List Nat
  survey : OverlaySurvey
  deriving DecidableEq, Repr

/-! ### Watch units (chapter 4) -/

/-- The mode of a watch unit (R60). -/
inductive WatchMode where
  | off | once | every | gate
  deriving DecidableEq, Repr

/-- The state of a watch unit (R60). -/
inductive WatchState where
  | off | dormant | armed | spent | opened | shut
  deriving DecidableEq, Repr

/-- The action set of a watch unit; `hold` carries the level (R60). -/
structure Actions where
  hold : Option Nat
  note : Bool
  traceStart : Bool
  traceStop : Bool
  deriving DecidableEq, Repr

/-- A watch unit's record (R60) and its pending data decision (R70). `kinds` has bit 0 READ, bit 1 FETCH, bit 2 WRITE.
`probe` is the line and whether it must be high. -/
structure WatchUnit where
  mode : WatchMode
  lane : LaneSel
  firstAddress : Nat
  lastAddress : Nat
  kinds : BitVec 3
  dataValue : Byte
  dataMask : Byte
  probe : Option (Fin 4 × Bool)
  countA : Nat
  countB : Option Nat
  chained : Bool
  actions : Actions
  gateQualifies : Option Bool
  state : WatchState
  remaining : Nat
  pendingData : Bool
  deriving DecidableEq, Repr

/-! ### Probe lines (chapter 5) -/

/-- Which edges a probe line senses (R85). -/
inductive Sense where
  | off | rise | fall | both
  deriving DecidableEq, Repr

/-- A probe line's record (R85). -/
structure ProbeLine where
  sense : Sense
  record : Bool
  note : Bool
  holdLevel : Option Nat
  holdFirst : Bool
  level : Bool
  riseStamp : Stamp
  riseKept : Bool
  fallStamp : Stamp
  fallKept : Bool
  deriving DecidableEq, Repr

/-! ### Run control (chapter 6) -/

/-- The step kind of a STEP claim (R94). -/
inductive StepKind where
  | any | fetch
  deriving DecidableEq, Repr

/-- What only a STEP claim holds: its step kind and whether it is satisfied (R94). -/
structure StepPart where
  kind : StepKind
  satisfied : Bool
  deriving DecidableEq, Repr

/-- A claim (R94). `step` is present for STEP, `level` for every other source. -/
structure Claim where
  source : Source
  level : Option Nat
  stamp : Stamp
  address : Option Nat
  window : Option (Fin 16)
  repeats : Nat
  step : Option StepPart
  deriving DecidableEq, Repr

/-- The hold states, in the order of R98. -/
inductive HoldState where
  | running | holdArmed | holding | resetHeld | unpowered
  deriving DecidableEq, Repr

/-- The hold origin: source and level of the claim that began the hold (R100). -/
structure HoldOrigin where
  source : Source
  level : Option Nat
  deriving DecidableEq, Repr

/-- The hold-limit timer: the reading at the hold's start and the limit in milliseconds (R100, R109). -/
structure HoldTimer where
  start : Stamp
  limit : Nat
  deriving DecidableEq, Repr

/-- Run control (R94 to R102). `claims` is kept in source-code order. -/
structure RunControl where
  hold : HoldState
  rehearsal : Bool
  claims : List Claim
  floor : Nat
  origin : Option HoldOrigin
  timer : Option HoldTimer
  holdLimit : Nat
  powerUpHold : Bool
  threshold : Fin 4
  deriving DecidableEq, Repr

/-! ### Trace store (chapter 7) -/

/-- Why a hold ended (R101, R118). -/
inductive EndCause where
  | release | floor | expiry | boardReset | benchReset | power
  deriving DecidableEq, Repr

/-- The origin of a TARGET_RESET marker (R118). -/
inductive ResetOrigin where
  | board | bench | expiry
  deriving DecidableEq, Repr

/-- The fields of a CYCLE record (R14, R18, R118). -/
structure CycleRecord where
  address : Nat
  lane : Lane
  data : Byte
  window : Option (Fin 16)
  route : Route
  kind : Kind
  held : Bool
  substituted : Bool
  stretched : Bool
  contention : Bool
  abandoned : Bool
  injected : Bool
  matched : BitVec 4
  fired : BitVec 4
  deriving DecidableEq, Repr

/-- The seven kinds of trace record with their fields (R118). -/
inductive RecordBody where
  | cycle (c : CycleRecord)
  | engine (address : Nat) (lane : Fin 4) (data : Byte) (write : Bool)
  | edge (line : Fin 4) (rising : Bool)
  | holdBegin (origin : HoldOrigin)
  | holdEnd (origin : HoldOrigin) (cause : EndCause)
  | targetReset (origin : ResetOrigin)
  | power (lost : Bool)
  deriving DecidableEq, Repr

/-- A record in the store: its body with the sequence number and the stamp (R127). -/
structure TraceRecord where
  seq : BitVec 32
  stamp : Stamp
  body : RecordBody
  deriving DecidableEq, Repr

/-- The capture states (R119). -/
inductive CaptureState where
  | idle | waiting | recording | tailing | stopped
  deriving DecidableEq, Repr

/-- The fill modes (R119). -/
inductive FillMode where
  | ring | fillStop
  deriving DecidableEq, Repr

/-- The trace setup (R119, R136). -/
structure TraceConfig where
  fillMode : FillMode
  postCount : Nat
  watermark : Nat
  engineCycles : Bool
  edges : Bool
  markers : Bool
  deriving DecidableEq, Repr

/-- The Trace Store (R119); records oldest first. -/
structure TraceStore where
  records : List TraceRecord
  capture : CaptureState
  next : BitVec 32
  tail : Nat
  markLatch : Bool
  setup : TraceConfig
  deriving DecidableEq, Repr

/-! ### Board bus (chapter 8) -/

/-- One engine board access: a write of a byte, or a read (R170). -/
structure Access where
  address : Nat
  write : Option Byte
  deriving DecidableEq, Repr

/-- What one ENGINE grant covers: the accesses of a read, a write or a run, for a lane, or the line survey (R138). -/
inductive EngineWork where
  | accesses (lane : Fin 4) (todo : List Access)
  | lineSurvey
  deriving DecidableEq, Repr

/-- The owner of the bus (R137). `ended` is an engine access in progress whose job the loss of the supply has ended (R182). -/
inductive Owner where
  | free | target | bench
  | engine (work : EngineWork)
  | ended (lane : Fin 4) (access : Access)
  deriving DecidableEq, Repr

/-- The waiting ENGINE request: its aging count and its work (R137, R140). -/
structure EngineRequest where
  aging : Nat
  work : EngineWork
  deriving DecidableEq, Repr

/-- An entry of the line map (R151); a partner is a line number 0 to 27 in the order of R148. -/
inductive LineEntry where
  | untested | good | stuckLow | stuckHigh
  | bridged (partner : Fin 28)
  deriving DecidableEq, Repr

/-- The Board Bus Arbiter: owner and waiting requests (R137); the line map and whether a line survey runs (R147, R151). -/
structure Bus where
  owner : Owner
  target : Bool
  bench : Option Nat
  engine : Option EngineRequest
  lineMap : Vector LineEntry 28
  survey : Bool
  deriving DecidableEq, Repr

/-- A byte of a command that moves bytes: of a PEEK (`write` none) or POKE with the route it resolved to when the command was taken (R43, R143),
a BOARD-path byte with route PASS; or of READ OVERLAY or WRITE OVERLAY, with route OVERLAY and its location (R56, R57). -/
structure TransferByte where
  address : Nat
  write : Option Byte
  route : Route
  location : Option Location
  deriving DecidableEq, Repr

/-- The commands that move bytes one at a time (R56, R57, R143). -/
inductive TransferForm where
  | peek | poke | readOverlay | writeOverlay
  deriving DecidableEq, Repr

/-- A command that moves bytes, in progress: the bytes not yet made, a board-bound first one at the bus, and what was made (R143). `bytewise`:
the bytes that need no bus are made one a step, so that other accesses can come between them (R58; log 38). -/
structure Transfer where
  form : TransferForm
  bytewise : Bool
  todo : List TransferByte
  made : List Byte
  count : Nat
  deriving DecidableEq, Repr

/-! ### Staging slots and lane profiles (chapter 9) -/

/-- The state of a staging slot; the CRC is present in SEALED (R152). -/
inductive SlotState where
  | empty | filling
  | sealed (crc : Crc)
  deriving DecidableEq, Repr

/-- A staging slot (R152); the fill length is the number of bytes in `contents`. -/
structure Slot where
  state : SlotState
  contents : List Byte
  binds : Nat
  deriving DecidableEq, Repr

/-- The class of a lane profile (R158). -/
inductive LaneClass where
  | romOnly | flash | ram
  deriving DecidableEq, Repr

/-- The poll method of a FLASH profile (R158). -/
inductive PollMethod where
  | toggle | data | readyLine
  deriving DecidableEq, Repr

/-- The fields kept for a FLASH profile (R158). -/
structure FlashPart where
  unlock : List Pair
  program : Pair
  sectorErase : List Pair
  sectorCommand : Byte
  laneErase : List Pair
  resetPair : Pair
  pollMethod : PollMethod
  pollBit : Nat
  programTimeout : Nat
  sectorTimeout : Nat
  laneTimeout : Nat
  sectors : List SectorRun
  deriving DecidableEq, Repr

/-- A present lane profile (R158); `flash` is present for class FLASH. -/
structure Profile where
  cls : LaneClass
  base : Nat
  size : Nat
  erased : Byte
  flash : Option FlashPart
  deriving DecidableEq, Repr

/-- A lane: its profile, absent or present, and its reset-owed flag (R158, R164). -/
structure LaneRecord where
  profile : Option Profile
  owed : Bool
  deriving DecidableEq, Repr

/-! ### Programming engine (chapter 10) -/

/-- The policy of a VERIFY (R165). -/
inductive Policy where
  | first | count | retry
  deriving DecidableEq, Repr

/-- An operation with the fields it needs beside address and length (R165). -/
inductive Operation where
  | eraseSector | eraseLane
  | program (slot : Fin 4) (offset : Nat) (precheck : Bool) (verifyAfter : Bool)
  | verify (slot : Fin 4) (offset : Nat) (policy : Policy)
  | blankCheck | sum
  deriving DecidableEq, Repr

/-- The outcomes of a job, in the order of R178's wire layout (11.6). -/
inductive JobOutcome where
  | done | mismatch | unsteady | notBlank | notErased | programFault | timeout | lineFault | powerLost | aborted | cancelled
  deriving DecidableEq, Repr

/-- A completion (R178). `counts` is present for VERIFY: mismatch count and unsteady count. -/
structure Completion where
  outcome : JobOutcome
  reached : Option Nat
  expected : Option Byte
  read : Option Byte
  counts : Option (Nat × Nat)
  crc : Option Crc
  elapsed : Stamp
  deriving DecidableEq, Repr

/-- Where a poll stands: the first read of a TOGGLE pair, its second read with the first byte, a DATA read, or the wait for the ready
input (R172). -/
inductive PollStage where
  | toggleFirst
  | toggleSecond (first : Byte)
  | data
  | readyLine
  deriving DecidableEq, Repr

/-- What the ACTIVE job's current board work is (R169 to R177, R181). -/
inductive JobPhase where
  /-- The owed reset pair (R169). -/
  | owedReset
  /-- The precheck read of a program step (R171). -/
  | precheck
  /-- The run of a program step (R171). -/
  | stepRun
  /-- The run of an erase (R174). -/
  | eraseRun
  /-- A poll, with its poll start (R172). -/
  | poll (start : Stamp) (stage : PollStage)
  /-- The compare read of a program step (R171). -/
  | compare
  /-- The plain write to a RAM lane (R173). -/
  | ramWrite
  /-- The read-back from a RAM lane (R173). -/
  | ramRead
  /-- A read of the verify pass of a PROGRAM (R173). -/
  | verifyPass
  /-- A first read of a VERIFY, BLANK_CHECK or SUM (R175, R177). -/
  | reading
  /-- The re-reads of a RETRY mismatch: the first read, how many are left, whether all so far equal it (R176). -/
  | retry (first : Byte) (left : Nat) (same : Bool)
  /-- The reset pair after a timeout (R172). -/
  | timeoutReset
  /-- The reset pair of ABORT ENGINE (R181). -/
  | abortReset
  deriving DecidableEq, Repr

/-- The work of the ACTIVE job: start stamp and current address (R169, R170), phase, CRC register, counts and first findings
(R175, R176), and whether ABORT ENGINE waits for the granted access or run (R181). -/
structure Active where
  start : Stamp
  current : Nat
  phase : JobPhase
  crc : Crc
  mismatches : Nat
  unsteady : Nat
  firstBad : Option (Nat × Byte × Byte)
  firstUnsteady : Option Nat
  aborting : Bool
  deriving DecidableEq, Repr

/-- The state of a job-table entry, with what it holds in that state (R165). -/
inductive JobState where
  | queued | waiting
  | active (a : Active)
  | ended (c : Completion)
  deriving DecidableEq, Repr

/-- A job-table entry (R165). -/
structure Job where
  number : Nat
  op : Operation
  lane : Fin 4
  address : Nat
  length : Nat
  state : JobState
  deriving DecidableEq, Repr

/-- The Programming Engine: the job table, oldest first; the numbers of its ENDED entries in the order they ended (R179); the next job
number (R165). -/
structure Engine where
  jobs : List Job
  endOrder : List Nat
  nextNumber : Nat
  deriving DecidableEq, Repr

/-! ### Bench link (chapter 11) -/

/-- The statuses, in the order of their codes (11.5). -/
inductive Status where
  | ok | frameError | unknownCommand | badLength | badValue | badAlign | wrongState | noRoom
  | queueFull | notFound | slotNotReady | slotBound | noProfile | engineActive | laneBusy | targetRunning
  | unpowered | noClaim | notHolding | cycleHeld | windowsLive | overlayBusy
  deriving DecidableEq, Repr

/-- What the response carries that completes an injected cycle (R108). -/
structure Delivery where
  abandoned : Bool
  byte : Option Byte
  matched : BitVec 4
  fired : BitVec 4
  raised : List Source
  seq : Option (BitVec 32)
  deriving DecidableEq, Repr

/-- The payload of a response, by its shape. A status other than OK has an empty payload (R187). -/
inductive Answer where
  | empty
  | identify (capacity : Nat) (survey : Bool)
  | notices (pending : BitVec 15) (mask : BitVec 15)
  | window (w : Window)
  | repairMap (list : List Nat) (capacity : Nat) (survey : Bool)
  | bytes (data : List Byte)
  | watch (u : WatchUnit)
  | probe (p : ProbeLine) (now : Stamp)
  | hold (h : HoldState)
  | release (h : HoldState) (claims : List Claim) (floor : Nat) (delivery : Option Delivery)
  | floor (delivery : Option Delivery)
  | inject (window : Option (Fin 16)) (route : Route) (matched : BitVec 4) (fired : BitVec 4) (raised : List Source)
      (held : Bool) (abandoned : Bool) (h : HoldState) (delivery : Option Delivery)
  | claims (claims : List Claim) (floor : Nat) (h : HoldState) (rehearsal : Bool)
  | traceStatus (capture : CaptureState) (held : Nat) (oldest : BitVec 32) (next : BitVec 32) (tail : Nat) (setup : TraceConfig)
  | records (l : List TraceRecord)
  | peeked (data : List Byte) (count : Nat)
  | poked (count : Nat)
  | lineMap (entries : List LineEntry) (survey : Bool)
  | fillLength (n : Nat)
  | sealed (crc : Crc) (n : Nat)
  | slot (s : Slot)
  | profile (p : Option Profile) (owed : Bool)
  | submitted (number : Nat) (state : JobState)
  | completion (job : Job) (c : Completion)
  | jobs (l : List Job) (now : Stamp)
  | ended (count : Nat)
  deriving DecidableEq, Repr

/-- A response frame: status, echoed command code, payload (R187). -/
structure Response where
  status : Status
  code : Byte
  answer : Answer
  deriving DecidableEq, Repr

/-- A frame in the receive queue: under reception since a reading, with the code byte that comes within 50 ms of its start byte (log 26); whole with its code
and payload; or discarded with the code byte to echo (R185, R186). -/
inductive Frame where
  | receiving (since : Stamp) (code : Option Byte)
  | whole (code : Byte) (payload : List Byte)
  | discarded (echo : Byte)
  deriving DecidableEq, Repr

/-- What the link is occupied with, until a response has left the line (R186). -/
inductive Activity where
  | idle
  /-- A response is on the line: the next frame is taken only once its last byte has left it (R186; log 7). -/
  | sending
  /-- A PEEK, POKE, READ OVERLAY or WRITE OVERLAY makes its bytes (R56, R57, R143). -/
  | transfer (t : Transfer)
  /-- INJECT waits for its cycle (R116). -/
  | inject
  /-- RELEASE waits for the injected cycle it let go (R108). -/
  | release
  /-- SET FLOOR waits for the injected cycle it let go (R108). -/
  | floor
  /-- ABORT ENGINE waits for the active job's end (R181). -/
  | abort
  /-- The response of SET LINK RATE is on the line; the new rate (R184). -/
  | rateChange (rate : Fin 4)
  /-- The response of RESET PART is on the line (R192). -/
  | reset
  deriving DecidableEq, Repr

/-- The Bench Link (R184 to R190). `sent` is the last response handed to the transmitter, on the line while the activity is `sending` (log 7). -/
structure Link where
  rate : Fin 4
  queue : List Frame
  activity : Activity
  pending : BitVec 15
  mask : BitVec 15
  sent : Option Response
  deriving DecidableEq, Repr

end Sys2Proof.Machine

namespace Sys2Proof.Machine

/-- The whole part: its blocks, and the queue of the commands that are waiting, first in, first out. `freeIndex` is the model's own counter
for free values (log 27). -/
structure State where
  port : Port
  windows : Vector Window 16
  floatByte : Byte
  overlay : Overlay
  watch : Vector WatchUnit 4
  probes : Vector ProbeLine 4
  timeBase : Stamp
  run : RunControl
  trace : TraceStore
  bus : Bus
  slots : Vector Slot 4
  lanes : Vector LaneRecord 4
  engine : Engine
  link : Link
  pending : List Instr
  freeIndex : Nat
  deriving DecidableEq, Repr

/-- The result of a step or of a command. -/
abbrev Result := Host.Outcome State Fault Refusal

/-! ### Reset values -/

/-- A window record after either reset (R25). -/
def Window.initial : Window :=
  { enabled := false, lane := .lane 0, firstPage := 0, lastPage := 0, kind := .pass, origin := none, capture := false, guardLevel := none }

/-- A watch unit after either reset (R61), also what SET WATCH with mode OFF leaves (R80). -/
def WatchUnit.initial : WatchUnit :=
  { mode := .off, lane := .any, firstAddress := 0, lastAddress := 0, kinds := 0, dataValue := 0, dataMask := 0, probe := none,
    countA := 1, countB := none, chained := false, actions := { hold := none, note := false, traceStart := false, traceStop := false },
    gateQualifies := none, state := .off, remaining := 0, pendingData := false }

/-- A probe line after either reset, its input standing at `level` (R86). -/
def ProbeLine.initial (level : Bool) : ProbeLine :=
  { sense := .off, record := false, note := false, holdLevel := none, holdFirst := false, level := level,
    riseStamp := 0, riseKept := false, fallStamp := 0, fallKept := false }

/-- The Trace Store after either reset (R119). -/
def TraceStore.initial : TraceStore :=
  { records := [], capture := .idle, next := 0, tail := 0, markLatch := false,
    setup := { fillMode := .ring, postCount := 0, watermark := 2048, engineCycles := false, edges := true, markers := true } }

/-- Run control after either reset, by the supply monitor's status (R94, R96, R98, R102). -/
def RunControl.initial (powered : Bool) : RunControl :=
  { hold := if powered then .resetHeld else .unpowered, rehearsal := false, claims := [], floor := 8, origin := none, timer := none,
    holdLimit := 0, powerUpHold := true, threshold := 1 }

/-- The arbiter and the line map after either reset (R137, R151). -/
def Bus.initial : Bus :=
  { owner := .free, target := false, bench := none, engine := none, lineMap := Vector.replicate 28 .untested, survey := false }

/-- The link after either reset: 115200 baud, an empty queue, only RESTART pending, every flag enabled (R184, R189, R190, R192). -/
def Link.initial : Link :=
  { rate := 0, queue := [], activity := .idle, pending := 1#15, mask := BitVec.allOnes 15, sent := none }

/-- The Target Port after either reset; the input pins are as they stand (R1, R5, R20, R21). The initial status is POWERED if the supply stands
at or above the return level of threshold index 1. -/
def Port.initial (supply : Nat) (boardReset : Bool) : Port :=
  { inFlight := none, driven := none, waitWired := false, fetchWired := false, selectEnables := 0,
    powered := decide (Config.returnLevel 1 ≤ supply), supply := supply, boardReset := boardReset, resetSense := true, prst := false,
    resetEnds := false }

/-- What either reset leaves, given overlay memory and the inputs at the reset's end. The Time Base is set to 0 when the reset ends (R84). -/
def State.afterReset (overlay : Overlay) (supply : Nat) (boardReset : Bool) (levels : Fin 4 → Bool) (freeIndex : Nat)
    (pending : List Instr) : State :=
  { port := Port.initial supply boardReset
    windows := Vector.replicate 16 Window.initial
    floatByte := 0xFF#8
    overlay := overlay
    watch := Vector.replicate 4 WatchUnit.initial
    probes := #v[ProbeLine.initial (levels 0), ProbeLine.initial (levels 1), ProbeLine.initial (levels 2), ProbeLine.initial (levels 3)]
    timeBase := 0
    run := RunControl.initial (Port.initial supply boardReset).powered
    trace := TraceStore.initial
    bus := Bus.initial
    slots := Vector.replicate 4 { state := .empty, contents := [], binds := 0 }
    lanes := Vector.replicate 4 { profile := none, owed := false }
    engine := { jobs := [], endOrder := [], nextNumber := 0 }
    link := Link.initial
    pending := pending
    freeIndex := freeIndex }

/-- Overlay memory as power-on finds it: the power-on survey runs with all 272 pages listed (R50). -/
def Overlay.powerOn : Overlay :=
  { cells := [], repairList := List.range Config.physicalPages, survey := .powerOn }

/-- The machine right after power-on: every block at its reset value and the power-on survey running. The input pins' levels are the model's
choice (log 1): supply 5000 mV, board reset net released, probe inputs low, PRST released. -/
def State.reset : State :=
  State.afterReset Overlay.powerOn 5000 false (fun _ => false) 0 []

end Sys2Proof.Machine
end

