-- ==== Sys2Proof/Machine/Operands.lean ====
section
/-! DEFINITION. The operand forms: the codes of enumerated fields (R188: numbered from 0 in the order in which the values are listed where
the field is defined), lanes, sources, sets, and numbers as bytes, least significant byte first. A code outside its list is none. -/

namespace Sys2Proof.Machine

/-! ### Enumerated fields -/

def Kind.ofCode (n : Nat) : Option Kind := [Kind.read, .fetch, .write][n]?

def Kind.code : Kind → Nat
  | .read => 0
  | .fetch => 1
  | .write => 2

def Route.ofCode (n : Nat) : Option Route := [Route.pass, .overlay, .overlayRo, .shadow, .guard, .float][n]?

def Route.code : Route → Nat
  | .pass => 0
  | .overlay => 1
  | .overlayRo => 2
  | .shadow => 3
  | .guard => 4
  | .float => 5

/-- A lane 0 to 3, and nothing else: the lane of a profile or a job (R160, R166). -/
def laneOfCode (n : Nat) : Option (Fin 4) := if h : n < 4 then some ⟨n, h⟩ else none

/-- The lane of an injected cycle or a view lane: 0-3, or 7 for NONE (R43, R116, R188). -/
def cycleLaneOfCode (n : Nat) : Option Lane := if n = 7 then some none else (laneOfCode n).map some

/-- The lane of a window or watch unit: 0-3, or 8 for ANY (R36, R81, R188). -/
def LaneSel.ofCode (n : Nat) : Option LaneSel := if n = 8 then some .any else (laneOfCode n).map .lane

def LaneSel.code : LaneSel → Nat
  | .any => 8
  | .lane n => n.val

/-- The lane of a cycle on the wire (R188). -/
def laneCode : Lane → Nat
  | none => 7
  | some n => n.val

/-- Source codes (R94). -/
def Source.code : Source → Nat
  | .watch u => u.val
  | .probe p => 4 + p.val
  | .guard => 8
  | .halt => 9
  | .step => 10

/-- The source of a code 0 to 10 (R94, R105). -/
def Source.ofCode (n : Nat) : Option Source :=
  [Source.watch 0, .watch 1, .watch 2, .watch 3, .probe 0, .probe 1, .probe 2, .probe 3, .guard, .halt, .step][n]?

def WatchMode.ofCode (n : Nat) : Option WatchMode := [WatchMode.off, .once, .every, .gate][n]?

def WatchMode.code : WatchMode → Nat
  | .off => 0
  | .once => 1
  | .every => 2
  | .gate => 3

def WatchState.code : WatchState → Nat
  | .off => 0
  | .dormant => 1
  | .armed => 2
  | .spent => 3
  | .opened => 4
  | .shut => 5

def Sense.ofCode (n : Nat) : Option Sense := [Sense.off, .rise, .fall, .both][n]?

def Sense.code : Sense → Nat
  | .off => 0
  | .rise => 1
  | .fall => 2
  | .both => 3

def StepKind.ofCode (n : Nat) : Option StepKind := [StepKind.any, .fetch][n]?

def HoldState.code : HoldState → Nat
  | .running => 0
  | .holdArmed => 1
  | .holding => 2
  | .resetHeld => 3
  | .unpowered => 4

def FillMode.ofCode (n : Nat) : Option FillMode := [FillMode.ring, .fillStop][n]?

def FillMode.code : FillMode → Nat
  | .ring => 0
  | .fillStop => 1

def CaptureState.code : CaptureState → Nat
  | .idle => 0
  | .waiting => 1
  | .recording => 2
  | .tailing => 3
  | .stopped => 4

def EndCause.code : EndCause → Nat
  | .release => 0
  | .floor => 1
  | .expiry => 2
  | .boardReset => 3
  | .benchReset => 4
  | .power => 5

def ResetOrigin.code : ResetOrigin → Nat
  | .board => 0
  | .bench => 1
  | .expiry => 2

def LaneClass.ofCode (n : Nat) : Option LaneClass := [LaneClass.romOnly, .flash, .ram][n]?

def LaneClass.code : LaneClass → Nat
  | .romOnly => 0
  | .flash => 1
  | .ram => 2

def PollMethod.ofCode (n : Nat) : Option PollMethod := [PollMethod.toggle, .data, .readyLine][n]?

def PollMethod.code : PollMethod → Nat
  | .toggle => 0
  | .data => 1
  | .readyLine => 2

def Policy.ofCode (n : Nat) : Option Policy := [Policy.first, .count, .retry][n]?

def Policy.code : Policy → Nat
  | .first => 0
  | .count => 1
  | .retry => 2

def Operation.code : Operation → Nat
  | .eraseSector => 0
  | .eraseLane => 1
  | .program _ _ _ _ => 2
  | .verify _ _ _ => 3
  | .blankCheck => 4
  | .sum => 5

def JobState.code : JobState → Nat
  | .queued => 0
  | .waiting => 1
  | .active _ => 2
  | .ended _ => 3

def JobOutcome.code : JobOutcome → Nat
  | .done => 0
  | .mismatch => 1
  | .unsteady => 2
  | .notBlank => 3
  | .notErased => 4
  | .programFault => 5
  | .timeout => 6
  | .lineFault => 7
  | .powerLost => 8
  | .aborted => 9
  | .cancelled => 10

def SlotState.code : SlotState → Nat
  | .empty => 0
  | .filling => 1
  | .sealed _ => 2

def LineEntry.code : LineEntry → Nat
  | .untested => 0
  | .good => 1
  | .stuckLow => 2
  | .stuckHigh => 3
  | .bridged _ => 4

/-- Status codes (11.5). -/
def Status.code : Status → Nat
  | .ok => 0x00
  | .frameError => 0x01
  | .unknownCommand => 0x02
  | .badLength => 0x03
  | .badValue => 0x04
  | .badAlign => 0x05
  | .wrongState => 0x06
  | .noRoom => 0x07
  | .queueFull => 0x08
  | .notFound => 0x09
  | .slotNotReady => 0x0A
  | .slotBound => 0x0B
  | .noProfile => 0x0C
  | .engineActive => 0x0D
  | .laneBusy => 0x0E
  | .targetRunning => 0x0F
  | .unpowered => 0x10
  | .noClaim => 0x11
  | .notHolding => 0x12
  | .cycleHeld => 0x13
  | .windowsLive => 0x14
  | .overlayBusy => 0x15

/-! ### Sets and bits -/

/-- The set of one member of four: units, lanes, lines. -/
def bitOf (i : Fin 4) : BitVec 4 := 1#4 <<< i.val

/-- A byte with one bit for each yes (R188: a set is one byte with bit n for the n-th listed member). -/
def setByte (members : List Bool) : Nat :=
  members.foldr (fun b acc => (if b then 1 else 0) + 2 * acc) 0

/-- A yes/no field: 1 or 0 (R188). -/
def yesNoCode (b : Bool) : Nat := if b then 1 else 0

/-! ### Numbers as bytes -/

/-- A number on `k` bytes, least significant byte first (00_scope, "Byte order on the wire"; R188). -/
def leBytes : Nat → Nat → List Byte
  | 0, _ => []
  | k + 1, n => BitVec.ofNat 8 n :: leBytes k (n / 256)

/-- The number that bytes give, least significant byte first. -/
def leValue : List Byte → Nat
  | [] => 0
  | b :: rest => b.toNat + 256 * leValue rest

/-- A field on `k` bytes that may be absent: every bit set when it is absent (R188). -/
def optBytes (k : Nat) (o : Option Nat) : List Byte := leBytes k (o.getD (256 ^ k - 1))

/-- A list preceded by a count of its entries on `k` bytes (R188). -/
def countedBytes {α : Type} (k : Nat) (l : List α) (entry : α → List Byte) : List Byte :=
  leBytes k l.length ++ l.flatMap entry

/-- The check byte: the two's complement of the sum of the bytes it covers, modulo 256 (R185). -/
def checkByte (bytes : List Byte) : Byte := -bytes.foldl (· + ·) 0

end Sys2Proof.Machine
end

