-- ==== Sys2Proof/WellFormed.lean ====
section
/-! DEFINITION. Which commands can be given: each field of a bench command fits the bytes that R188 gives it, a frame fits R185's length,
and an event's operands describe something the part can meet. A well-formed command may still be refused by its own checks. -/

namespace Sys2Proof

/-- A value one byte holds (R188). -/
def fitsByte (n : Nat) : Bool := decide (n < 256)

/-- A value two bytes hold (R188). -/
def fitsTwo (n : Nat) : Bool := decide (n < 65536)

/-- A value three bytes hold: a target address on the wire (R188). -/
def fitsThree (n : Nat) : Bool := decide (n < 16777216)

/-- A value four bytes hold (R188). -/
def fitsFour (n : Nat) : Bool := decide (n < 4294967296)

/-- A field that may be absent, on one byte: 0xFF stands for absence alone (R188). -/
def fitsByteOpt (o : Option Nat) : Bool := o.all (fun n => decide (n < 255))

/-- A field that may be absent, on two bytes (R188). -/
def fitsTwoOpt (o : Option Nat) : Bool := o.all (fun n => decide (n < 65535))

def Pair.wf (p : Pair) : Bool := fitsFour p.offset

def WindowFields.wf (w : WindowFields) : Bool :=
  fitsByte w.lane && fitsTwo w.firstPage && fitsTwo w.lastPage && fitsByte w.kind && fitsTwoOpt w.origin && fitsByteOpt w.guardLevel

def WatchFields.wf (w : WatchFields) : Bool :=
  fitsByte w.mode && fitsByte w.lane && fitsThree w.firstAddress && fitsThree w.lastAddress &&
  w.probe.all (fun p => decide (p.1 < 255) && fitsByte p.2) && fitsTwo w.countA && fitsTwo w.countB && fitsByte w.holdLevel

def ProbeFields.wf (p : ProbeFields) : Bool := fitsByte p.sense && fitsByteOpt p.holdLevel

def HoldFields.wf (h : HoldFields) : Bool := fitsTwo h.holdLimit && fitsByte h.threshold

def TraceFields.wf (t : TraceFields) : Bool := fitsByte t.fillMode && fitsTwo t.postCount && fitsTwo t.watermark

/-- The profile record fits a frame: 33 bytes beside its lists, 5 a pair and 6 a run, within R185's 1040. -/
def ProfileFields.wf (p : ProfileFields) : Bool :=
  fitsByte p.cls && fitsThree p.base && fitsFour p.size && p.unlock.all Pair.wf && p.program.wf && p.sectorErase.all Pair.wf &&
  p.laneErase.all Pair.wf && p.resetPair.wf && fitsByte p.pollMethod && fitsByte p.pollBit && fitsTwo p.programTimeout &&
  fitsTwo p.sectorTimeout && fitsTwo p.laneTimeout && p.sectors.all (fun r => fitsFour r.size && fitsTwo r.count) &&
  decide (33 + 5 * (p.unlock.length + p.sectorErase.length + p.laneErase.length) + 6 * p.sectors.length ≤ Config.payloadLimit)

def SubmitFields.wf (j : SubmitFields) : Bool :=
  fitsByte j.operation && fitsByte j.lane && fitsThree j.address && fitsFour j.length && fitsByte j.slot && fitsTwo j.slotOffset &&
  fitsByte j.policy

/-- A read-back of a survey names a byte of overlay memory (R46, R49). -/
def ReadBack.wf (r : ReadBack) : Bool := decide (r.page < Config.physicalPages) && decide (r.offset < Config.pageSize)

/-- A command that can be given. -/
def Instr.wf : Instr → Bool
  | .powerOn _ _ _ => true
  | .prstAsserted => true
  | .prstReleased => true
  | .partReset => true
  | .powerOnSurveyEnd readBacks => readBacks.all ReadBack.wf
  | .overlaySurveyEnd readBacks => readBacks.all ReadBack.wf
  | .lineSurveyEnd high low => decide (high.length = 28) && decide (low.length = 28)
  | .cyclePresented _ _ _ _ => true
  | .lostCycle => true
  | .boardAccessEnd _ => true
  | .boardResetSeen => true
  | .boardResetReleased => true
  | .supplyLost _ => true
  | .supplyReturned _ => true
  | .probeEdge _ _ => true
  | .holdLimitExpiry => true
  | .jobStart => true
  | .readyLineAsserted => true
  | .pollTimeout => true
  | .lateFrame _ => true
  | .overlongFrame => true
  | .startByteNoRoom => true
  | .frameError _ => true
  | .unknownCommand code payload => decide (code ∉ Config.commandCodes) && decide (payload.length ≤ Config.payloadLimit)
  | .linkRateChange _ => true
  | .identify => true
  | .readNotices => true
  | .setNoticeMask _ => true
  | .setLinkRate rate => fitsByte rate
  | .resetPart => true
  | .setWindow index fields => fitsByte index && fields.wf
  | .clearWindow index => fitsByte index
  | .readWindow index => fitsByte index
  | .setFloat _ => true
  | .surveyOverlay => true
  | .readRepairMap => true
  | .writeOverlay page offset data => fitsByte page && fitsByte offset && decide (4 + data.length ≤ Config.payloadLimit)
  | .readOverlay page offset count => fitsByte page && fitsByte offset && fitsTwo count
  | .setWatch unit fields => fitsByte unit && fields.wf
  | .readWatch unit => fitsByte unit
  | .setProbe line fields => fitsByte line && fields.wf
  | .readProbe line => fitsByte line
  | .setHoldOptions fields => fields.wf
  | .setFloor floor => fitsByte floor
  | .halt level => fitsByte level
  | .release source mode _ stepKind => fitsByte source && fitsByte mode && fitsByteOpt stepKind
  | .resetTarget => true
  | .resume => true
  | .rehearse => true
  | .inject address lane kind _ => fitsThree address && fitsByte lane && fitsByte kind
  | .endRehearsal => true
  | .listClaims => true
  | .traceSetup fields => fields.wf
  | .traceArm mode => fitsByte mode
  | .traceHalt => true
  | .traceClear => true
  | .traceStatus => true
  | .drain count => fitsByte count
  | .peek path address count lane => fitsByte path && fitsThree address && fitsTwo count && fitsByte lane
  | .poke path address data lane =>
      fitsByte path && fitsThree address && decide (7 + data.length ≤ Config.payloadLimit) && fitsByte lane
  | .surveyLines => true
  | .readLineMap => true
  | .clearLineMap => true
  | .loadSlot slot data => fitsByte slot && decide (3 + data.length ≤ Config.payloadLimit)
  | .sealSlot slot => fitsByte slot
  | .freeSlot slot => fitsByte slot
  | .slotStatus slot => fitsByte slot
  | .setProfile lane fields => fitsByte lane && fields.wf
  | .readProfile lane => fitsByte lane
  | .clearProfile lane => fitsByte lane
  | .submit fields => fields.wf
  | .collect => true
  | .jobStatus => true
  | .cancelJob number => fitsByte number
  | .abortEngine => true
  | .startByteReceived _ => true
  | .checkByteReceived _ payload _ => decide (payload.length ≤ Config.payloadLimit)

end Sys2Proof
end

