-- ==== Sys2Proof/Machine/Wire.lean ====
section
/-! DEFINITION. The bench link's layouts (R187, R188, 11.5, 11.6): each command's code and payload, how a frame's code and payload spell a
command, and the bytes of responses, trace records, completions and claim entries. What R188 leaves open is in log 21 and 22. -/

namespace Sys2Proof

open Machine

/-! ### Commands to bytes -/

/-- The command code of a bench command (11.5). No command has code 0x00 (R185): rows that are no bench command give 0x00. -/
def Instr.code : Instr → Byte
  | .identify => 0x01
  | .readNotices => 0x02
  | .setNoticeMask _ => 0x03
  | .setLinkRate _ => 0x04
  | .resetPart => 0x05
  | .setWindow _ _ => 0x10
  | .clearWindow _ => 0x11
  | .readWindow _ => 0x12
  | .setFloat _ => 0x13
  | .surveyOverlay => 0x18
  | .readRepairMap => 0x19
  | .writeOverlay _ _ _ => 0x1A
  | .readOverlay _ _ _ => 0x1B
  | .setWatch _ _ => 0x20
  | .readWatch _ => 0x21
  | .setProbe _ _ => 0x24
  | .readProbe _ => 0x25
  | .setHoldOptions _ => 0x30
  | .setFloor _ => 0x31
  | .halt _ => 0x32
  | .release _ _ _ _ => 0x33
  | .resetTarget => 0x34
  | .resume => 0x35
  | .rehearse => 0x36
  | .inject _ _ _ _ => 0x37
  | .endRehearsal => 0x38
  | .listClaims => 0x39
  | .traceSetup _ => 0x40
  | .traceArm _ => 0x41
  | .traceHalt => 0x42
  | .traceClear => 0x43
  | .traceStatus => 0x44
  | .drain _ => 0x45
  | .peek _ _ _ _ => 0x50
  | .poke _ _ _ _ => 0x51
  | .surveyLines => 0x52
  | .readLineMap => 0x53
  | .clearLineMap => 0x54
  | .loadSlot _ _ => 0x60
  | .sealSlot _ => 0x61
  | .freeSlot _ => 0x62
  | .slotStatus _ => 0x63
  | .setProfile _ _ => 0x68
  | .readProfile _ => 0x69
  | .clearProfile _ => 0x6A
  | .submit _ => 0x70
  | .collect => 0x71
  | .jobStatus => 0x72
  | .cancelJob _ => 0x73
  | .abortEngine => 0x74
  | .powerOn _ _ _ => 0
  | .prstAsserted => 0
  | .prstReleased => 0
  | .partReset => 0
  | .powerOnSurveyEnd _ => 0
  | .overlaySurveyEnd _ => 0
  | .lineSurveyEnd _ _ => 0
  | .cyclePresented _ _ _ _ => 0
  | .lostCycle => 0
  | .boardAccessEnd _ => 0
  | .boardResetSeen => 0
  | .boardResetReleased => 0
  | .supplyLost _ => 0
  | .supplyReturned _ => 0
  | .probeEdge _ _ => 0
  | .holdLimitExpiry => 0
  | .jobStart => 0
  | .readyLineAsserted => 0
  | .pollTimeout => 0
  | .lateFrame _ => 0
  | .overlongFrame => 0
  | .startByteNoRoom => 0
  | .frameError _ => 0
  | .unknownCommand code _ => code
  | .linkRateChange _ => 0
  | .startByteReceived _ => 0
  | .checkByteReceived _ _ _ => 0

def pairBytes (p : Pair) : List Byte := leBytes 4 p.offset ++ [p.byte]

def sectorBytes (r : SectorRun) : List Byte := leBytes 4 r.size ++ leBytes 2 r.count

/-- One byte for a yes/no field (R188). -/
def flagByte (b : Bool) : Byte := if b then 1 else 0

/-- A byte that may be absent takes two bytes, so that 0xFFFF stands for absence alone (R188). -/
def optByteBytes (o : Option Byte) : List Byte := optBytes 2 (o.map BitVec.toNat)

def WindowFields.bytes (w : WindowFields) : List Byte :=
  [flagByte w.enabled] ++ leBytes 1 w.lane ++ leBytes 2 w.firstPage ++ leBytes 2 w.lastPage ++ leBytes 1 w.kind ++
  optBytes 2 w.origin ++ [flagByte w.capture] ++ optBytes 1 w.guardLevel

def WatchFields.bytes (w : WatchFields) : List Byte :=
  leBytes 1 w.mode ++ leBytes 1 w.lane ++ leBytes 3 w.firstAddress ++ leBytes 3 w.lastAddress ++ [w.kinds, w.dataValue, w.dataMask] ++
  optBytes 1 (w.probe.map Prod.fst) ++ optBytes 1 (w.probe.map Prod.snd) ++ leBytes 2 w.countA ++ leBytes 2 w.countB ++
  [flagByte w.chained, w.actions] ++ leBytes 1 w.holdLevel ++ [flagByte w.gateQualifies]

def ProbeFields.bytes (p : ProbeFields) : List Byte :=
  leBytes 1 p.sense ++ [flagByte p.record, flagByte p.note] ++ optBytes 1 p.holdLevel ++ [flagByte p.holdFirst]

/-- The four select-sense enables, each on or off (R102), are sent as one set byte, select n in bit n: the model's choice, since R188 gives a set one byte and a yes/no field
one byte of its own and R102 does not say which of the two they are (log 21). -/
def HoldFields.bytes (h : HoldFields) : List Byte :=
  [flagByte h.waitWired, flagByte h.fetchWired, h.selectEnables.setWidth 8] ++ leBytes 2 h.holdLimit ++ [flagByte h.powerUpHold] ++
  leBytes 1 h.threshold

def TraceFields.bytes (t : TraceFields) : List Byte :=
  leBytes 1 t.fillMode ++ leBytes 2 t.postCount ++ leBytes 2 t.watermark ++ [flagByte t.engineCycles, flagByte t.edges, flagByte t.markers]

def ProfileFields.bytes (p : ProfileFields) : List Byte :=
  leBytes 1 p.cls ++ leBytes 3 p.base ++ leBytes 4 p.size ++ [p.erased] ++ countedBytes 1 p.unlock pairBytes ++ pairBytes p.program ++
  countedBytes 1 p.sectorErase pairBytes ++ [p.sectorCommand] ++ countedBytes 1 p.laneErase pairBytes ++ pairBytes p.resetPair ++
  leBytes 1 p.pollMethod ++ leBytes 1 p.pollBit ++ leBytes 2 p.programTimeout ++ leBytes 2 p.sectorTimeout ++ leBytes 2 p.laneTimeout ++
  countedBytes 1 p.sectors sectorBytes

/-- Every field for every operation, precheck and verify-after before the policy: one fixed layout of 15 bytes, the model's choice (R166, R188; log 21). -/
def SubmitFields.bytes (j : SubmitFields) : List Byte :=
  leBytes 1 j.operation ++ leBytes 1 j.lane ++ leBytes 3 j.address ++ leBytes 4 j.length ++ leBytes 1 j.slot ++ leBytes 2 j.slotOffset ++
  [flagByte j.precheck, flagByte j.verifyAfter] ++ leBytes 1 j.policy

/-- The payload of a command's frame: its fields in the order its chapter names them (R188). PEEK and POKE carry the lane byte on the BOARD path too: the model's
choice (log 21). -/
def Instr.payload : Instr → List Byte
  | .setNoticeMask mask => leBytes 2 mask.toNat
  | .setLinkRate rate => leBytes 1 rate
  | .setWindow index fields => leBytes 1 index ++ fields.bytes
  | .clearWindow index => leBytes 1 index
  | .readWindow index => leBytes 1 index
  | .setFloat byte => [byte]
  | .writeOverlay page offset data => leBytes 1 page ++ leBytes 1 offset ++ countedBytes 2 data (fun b => [b])
  | .readOverlay page offset count => leBytes 1 page ++ leBytes 1 offset ++ leBytes 2 count
  | .setWatch unit fields => leBytes 1 unit ++ fields.bytes
  | .readWatch unit => leBytes 1 unit
  | .setProbe line fields => leBytes 1 line ++ fields.bytes
  | .readProbe line => leBytes 1 line
  | .setHoldOptions fields => fields.bytes
  | .setFloor floor => leBytes 1 floor
  | .halt level => leBytes 1 level
  | .release source mode byte stepKind => leBytes 1 source ++ leBytes 1 mode ++ optByteBytes byte ++ optBytes 1 stepKind
  | .inject address lane kind data => leBytes 3 address ++ leBytes 1 lane ++ leBytes 1 kind ++ optByteBytes data
  | .traceSetup fields => fields.bytes
  | .traceArm mode => leBytes 1 mode
  | .drain count => leBytes 1 count
  | .peek path address count lane => leBytes 1 path ++ leBytes 3 address ++ leBytes 2 count ++ leBytes 1 lane
  | .poke path address data lane => leBytes 1 path ++ leBytes 3 address ++ countedBytes 2 data (fun b => [b]) ++ leBytes 1 lane
  | .loadSlot slot data => leBytes 1 slot ++ countedBytes 2 data (fun b => [b])
  | .sealSlot slot => leBytes 1 slot
  | .freeSlot slot => leBytes 1 slot
  | .slotStatus slot => leBytes 1 slot
  | .setProfile lane fields => leBytes 1 lane ++ fields.bytes
  | .readProfile lane => leBytes 1 lane
  | .clearProfile lane => leBytes 1 lane
  | .submit fields => fields.bytes
  | .cancelJob number => leBytes 1 number
  | .unknownCommand _ payload => payload
  | .identify => []
  | .readNotices => []
  | .resetPart => []
  | .surveyOverlay => []
  | .readRepairMap => []
  | .resetTarget => []
  | .resume => []
  | .rehearse => []
  | .endRehearsal => []
  | .listClaims => []
  | .traceHalt => []
  | .traceClear => []
  | .traceStatus => []
  | .surveyLines => []
  | .readLineMap => []
  | .clearLineMap => []
  | .collect => []
  | .jobStatus => []
  | .abortEngine => []
  | .powerOn _ _ _ => []
  | .prstAsserted => []
  | .prstReleased => []
  | .partReset => []
  | .powerOnSurveyEnd _ => []
  | .overlaySurveyEnd _ => []
  | .lineSurveyEnd _ _ => []
  | .cyclePresented _ _ _ _ => []
  | .lostCycle => []
  | .boardAccessEnd _ => []
  | .boardResetSeen => []
  | .boardResetReleased => []
  | .supplyLost _ => []
  | .supplyReturned _ => []
  | .probeEdge _ _ => []
  | .holdLimitExpiry => []
  | .jobStart => []
  | .readyLineAsserted => []
  | .pollTimeout => []
  | .lateFrame _ => []
  | .overlongFrame => []
  | .startByteNoRoom => []
  | .frameError _ => []
  | .linkRateChange _ => []
  | .startByteReceived _ => []
  | .checkByteReceived _ _ _ => []

/-- The frame in the receive queue that a taking row stands for: a discarded frame for FRAME_ERROR, a whole one for a command (R186). -/
def Instr.frame : Instr → Frame
  | .frameError code => .discarded code
  | c => .whole (Instr.code c) (Instr.payload c)

/-- The bytes of a command frame: start byte, length, code, payload, check byte (R185). -/
def Instr.wire (c : Instr) : List Byte :=
  let body := leBytes 2 (Instr.payload c).length ++ [Instr.code c] ++ Instr.payload c
  [0xA5] ++ body ++ [checkByte body]

end Sys2Proof

namespace Sys2Proof.Machine

/-! ### Bytes to commands -/

/-- Reading fields off a payload; none when it is too short. -/
abbrev Reader := StateT (List Byte) Option

/-- A number on `k` bytes. -/
def Reader.num (k : Nat) : Reader Nat := fun bs =>
  if k ≤ bs.length then some (leValue (bs.take k), bs.drop k) else none

/-- One byte. -/
def Reader.byte : Reader Byte := fun bs =>
  match bs with
  | [] => none
  | b :: rest => some (b, rest)

/-- A yes/no field: 1 or 0; what another byte means is a free value (log 22). -/
def Reader.flag : Reader Bool := do
  let b ← Reader.byte
  return if b = 1 then true else if b = 0 then false else Config.yesNo b

/-- A field on `k` bytes that may be absent (R188). -/
def Reader.opt (k : Nat) : Reader (Option Nat) := do
  let n ← Reader.num k
  return if n = 256 ^ k - 1 then none else some n

/-- A byte that may be absent, on two bytes. R188 gives 0x0100 to 0xFFFE no meaning; there the low byte is kept, the model's choice (log 40). -/
def Reader.optByte : Reader (Option Byte) := do
  let o ← Reader.opt 2
  return o.map (BitVec.ofNat 8)

/-- `n` entries one after the other. -/
def Reader.repeated {α : Type} (entry : Reader α) : Nat → Reader (List α)
  | 0 => pure []
  | n + 1 => do
    let a ← entry
    let rest ← Reader.repeated entry n
    return a :: rest

/-- A list preceded by a count on `k` bytes (R188). -/
def Reader.counted {α : Type} (k : Nat) (entry : Reader α) : Reader (List α) := do
  let n ← Reader.num k
  Reader.repeated entry n

def Reader.pair : Reader Pair := do
  let offset ← Reader.num 4
  let byte ← Reader.byte
  return { offset, byte }

def Reader.sector : Reader SectorRun := do
  let size ← Reader.num 4
  let count ← Reader.num 2
  return { size, count }

def Reader.window : Reader WindowFields := do
  let enabled ← Reader.flag
  let lane ← Reader.num 1
  let firstPage ← Reader.num 2
  let lastPage ← Reader.num 2
  let kind ← Reader.num 1
  let origin ← Reader.opt 2
  let capture ← Reader.flag
  let guardLevel ← Reader.opt 1
  return { enabled, lane, firstPage, lastPage, kind, origin, capture, guardLevel }

/-- The fields of SET WATCH. A qualifier line byte of 0xFF means no qualifier, whatever its level byte: the model's choice (log 40). -/
def Reader.watch : Reader WatchFields := do
  let mode ← Reader.num 1
  let lane ← Reader.num 1
  let firstAddress ← Reader.num 3
  let lastAddress ← Reader.num 3
  let kinds ← Reader.byte
  let dataValue ← Reader.byte
  let dataMask ← Reader.byte
  let line ← Reader.opt 1
  let level ← Reader.num 1
  let countA ← Reader.num 2
  let countB ← Reader.num 2
  let chained ← Reader.flag
  let actions ← Reader.byte
  let holdLevel ← Reader.num 1
  let gateQualifies ← Reader.flag
  return { mode, lane, firstAddress, lastAddress, kinds, dataValue, dataMask, probe := line.map (fun l => (l, level)), countA, countB,
           chained, actions, holdLevel, gateQualifies }

def Reader.probe : Reader ProbeFields := do
  let sense ← Reader.num 1
  let record ← Reader.flag
  let note ← Reader.flag
  let holdLevel ← Reader.opt 1
  let holdFirst ← Reader.flag
  return { sense, record, note, holdLevel, holdFirst }

/-- The select-sense enables are read from one set byte, the model's choice (R102, R188; log 21); its upper four bits are ignored (log 32). -/
def Reader.hold : Reader HoldFields := do
  let waitWired ← Reader.flag
  let fetchWired ← Reader.flag
  let enables ← Reader.byte
  let holdLimit ← Reader.num 2
  let powerUpHold ← Reader.flag
  let threshold ← Reader.num 1
  return { waitWired, fetchWired, selectEnables := enables.setWidth 4, holdLimit, powerUpHold, threshold }

def Reader.trace : Reader TraceFields := do
  let fillMode ← Reader.num 1
  let postCount ← Reader.num 2
  let watermark ← Reader.num 2
  let engineCycles ← Reader.flag
  let edges ← Reader.flag
  let markers ← Reader.flag
  return { fillMode, postCount, watermark, engineCycles, edges, markers }

def Reader.profile : Reader ProfileFields := do
  let cls ← Reader.num 1
  let base ← Reader.num 3
  let size ← Reader.num 4
  let erased ← Reader.byte
  let unlock ← Reader.counted 1 Reader.pair
  let program ← Reader.pair
  let sectorErase ← Reader.counted 1 Reader.pair
  let sectorCommand ← Reader.byte
  let laneErase ← Reader.counted 1 Reader.pair
  let resetPair ← Reader.pair
  let pollMethod ← Reader.num 1
  let pollBit ← Reader.num 1
  let programTimeout ← Reader.num 2
  let sectorTimeout ← Reader.num 2
  let laneTimeout ← Reader.num 2
  let sectors ← Reader.counted 1 Reader.sector
  return { cls, base, size, erased, unlock, program, sectorErase, sectorCommand, laneErase, resetPair, pollMethod, pollBit, programTimeout,
           sectorTimeout, laneTimeout, sectors }

/-- The fields of SUBMIT: all of them for every operation, so that a frame with only those its operation needs is BAD_LENGTH: the model's choice (log 21). -/
def Reader.submit : Reader SubmitFields := do
  let operation ← Reader.num 1
  let lane ← Reader.num 1
  let address ← Reader.num 3
  let length ← Reader.num 4
  let slot ← Reader.num 1
  let slotOffset ← Reader.num 2
  let precheck ← Reader.flag
  let verifyAfter ← Reader.flag
  let policy ← Reader.num 1
  return { operation, lane, address, length, slot, slotOffset, precheck, verifyAfter, policy }

/-- The fields of the command with this code, or none when the code is in no row of the command table (11.5). A PEEK or POKE without its lane byte is
too short on either path, the model's choice (log 21). -/
def Reader.command (code : Byte) : Option (Reader Instr) :=
  match code.toNat with
  | 0x01 => some (pure .identify)
  | 0x02 => some (pure .readNotices)
  | 0x03 => some (do let m ← Reader.num 2; return .setNoticeMask (BitVec.ofNat 16 m))
  | 0x04 => some (do return .setLinkRate (← Reader.num 1))
  | 0x05 => some (pure .resetPart)
  | 0x10 => some (do let i ← Reader.num 1; return .setWindow i (← Reader.window))
  | 0x11 => some (do return .clearWindow (← Reader.num 1))
  | 0x12 => some (do return .readWindow (← Reader.num 1))
  | 0x13 => some (do return .setFloat (← Reader.byte))
  | 0x18 => some (pure .surveyOverlay)
  | 0x19 => some (pure .readRepairMap)
  | 0x1A => some (do let p ← Reader.num 1; let o ← Reader.num 1; return .writeOverlay p o (← Reader.counted 2 Reader.byte))
  | 0x1B => some (do let p ← Reader.num 1; let o ← Reader.num 1; return .readOverlay p o (← Reader.num 2))
  | 0x20 => some (do let u ← Reader.num 1; return .setWatch u (← Reader.watch))
  | 0x21 => some (do return .readWatch (← Reader.num 1))
  | 0x24 => some (do let l ← Reader.num 1; return .setProbe l (← Reader.probe))
  | 0x25 => some (do return .readProbe (← Reader.num 1))
  | 0x30 => some (do return .setHoldOptions (← Reader.hold))
  | 0x31 => some (do return .setFloor (← Reader.num 1))
  | 0x32 => some (do return .halt (← Reader.num 1))
  | 0x33 => some (do
      let source ← Reader.num 1; let mode ← Reader.num 1; let byte ← Reader.optByte
      return .release source mode byte (← Reader.opt 1))
  | 0x34 => some (pure .resetTarget)
  | 0x35 => some (pure .resume)
  | 0x36 => some (pure .rehearse)
  | 0x37 => some (do
      let address ← Reader.num 3; let lane ← Reader.num 1; let kind ← Reader.num 1
      return .inject address lane kind (← Reader.optByte))
  | 0x38 => some (pure .endRehearsal)
  | 0x39 => some (pure .listClaims)
  | 0x40 => some (do return .traceSetup (← Reader.trace))
  | 0x41 => some (do return .traceArm (← Reader.num 1))
  | 0x42 => some (pure .traceHalt)
  | 0x43 => some (pure .traceClear)
  | 0x44 => some (pure .traceStatus)
  | 0x45 => some (do return .drain (← Reader.num 1))
  | 0x50 => some (do
      let path ← Reader.num 1; let address ← Reader.num 3; let count ← Reader.num 2
      return .peek path address count (← Reader.num 1))
  | 0x51 => some (do
      let path ← Reader.num 1; let address ← Reader.num 3; let data ← Reader.counted 2 Reader.byte
      return .poke path address data (← Reader.num 1))
  | 0x52 => some (pure .surveyLines)
  | 0x53 => some (pure .readLineMap)
  | 0x54 => some (pure .clearLineMap)
  | 0x60 => some (do let s ← Reader.num 1; return .loadSlot s (← Reader.counted 2 Reader.byte))
  | 0x61 => some (do return .sealSlot (← Reader.num 1))
  | 0x62 => some (do return .freeSlot (← Reader.num 1))
  | 0x63 => some (do return .slotStatus (← Reader.num 1))
  | 0x68 => some (do let l ← Reader.num 1; return .setProfile l (← Reader.profile))
  | 0x69 => some (do return .readProfile (← Reader.num 1))
  | 0x6A => some (do return .clearProfile (← Reader.num 1))
  | 0x70 => some (do return .submit (← Reader.submit))
  | 0x71 => some (pure .collect)
  | 0x72 => some (pure .jobStatus)
  | 0x73 => some (do return .cancelJob (← Reader.num 1))
  | 0x74 => some (pure .abortEngine)
  | _ => none

/-- What a frame taken from the queue spells (R187, checks 1, 2 and 4). -/
inductive Spelled where
  | command (c : Instr)
  | badLength (code : Byte)
  | incomplete
  deriving DecidableEq, Repr

/-- A discarded frame spells FRAME_ERROR, an unknown code UNKNOWN_COMMAND; a payload that is not exactly the fields and list entries
of its command is BAD_LENGTH (R187). -/
def Frame.spells : Frame → Spelled
  | .receiving _ _ => .incomplete
  | .discarded echo => .command (.frameError echo)
  | .whole code payload =>
    match Reader.command code with
    | none => .command (.unknownCommand code payload)
    | some reader =>
      match reader.run payload with
      | some (c, []) => .command c
      | _ => .badLength code

/-! ### Responses to bytes -/

/-- The 16 bytes of a trace record (11.6). -/
def CycleRecord.bytes (c : CycleRecord) : List Byte :=
  leBytes 3 (c.address % 0x100000 + 0x100000 * laneCode c.lane) ++ [c.data] ++
  leBytes 1 ((match c.window with | none => 128 | some w => w.val) + 16 * c.route.code) ++
  leBytes 1 (setByte [c.held, c.substituted, c.stretched, c.contention, c.abandoned, c.injected] + 64 * c.kind.code) ++
  leBytes 1 (c.matched.toNat + 16 * c.fired.toNat)

def HoldOrigin.bytes (o : HoldOrigin) : List Byte := leBytes 1 o.source.code ++ optBytes 1 o.level

def RecordBody.kindCode : RecordBody → Nat
  | .cycle _ => 0
  | .engine _ _ _ _ => 1
  | .edge _ _ => 2
  | .holdBegin _ => 3
  | .holdEnd _ _ => 4
  | .targetReset _ => 5
  | .power _ => 6

/-- Bytes 9 to 15 of a trace record, by kind; unused bytes are zero (11.6). -/
def RecordBody.bytes : RecordBody → List Byte
  | .cycle c => c.bytes
  | .engine address lane data write =>
      leBytes 3 (address % 0x100000 + 0x100000 * lane.val) ++ [data, 0] ++ leBytes 1 (if write then 128 else 0) ++ [0]
  | .edge line rising => leBytes 1 line.val ++ leBytes 1 (if rising then 0 else 1) ++ [0, 0, 0, 0, 0]
  | .holdBegin origin => origin.bytes ++ [0, 0, 0, 0, 0]
  | .holdEnd origin cause => origin.bytes ++ leBytes 1 cause.code ++ [0, 0, 0, 0]
  | .targetReset origin => leBytes 1 origin.code ++ [0, 0, 0, 0, 0, 0]
  | .power lost => leBytes 1 (if lost then 0 else 1) ++ [0, 0, 0, 0, 0, 0]

def TraceRecord.bytes (r : TraceRecord) : List Byte :=
  leBytes 4 r.seq.toNat ++ leBytes 4 r.stamp.toNat ++ leBytes 1 r.body.kindCode ++ r.body.bytes

/-- The 28 bytes of a completion record (11.6). -/
def Completion.bytes (j : Job) (c : Completion) : List Byte :=
  leBytes 1 j.number ++ leBytes 1 j.op.code ++ leBytes 1 j.lane.val ++ leBytes 1 c.outcome.code ++ optBytes 4 c.reached ++
  [c.expected.getD 0, c.read.getD 0] ++ leBytes 1 (setByte [c.expected.isSome, c.read.isSome, c.crc.isSome]) ++ [0] ++
  leBytes 4 (c.counts.getD (0, 0)).1 ++ leBytes 4 (c.counts.getD (0, 0)).2 ++ leBytes 4 (c.crc.getD 0).toNat ++ leBytes 4 c.elapsed.toNat

/-- A claim is live when its level is below the floor; a STEP claim is always live (R96). -/
def Claim.live (floor : Nat) (c : Claim) : Bool := c.level.all (fun l => decide (l < floor))

/-- The 12 bytes of a claim entry (11.6). -/
def Claim.bytes (floor : Nat) (c : Claim) : List Byte :=
  leBytes 1 c.source.code ++ optBytes 1 c.level ++ leBytes 1 c.repeats ++
  leBytes 1 (setByte [c.live floor, c.step.any StepPart.satisfied, c.step.any (fun p => decide (p.kind = .fetch))]) ++
  leBytes 4 c.stamp.toNat ++ optBytes 3 c.address ++ optBytes 1 (c.window.map Fin.val)

/-- What R108 adds to a response; the sources of claims raised are a counted list of source codes in the order raised: the model's choice (log 21). The sequence
number takes 4 bytes, absent as 0xFFFFFFFF, which is a number that can come too (R119): R188 names no width above 4 to tell them apart, so that this, too, is the
model's choice (log 21). -/
def Delivery.bytes (d : Delivery) : List Byte :=
  [flagByte d.abandoned] ++ optByteBytes d.byte ++ leBytes 1 d.matched.toNat ++ leBytes 1 d.fired.toNat ++
  countedBytes 1 d.raised (fun s => leBytes 1 s.code) ++ optBytes 4 (d.seq.map BitVec.toNat)

def optDelivery (d : Option Delivery) : List Byte := (d.map Delivery.bytes).getD []

def TraceConfig.bytes (t : TraceConfig) : List Byte :=
  leBytes 1 t.fillMode.code ++ leBytes 2 t.postCount ++ leBytes 2 t.watermark ++ [flagByte t.engineCycles, flagByte t.edges, flagByte t.markers]

def WatchUnit.bytes (u : WatchUnit) : List Byte :=
  leBytes 1 u.mode.code ++ leBytes 1 u.lane.code ++ leBytes 3 u.firstAddress ++ leBytes 3 u.lastAddress ++ leBytes 1 u.kinds.toNat ++
  [u.dataValue, u.dataMask] ++ optBytes 1 (u.probe.map (fun p => p.1.val)) ++ optBytes 1 (u.probe.map (fun p => if p.2 then 0 else 1)) ++
  leBytes 2 u.countA ++ optBytes 4 u.countB ++ [flagByte u.chained] ++
  leBytes 1 (setByte [u.actions.hold.isSome, u.actions.note, u.actions.traceStart, u.actions.traceStop]) ++ optBytes 1 u.actions.hold ++
  optBytes 1 (u.gateQualifies.map yesNoCode) ++ leBytes 1 u.state.code ++ leBytes 2 u.remaining

def Profile.bytes (p : Profile) : List Byte :=
  let f := p.flash
  let pairs (get : FlashPart → List Pair) : List Byte := (f.map (fun g => countedBytes 1 (get g) pairBytes)).getD [0xFF]
  let pair (get : FlashPart → Pair) : List Byte := (f.map (fun g => pairBytes (get g))).getD [0xFF, 0xFF, 0xFF, 0xFF, 0xFF]
  leBytes 1 p.cls.code ++ leBytes 3 p.base ++ leBytes 4 p.size ++ [p.erased] ++ pairs FlashPart.unlock ++ pair FlashPart.program ++
  pairs FlashPart.sectorErase ++ optByteBytes (f.map FlashPart.sectorCommand) ++ pairs FlashPart.laneErase ++ pair FlashPart.resetPair ++
  optBytes 1 (f.map (fun g => g.pollMethod.code)) ++ optBytes 1 (f.map FlashPart.pollBit) ++ optBytes 4 (f.map FlashPart.programTimeout) ++
  optBytes 4 (f.map FlashPart.sectorTimeout) ++ optBytes 4 (f.map FlashPart.laneTimeout) ++
  (f.map (fun g => countedBytes 1 g.sectors sectorBytes)).getD [0xFF]

/-- The slot and slot offset an operation names (R157). -/
def Operation.slot : Operation → Option (Fin 4 × Nat)
  | .program slot offset _ _ => some (slot, offset)
  | .verify slot offset _ => some (slot, offset)
  | .eraseSector => none
  | .eraseLane => none
  | .blankCheck => none
  | .sum => none

def Operation.policy : Operation → Option Policy
  | .verify _ _ policy => some policy
  | .program _ _ _ _ => none
  | .eraseSector => none
  | .eraseLane => none
  | .blankCheck => none
  | .sum => none

/-- The options of a PROGRAM: precheck and verify-after (R165). -/
def Operation.options : Operation → Option (Bool × Bool)
  | .program _ _ precheck verifyAfter => some (precheck, verifyAfter)
  | .verify _ _ _ => none
  | .eraseSector => none
  | .eraseLane => none
  | .blankCheck => none
  | .sum => none

/-- An entry of JOB STATUS (R179), the completion for an ENDED entry. The current address and the elapsed time of an entry that is not ACTIVE are sent as absent,
the elapsed time as all-ones on 4 bytes: the model's choice (log 21). -/
def Job.bytes (now : Stamp) (j : Job) : List Byte :=
  leBytes 1 j.number ++ leBytes 1 j.op.code ++ leBytes 1 j.lane.val ++ leBytes 3 j.address ++ leBytes 4 j.length ++
  optBytes 1 (j.op.slot.map (fun p => p.1.val)) ++ optBytes 2 (j.op.slot.map Prod.snd) ++ optBytes 1 (j.op.policy.map Policy.code) ++
  optBytes 1 (j.op.options.map (fun p => yesNoCode p.1)) ++ optBytes 1 (j.op.options.map (fun p => yesNoCode p.2)) ++
  leBytes 1 j.state.code ++
  (match j.state with
   | .active a => leBytes 3 a.current ++ leBytes 4 (now - a.start).toNat
   | .ended c => optBytes 3 none ++ optBytes 4 none ++ Completion.bytes j c
   | .queued => optBytes 3 none ++ optBytes 4 none
   | .waiting => optBytes 3 none ++ optBytes 4 none)

def LineEntry.bytes (e : LineEntry) : List Byte :=
  leBytes 1 e.code ++ optBytes 1 (match e with | .bridged p => some p.val | _ => none)

/-- The payload of a response (R188). The model's choices (log 21): DEFAULT as the governing window of INJECT's response is sent as an absent window, 0xFF;
the sources of claims raised are a counted list of source codes in the order raised; the CRC of SLOT STATUS takes 4 bytes, all-ones when absent; READ PROFILE
sends no field of an absent profile between the presence byte and the reset-owed flag; a slot's fill length, 0 to 4096, takes 2 bytes in the answers of LOAD SLOT,
SEAL SLOT and SLOT STATUS, as a count of bytes does, though R188 also says that a length takes 4. -/
def Answer.payload : Answer → List Byte
  | .empty => []
  | .identify capacity survey =>
      leBytes 2 0x0420 ++ [1] ++ leBytes 2 capacity ++ [16, 4, 4, 4, 8] ++ leBytes 2 4096 ++ [flagByte survey]
  | .notices pending mask => leBytes 2 pending.toNat ++ leBytes 2 mask.toNat
  | .window w =>
      [flagByte w.enabled] ++ leBytes 1 w.lane.code ++ leBytes 2 w.firstPage ++ leBytes 2 w.lastPage ++ leBytes 1 w.kind.code ++
      [flagByte w.capture] ++ optBytes 2 w.origin ++ optBytes 1 w.guardLevel
  | .repairMap listed capacity survey => countedBytes 2 listed (leBytes 2) ++ leBytes 2 capacity ++ [flagByte survey]
  | .bytes data => countedBytes 2 data (fun b => [b])
  | .watch u => u.bytes
  | .probe p now =>
      leBytes 1 p.sense.code ++ [flagByte p.record, flagByte p.note] ++ optBytes 1 p.holdLevel ++ [flagByte p.holdFirst] ++
      leBytes 1 (if p.level then 0 else 1) ++ leBytes 4 p.riseStamp.toNat ++ [flagByte p.riseKept] ++ leBytes 4 p.fallStamp.toNat ++
      [flagByte p.fallKept] ++ leBytes 4 now.toNat
  | .hold h => leBytes 1 h.code
  | .release h cs fl delivery => leBytes 1 h.code ++ countedBytes 1 cs (Claim.bytes fl) ++ optDelivery delivery
  | .floor delivery => optDelivery delivery
  | .inject win route matched fired raised held abandoned h delivery =>
      optBytes 1 (win.map Fin.val) ++ leBytes 1 route.code ++ leBytes 1 matched.toNat ++ leBytes 1 fired.toNat ++
      countedBytes 1 raised (fun s => leBytes 1 s.code) ++ [flagByte held, flagByte abandoned] ++ leBytes 1 h.code ++ optDelivery delivery
  | .claims cs fl h rehearsal =>
      countedBytes 1 cs (Claim.bytes fl) ++ leBytes 1 fl ++ leBytes 1 h.code ++ [flagByte rehearsal]
  | .traceStatus capture held oldest next tail setup =>
      leBytes 1 capture.code ++ leBytes 2 held ++ leBytes 4 oldest.toNat ++ leBytes 4 next.toNat ++ leBytes 2 tail ++ setup.bytes
  | .records l => countedBytes 1 l TraceRecord.bytes
  | .peeked data count => countedBytes 2 data (fun b => [b]) ++ leBytes 2 count
  | .poked count => leBytes 2 count
  | .lineMap entries survey => entries.flatMap LineEntry.bytes ++ [flagByte survey]
  | .fillLength n => leBytes 2 n
  | .sealed crc n => leBytes 4 crc.toNat ++ leBytes 2 n
  | .slot s =>
      leBytes 1 s.state.code ++ leBytes 2 s.contents.length ++
      optBytes 4 (match s.state with | .sealed crc => some crc.toNat | _ => none) ++ leBytes 1 s.binds
  | .profile p owed => [flagByte p.isSome] ++ (p.map Profile.bytes).getD [] ++ [flagByte owed]
  | .submitted number state => leBytes 1 number ++ leBytes 1 state.code
  | .completion job c => Completion.bytes job c
  | .jobs l now => countedBytes 1 l (Job.bytes now)
  | .ended count => leBytes 1 count

/-- The bytes of a response frame: start byte 0x5A, length, status, echoed code, payload, check byte (R187). -/
def Response.wire (r : Response) : List Byte :=
  let payload := if r.status = .ok then r.answer.payload else []
  let body := leBytes 2 payload.length ++ leBytes 1 r.status.code ++ [r.code] ++ payload
  [0x5A] ++ body ++ [checkByte body]

end Sys2Proof.Machine
end

