-- ==== Sys2Proof/Machine/Ops.lean ====
section
/-! DEFINITION. The shared operations on memory and numbers: overlay cells in their canonical form, the logical map, the CRC-32, elapsed times,
free values. The operations of each block are in the file of that block (TraceOps, ClaimOps, WatchOps, BusOps, CycleOps, EngineOps, ...). -/

namespace Sys2Proof.Machine

/-! ### Memory: a list of cells in one canonical form -/

/-- The canonical form: keys strictly rising, no cell equal to what an unlisted address reads as (R46; log 12). -/
abbrev Mem.wf (cells : List Host.Cell) : Prop :=
  cells.Pairwise (fun p q => p.1 < q.1) ∧ ∀ p ∈ cells, p.2 ≠ Config.blankByte

/-- Read one byte; an unlisted address reads as the blank byte (R49, R50; log 12). -/
def Mem.read : List Host.Cell → Nat → Byte
  | [], _ => Config.blankByte
  | (k, v) :: rest, a => if k = a then v else Mem.read rest a

/-- Write one byte, keeping the canonical form: the blank byte removes the cell. -/
def Mem.write : List Host.Cell → Nat → Byte → List Host.Cell
  | [], a, b => if b = Config.blankByte then [] else [(a, b)]
  | (k, v) :: rest, a, b =>
    if a < k then (if b = Config.blankByte then (k, v) :: rest else (a, b) :: (k, v) :: rest)
    else if a = k then (if b = Config.blankByte then rest else (a, b) :: rest)
    else (k, v) :: Mem.write rest a b

/-- Fill the pages 0 to `last` with the blank byte (R49, R54). -/
def Mem.fillTo (last : Nat) (cells : List Host.Cell) : List Host.Cell :=
  cells.filter (fun c => decide (last < c.1 / Config.pageSize))

/-! ### The logical map -/

/-- The physical pages not on the repair list, in ascending order (R47). -/
def goodPages (repairList : List Nat) : List Nat :=
  (List.range Config.physicalPages).filter (fun p => !repairList.contains p)

/-- The capacity: the smaller of 256 and the number of physical pages not on the repair list (R47). -/
def Overlay.capacity (o : Overlay) : Nat := min Config.maxCapacity (goodPages o.repairList).length

/-- Logical page k, for k below the capacity, is the k-th physical page not on the repair list (R47). -/
def Overlay.physicalPage (o : Overlay) (k : Nat) : Option Nat :=
  if k < o.capacity then (goodPages o.repairList)[k]? else none

/-- Whether a logical page has a physical page (R48). -/
def Overlay.maps (o : Overlay) (l : Location) : Bool := decide (l.page < o.capacity)

/-- The cell of a location: the physical page at the moment of the access, at the same offset (R48). -/
def Overlay.cellOf (o : Overlay) (l : Location) : Option Nat :=
  (o.physicalPage l.page).map (fun p => p * Config.pageSize + l.offset)

/-- Read one byte through either port (R46, R48). A location without a cell is stopped before (log 13). -/
def Overlay.readByte (o : Overlay) (l : Location) : Byte :=
  match o.cellOf l with
  | some a => Mem.read o.cells a
  | none => Config.blankByte

/-- Write one byte through either port (R46, R48). -/
def Overlay.writeByte (o : Overlay) (l : Location) (b : Byte) : Overlay :=
  match o.cellOf l with
  | some a => { o with cells := Mem.write o.cells a b }
  | none => o

/-- The byte a survey writes to an offset: 0x55 to even and 0xAA to odd ones in pass 1, the other way round in pass 2 (R49). -/
def surveyPattern (second : Bool) (offset : Nat) : Byte := if decide (offset % 2 = 0) != second then 0x55#8 else 0xAA#8

/-- A byte read back differs from the byte written to its offset in its pass (R49). -/
def readBackDiffers (r : ReadBack) : Bool := decide (r.offset < Config.pageSize) && decide (r.byte ≠ surveyPattern r.second r.offset)

/-- A page fails when any byte read back in pass 1 or pass 2 differs from the byte written to it in that pass; a byte that is not listed came back as it
was written (R49; log 9). -/
def pageFails (readBacks : List ReadBack) (page : Nat) : Bool := readBacks.any (fun r => decide (r.page = page) && readBackDiffers r)

/-- The list a survey builds: it visits the pages in ascending order and adds each that fails at the list's end (R49). -/
def surveyList (readBacks : List ReadBack) : List Nat := (List.range Config.physicalPages).filter (pageFails readBacks)

/-! ### CRC-32 -/

/-- One bit of the reflected CRC-32: shift constant 0xEDB88320 (00_scope, "CRC-32"). -/
def crcBit (r : Crc) : Crc := if r.getLsbD 0 then (r >>> 1) ^^^ 0xEDB88320#32 else r >>> 1

/-- One byte, least significant bit first. -/
def crcByte (r : Crc) (b : Byte) : Crc :=
  crcBit (crcBit (crcBit (crcBit (crcBit (crcBit (crcBit (crcBit (r ^^^ b.setWidth 32))))))))

/-- The register starts at 0xFFFFFFFF. -/
def crcStart : Crc := 0xFFFFFFFF#32

/-- The final value is complemented. -/
def crcFinal (r : Crc) : Crc := ~~~r

/-- The CRC-32 of bytes in order (00_scope, "CRC-32"; R154). -/
def crc32 (bytes : List Byte) : Crc := crcFinal (bytes.foldl crcByte crcStart)

/-! ### Time and free values -/

/-- Elapsed time since a stamp, modulo 2^32, as a number of microseconds (R84). -/
def State.elapsed (s : State) (since : Stamp) : Nat := (s.timeBase - since).toNat

/-- Time passes until at least `limit` microseconds have gone by since a stamp: what a row that stands for a limit being reached says of the
Time Base (log 4). -/
def State.passUntil (s : State) (since : Stamp) (limit : Nat) : State :=
  if s.elapsed since < limit then { s with timeBase := since + BitVec.ofNat 32 limit } else s

/-- Use up one free value (log 27). -/
def State.useFree (s : State) : State := { s with freeIndex := s.freeIndex + 1 }

end Sys2Proof.Machine
end

