-- ==== Sys2Proof/Machine/Flags.lean ====
section
/-! DEFINITION. The notice flags and ATTN (11.3), and the output pins that follow from the state (1.5 to 1.7, R192). -/

namespace Sys2Proof.Machine

/-- The 15 notices, in the order of their bits (11.3). -/
inductive Notice where
  | restart | claim | hold | holdMissed | holdExpired | note | guard | probe | contention | targetReset | power | traceMark
  | traceStopped | jobEnded | surveyDone
  deriving DecidableEq, Repr

/-- The bit of a notice (11.3). -/
def Notice.bit : Notice → Nat
  | .restart => 0
  | .claim => 1
  | .hold => 2
  | .holdMissed => 3
  | .holdExpired => 4
  | .note => 5
  | .guard => 6
  | .probe => 7
  | .contention => 8
  | .targetReset => 9
  | .power => 10
  | .traceMark => 11
  | .traceStopped => 12
  | .jobEnded => 13
  | .surveyDone => 14

/-- The flag of a notice in the pending set. -/
def Notice.flag (n : Notice) : BitVec 15 := 1#15 <<< n.bit

/-- A cause occurs: its flag becomes pending, and stays so (R189). -/
def State.latch (n : Notice) (s : State) : State :=
  { s with link := { s.link with pending := s.link.pending ||| n.flag } }

/-- Whether a notice is pending. -/
def State.noticed (n : Notice) (s : State) : Bool := s.link.pending.getLsbD n.bit

/-- ATTN: some flag is both pending and enabled; deasserted while the part is held in reset (R190, R192). -/
def State.attn (s : State) : Bool := !s.port.prst && decide (s.link.pending &&& s.link.mask ≠ 0)

/-- The target reset output (R19, R192). It does not drive the net while the supply is absent. -/
def State.targetReset (s : State) : Bool :=
  s.port.powered &&
  (decide (s.run.hold = .resetHeld) || s.run.rehearsal || decide (s.overlay.survey = .powerOn) ||
   (s.port.prst && decide (s.bus.owner = .free)))

/-- The board's reset net is asserted: by the board, or by the 420 (R19, R20). -/
def State.netAsserted (s : State) : Bool := s.port.boardReset || s.targetReset

/-- Whether the target-face and board-face pins are in high impedance: on supply lost once the access in progress has ended (R22), and while
the part is held in reset (R192, which excepts the reset output and WAIT). -/
def State.highImpedance (s : State) : Bool := (!s.port.powered || s.port.prst) && decide (s.bus.owner = .free)

/-- The WAIT output: asserted for a held target cycle and for a stretched one (R8, R16); deasserted while the part is held in reset (R192).
A cycle that has WAIT asserted when wait wired becomes no, stretched or held before and granted the board at once, keeps it to its completion: of two readings of R5
the model's choice (log 43). -/
def State.wait (s : State) : Bool :=
  !s.highImpedance && s.port.inFlight.any Cycle.waiting

/-- The reset net is seen released: sensing is enabled from then on (R20). -/
def State.senseNet (s : State) : State :=
  if s.port.powered && !s.netAsserted then { s with port := { s.port with resetSense := true } } else s

end Sys2Proof.Machine
end

