-- ==== Sys2Proof/Machine/LinkOps.lean ====
section
/-! DEFINITION. How the link takes a command and answers it (R186, R187). -/

namespace Sys2Proof.Machine

/-- Hand a response to the transmitter: it is on the line, and keeps the link until its last byte has left it (R186; log 7). -/
def State.respond (status : Status) (code : Byte) (a : Answer) (s : State) : State :=
  { s with link := { s.link with sent := some { status := status, code := code, answer := a }, activity := .sending } }

/-- Answer OK. -/
def State.accept (c : Instr) (a : Answer) (s : State) : Result := .next (s.respond .ok c.code a)

/-- Refuse with a status; a response with a status other than OK has an empty payload (R187). -/
def State.reject (c : Instr) (status : Status) (s : State) : Result := .next (s.respond status c.code .empty)

/-- The link is occupied with a command whose action takes time. -/
def State.occupy (a : Activity) (s : State) : State := { s with link := { s.link with activity := a } }

/-- Whether the link is kept by more than a response that needs only to leave the line: a command in progress, or a response whose end is a row of its own
(R184, R186, R192; log 7). -/
def Activity.busy : Activity → Bool
  | .idle => false
  | .sending => false
  | .transfer _ => true
  | .inject => true
  | .release => true
  | .floor => true
  | .abort => true
  | .rateChange _ => true
  | .reset => true

/-- The last byte of the response on the line, if there is one, has left it: the link is free for the next frame (R186; log 7). -/
def State.lineFree (s : State) : State := { s with link := { s.link with activity := .idle } }

/-- The frame at the front of the receive queue leaves it (R186). -/
def State.dequeue (rest : List Frame) (s : State) : State := { s with link := { s.link with queue := rest } }

/-- Whether a frame is under reception; only the newest frame of the queue can be (R186). -/
def Link.receiving (l : Link) : Bool :=
  match l.queue.getLast? with
  | some (.receiving _ _) => true
  | _ => false

/-- A frame received whole in this step waits in the queue, if it has room and no other frame is under reception; else it is ignored (R186; log 6). -/
def State.queueFrame (f : Frame) (s : State) : State :=
  if s.link.queue.length < Config.frameLimit ∧ s.link.receiving = false then
    { s with link := { s.link with queue := s.link.queue ++ [f] } }
  else s

/-- The fields of an INJECT that R116's first check passes: lane and kind, a WRITE with its byte. A byte carried by a READ or FETCH is not judged: the model's
choice (log 41). -/
def injectFields (address lane kind : Nat) (data : Option Byte) : Option (Lane × Kind) :=
  match cycleLaneOfCode lane, Kind.ofCode kind with
  | some l, some k => if address < Config.addressLimit ∧ (k = .write → data.isSome = true) then some (l, k) else none
  | _, _ => none

/-- An INJECT sent in rehearsal while a cycle that is not held is still in flight (a target cycle that had its grant when the target was reset, or an
injected cycle let go by no command): the cycle in flight is taken, so the frame stays in the queue until it is empty (R1, R116; log 17). One that a check of R116 refuses is
refused at once. -/
def Instr.mustWait (c : Instr) (s : State) : Bool :=
  match c with
  | .inject address lane kind data =>
    (injectFields address lane kind data).isSome && (s.run.rehearsal && decide (s.run.hold ≠ .holding) && s.port.inFlight.isSome)
  | _ => false

/-- The commands taken during the power-on survey (R50, R189), and the two answers judged before that check (R187, checks 1 and 2). -/
def Instr.takenInSurvey : Instr → Bool
  | .identify => true
  | .readNotices => true
  | .frameError _ => true
  | .unknownCommand _ _ => true
  | _ => false

/-- A command taken now comes from the receive queue, where its frame arrived in steps of its own; else the row stands for the whole of it (log 6, log 38). -/
def State.framed (s : State) : Bool := !s.link.queue.isEmpty

/-- R187, check 3: WRONG_STATE during the power-on survey, then the command's own action. -/
def State.judged (c : Instr) (act : State → Result) (s : State) : Result :=
  if s.overlay.survey = .powerOn ∧ Instr.takenInSurvey c = false then s.reject c .wrongState else act s

/-- The link takes a command's frame and acts on it (R186; log 6). The row is the taking of the frame at the front of the receive queue when
that frame spells the command. With an empty queue it is a frame that was received and is taken. With other frames ahead, or the link kept by a command, it is a
frame received whole that waits. A frame is taken only once the last byte of the response before it has left the line, so a row that is the taking of a frame says
that it has (R186; log 7). While the part is held in reset every byte is ignored (R192). -/
def State.onTaken (c : Instr) (s : State) (act : State → Result) : Result :=
  if s.port.prst then .next s
  else if s.link.activity.busy = true ∨ Instr.mustWait c s = true then .next (s.queueFrame (Instr.frame c))
  else
    match s.link.queue with
    | [] => s.lineFree.judged c act
    | f :: rest =>
      if f.spells = .command c then (s.lineFree.dequeue rest).judged c act
      else .next (s.queueFrame (Instr.frame c))

end Sys2Proof.Machine
end

