-- ==== Sys2Proof/Machine/TraceOps.lean ====
section
/-! DEFINITION. The Trace Store's side of a record handed over (R120, R124 to R131) and of the watch units' actions (R122, R123). -/

namespace Sys2Proof.Machine

/-- Records are considered only in RECORDING and TAILING (R120). -/
def TraceStore.capturing (t : TraceStore) : Bool := decide (t.capture = .recording ∨ t.capture = .tailing)

/-- Qualification (R128): a CYCLE record by what the Target Port sends with it, the other kinds by the setup alone. -/
def TraceStore.qualifies (t : TraceStore) (sent : Bool) : RecordBody → Bool
  | .cycle _ => sent
  | .engine _ _ _ _ => t.setup.engineCycles
  | .edge _ _ => t.setup.edges
  | .holdBegin _ => t.setup.markers
  | .holdEnd _ _ => t.setup.markers
  | .targetReset _ => t.setup.markers
  | .power _ => t.setup.markers

/-- The store holds 4096 records. -/
def TraceStore.full (t : TraceStore) : Bool := decide (Config.traceLimit ≤ t.records.length)

/-- Whether a record handed over would be appended (R120, R128, R130). -/
def TraceStore.appends (t : TraceStore) (sent : Bool) (b : RecordBody) : Bool :=
  t.capturing && t.qualifies sent b && !(t.full && decide (t.setup.fillMode = .fillStop))

/-- A change of the capture state into STOPPED latches TRACE_STOPPED (R126). -/
def State.stopCapture (s : State) : State :=
  ({ s with trace := { s.trace with capture := .stopped } } : State).latch .traceStopped

/-- The records after an append: in RING mode a full store loses its oldest record (R129). -/
def TraceStore.push (t : TraceStore) (r : TraceRecord) : List TraceRecord :=
  (if t.full then t.records.drop 1 else t.records) ++ [r]

/-- The held count reaching the watermark with the mark latch clear latches TRACE_MARK and sets the latch (R131). -/
def State.markTrace (s : State) : State :=
  if s.trace.setup.watermark ≤ s.trace.records.length ∧ s.trace.markLatch = false then
    ({ s with trace := { s.trace with markLatch := true } } : State).latch .traceMark
  else s

/-- In TAILING an appended record lowers the tail remaining; at 0 the capture is STOPPED (R124). -/
def State.countTail (s : State) : State :=
  if s.trace.capture = .tailing then
    let s' : State := { s with trace := { s.trace with tail := s.trace.tail - 1 } }
    if s'.trace.tail = 0 then s'.stopCapture else s'
  else s

/-- Append a record: next sequence number, stamp, place at the newest end (R127). -/
def State.appendRecord (b : RecordBody) (stamp : Stamp) (s : State) : State :=
  let r : TraceRecord := { seq := s.trace.next, stamp := stamp, body := b }
  ({ s with trace := { s.trace with records := s.trace.push r, next := s.trace.next + 1 } } : State).markTrace.countTail

/-- A record is handed to the Trace Store (R120): discarded unless capture is on and it qualifies; appended; or, with the store full in
FILL_STOP mode, not appended and the capture STOPPED (R130). `sent` is what the Target Port sends with a CYCLE record. -/
def State.offer (b : RecordBody) (sent : Bool) (stamp : Stamp) (s : State) : State :=
  if s.trace.appends sent b then s.appendRecord b stamp
  else if s.trace.capturing && s.trace.qualifies sent b then s.stopCapture
  else s

/-- A marker is stamped when it is appended (R127). -/
def State.mark (b : RecordBody) (s : State) : State := s.offer b true s.timeBase

/-- TRACE_START: WAITING becomes RECORDING (R122). -/
def State.traceStart (s : State) : State :=
  if s.trace.capture = .waiting then { s with trace := { s.trace with capture := .recording } } else s

/-- TRACE_STOP: RECORDING becomes TAILING with the post count, or STOPPED when the post count is 0 (R123). -/
def State.traceStop (s : State) : State :=
  if s.trace.capture = .recording then
    if s.trace.setup.postCount = 0 then s.stopCapture
    else { s with trace := { s.trace with capture := .tailing, tail := s.trace.setup.postCount } }
  else s

/-- The oldest sequence number: that of the oldest record, or the next number when the store is empty (R119). -/
def TraceStore.oldest (t : TraceStore) : BitVec 32 :=
  match t.records with
  | [] => t.next
  | r :: _ => r.seq

end Sys2Proof.Machine
end

