-- ==== Sys2Proof/Machine/ClaimOps.lean ====
section
/-! DEFINITION. Run control's shared operations: the claim list, live and holding claims, the hold state's reaction to a raise, the begin and
end of a hold, and the taking up of standing claims (6.1, 6.2, 6.4, 6.6). -/

namespace Sys2Proof.Machine

/-! ### Jobs that run control asks about -/

/-- The write class is the erases and PROGRAM (R165). -/
def Operation.writeClass : Operation → Bool
  | .eraseSector => true
  | .eraseLane => true
  | .program _ _ _ _ => true
  | .verify _ _ _ => false
  | .blankCheck => false
  | .sum => false

/-- The work of an ACTIVE entry. -/
def Job.active? (j : Job) : Option Active :=
  match j.state with
  | .active a => some a
  | .queued => none
  | .waiting => none
  | .ended _ => none

/-- Whether the entry is not ENDED. -/
def Job.unfinished (j : Job) : Bool :=
  match j.state with
  | .ended _ => false
  | .queued => true
  | .waiting => true
  | .active _ => true

/-- The ACTIVE entry (R165: at most one). -/
def State.activeJob (s : State) : Option Job := s.engine.jobs.find? (fun j => j.active?.isSome)

/-- Whether a write-class job is ACTIVE (R104). -/
def State.writeActive (s : State) : Bool := s.activeJob.any (fun j => j.op.writeClass)

/-! ### Claims -/

/-- A claim that can keep a cycle held: a live claim with a level, or a satisfied STEP (R96). -/
def Claim.holding (floor : Nat) (c : Claim) : Bool :=
  match c.step with
  | some p => p.satisfied
  | none => c.live floor

/-- A STEP claim not yet satisfied (R96). -/
def Claim.waitingStep (c : Claim) : Bool := c.step.any (fun p => !p.satisfied)

/-- Step kind ANY admits every kind and FETCH admits FETCH alone (R99). -/
def StepKind.admits : StepKind → Kind → Bool
  | .any, _ => true
  | .fetch, k => decide (k = .fetch)

/-- The order of urgency: satisfied STEP, then level, then source code; a waiting step last (R97). -/
def Claim.before (a b : Claim) : Bool :=
  let rank (c : Claim) : Nat := match c.step with | some p => if p.satisfied then 0 else 2 | none => 1
  decide (rank a < rank b) ||
  (decide (rank a = rank b) &&
    (decide (a.level.getD 0 < b.level.getD 0) ||
      (decide (a.level.getD 0 = b.level.getD 0) && decide (a.source.code ≤ b.source.code))))

/-- Insert a claim in the order of urgency. -/
def insertByUrgency (c : Claim) : List Claim → List Claim
  | [] => [c]
  | d :: rest => if c.before d then c :: d :: rest else d :: insertByUrgency c rest

/-- The claims in the order of R97. -/
def byUrgency (l : List Claim) : List Claim := l.foldr insertByUrgency []

/-- Put a claim in the list, in place of one of the same source; the list is kept in the order of the source codes. -/
def putClaim (c : Claim) : List Claim → List Claim
  | [] => [c]
  | d :: rest =>
    if c.source.code < d.source.code then c :: d :: rest
    else if c.source.code = d.source.code then c :: rest
    else d :: putClaim c rest

/-- The claim of a source. -/
def RunControl.claimOf (r : RunControl) (source : Source) : Option Claim := r.claims.find? (fun c => decide (c.source = source))

/-- Some claim is live (R96). -/
def RunControl.anyLive (r : RunControl) : Bool := r.claims.any (Claim.live r.floor)

/-- Some claim is a holding claim (R96). -/
def RunControl.anyHolding (r : RunControl) : Bool := r.claims.any (Claim.holding r.floor)

/-- A waiting step stands (R96). -/
def RunControl.stepWaits (r : RunControl) : Bool := r.claims.any Claim.waitingStep

/-- A waiting step stands whose step kind admits a cycle of this kind (R99). -/
def RunControl.stepAdmits (r : RunControl) (k : Kind) : Bool :=
  r.claims.any (fun c => c.step.any (fun p => !p.satisfied && p.kind.admits k))

/-- Holding is possible when the rehearsal flag is set, or when wait is wired and the flag is clear (R98). -/
def State.holdingPossible (s : State) : Bool := s.run.rehearsal || s.port.waitWired

/-! ### Raising a claim -/

/-- What a source supplies when it raises its claim (R95). -/
structure Raise where
  source : Source
  level : Option Nat
  address : Option Nat
  window : Option (Fin 16)
  step : Option StepKind
  deriving DecidableEq, Repr

/-- The claim a raise enters when its source has none (R95). -/
def Raise.fresh (r : Raise) (now : Stamp) : Claim :=
  { source := r.source, level := r.level, stamp := now, address := r.address, window := r.window, repeats := 1,
    step := r.step.map (fun k => { kind := k, satisfied := false }) }

/-- The claim a raise puts in the place of a standing one: the raise stamp is kept, the repeat count goes up, stopping at 255 (R95). -/
def Raise.again (r : Raise) (c : Claim) : Claim :=
  { r.fresh c.stamp with repeats := min 255 (c.repeats + 1) }

/-- The claims after a raise. A repeat that would leave no holding claim while HOLDING and a write-class job is ACTIVE keeps its standing level;
only its repeat count and origin address change (R104). -/
def State.claimsAfter (r : Raise) (s : State) : List Claim :=
  match s.run.claimOf r.source with
  | none => putClaim (r.fresh s.timeBase) s.run.claims
  | some c =>
    let claims := putClaim (r.again c) s.run.claims
    if s.run.hold = .holding ∧ s.writeActive = true ∧ claims.any (Claim.holding s.run.floor) = false then
      putClaim { c with repeats := min 255 (c.repeats + 1), address := r.address } s.run.claims
    else claims

/-- A source enters or repeats its claim; every raise latches CLAIM (R95). -/
def State.enterClaim (r : Raise) (s : State) : State :=
  ({ s with run := { s.run with claims := s.claimsAfter r } } : State).latch .claim

/-- The hold state becomes this one. -/
def State.setHold (h : HoldState) (s : State) : State := { s with run := { s.run with hold := h } }

/-- Arm the hold, or miss it when holding is not possible (R98). -/
def State.armOrMiss (s : State) : State :=
  if s.holdingPossible then s.setHold .holdArmed else s.latch .holdMissed

/-- Run control acts on a claim that no arriving cycle raised, the table of R98: RUNNING arms or misses a live claim; a repeat that leaves no
live claim in HOLD_ARMED ends the arming (R104). A hold that such a repeat ends is in `State.raiseClaim`. -/
def State.actOnClaim (source : Source) (s : State) : State :=
  match s.run.hold with
  | .running => if (s.run.claimOf source).any (Claim.live s.run.floor) then s.armOrMiss else s
  | .holdArmed => if s.run.anyLive then s else s.setHold .running
  | .holding => s
  | .resetHeld => s
  | .unpowered => s

/-! ### Begin and end of a hold -/

/-- The most urgent holding claim gives the hold origin, its level absent for a satisfied STEP (R97, R100). -/
def RunControl.origin? (r : RunControl) : Option HoldOrigin :=
  (byUrgency (r.claims.filter (Claim.holding r.floor))).head?.map (fun c => { source := c.source, level := c.level })

/-- A waiting step that admits the held cycle becomes satisfied, with that cycle's address as origin (R99). -/
def RunControl.satisfySteps (r : RunControl) (k : Kind) (address : Nat) : RunControl :=
  { r with claims := r.claims.map (fun c =>
      match c.step with
      | some p => if !p.satisfied && p.kind.admits k then { c with step := some { p with satisfied := true }, address := some address } else c
      | none => c) }

/-- Entry to HOLDING (R100): HOLD is latched, the hold origin recorded, HOLD_BEGIN handed over, the timer started unless the limit is 0. -/
def State.beginHold (k : Kind) (address : Nat) (s : State) : State :=
  let r := s.run.satisfySteps k address
  let s1 : State := { s with run := { r with hold := .holding, origin := r.origin?,
                                             timer := if r.holdLimit = 0 then none else some { start := s.timeBase, limit := r.holdLimit } } }
  let s2 := s1.latch .hold
  match s2.run.origin with
  | some o => s2.mark (.holdBegin o)
  | none => s2

/-- A hold ends (R101): the HOLD_END marker is handed over, the timer stopped and the origin forgotten. -/
def State.endHold (cause : EndCause) (s : State) : State :=
  let s1 := match s.run.origin with
    | some o => s.mark (.holdEnd o cause)
    | none => s
  { s1 with run := { s1.run with origin := none, timer := none } }

/-- After a hold that the cycle survives: HOLD_ARMED if a waiting step stands, RUNNING otherwise (R102, R106). -/
def State.afterHold (s : State) : State := s.setHold (if s.run.stepWaits then .holdArmed else .running)

/-- Every claim is removed together (R94). -/
def State.clearClaims (s : State) : State := { s with run := { s.run with claims := [] } }

/-- Take up the standing claims (R111; also REHEARSE, R115, and supply returned, R114). -/
def State.takeUpClaims (s : State) : State :=
  let s1 := s.setHold .running
  if s1.run.anyLive then s1.armOrMiss else s1

end Sys2Proof.Machine
end

