-- ==== Sys2Proof/Machine/WatchOps.lean ====
section
/-! DEFINITION. The watch units: condition, matching, counting, firing, arming, and the two points at which they look at a cycle (4.2 to 4.7). -/

namespace Sys2Proof.Machine

/-- A record's lane matches a cycle's lane: ANY matches every lane, including NONE (R26, R62). -/
def LaneSel.covers : LaneSel → Lane → Bool
  | .any, _ => true
  | .lane n, l => decide (l = some n)

/-- A unit tests cycles only in ARMED, OPEN and SHUT (R65). -/
def WatchUnit.matching (u : WatchUnit) : Bool := decide (u.state = .armed ∨ u.state = .opened ∨ u.state = .shut)

/-- The kind is in the unit's kind set (R60). -/
def WatchUnit.hasKind (u : WatchUnit) (k : Kind) : Bool := u.kinds.getLsbD k.code

/-- The probe qualifier against the levels sampled at presentation (R63). -/
def WatchUnit.probeMet (u : WatchUnit) (levels : BitVec 4) : Bool :=
  u.probe.all (fun p => levels.getLsbD p.1.val == p.2)

/-- The lane, address, kind and probe parts of the condition (R62, R63). -/
def WatchUnit.meets (u : WatchUnit) (c : Cycle) : Bool :=
  u.lane.covers c.lane && decide (u.firstAddress ≤ c.address) && decide (c.address ≤ u.lastAddress) && u.hasKind c.kind && u.probeMet c.probes

/-- The data part: d AND mask equals value AND mask (R64). -/
def WatchUnit.dataMet (u : WatchUnit) (d : Byte) : Bool := decide (d &&& u.dataMask = u.dataValue &&& u.dataMask)

/-- What a unit makes of a cycle at watch evaluation (R69). -/
inductive Verdict where
  | ignored | matched | deferred
  deriving DecidableEq, Repr

/-- A match, a pending data decision for a read whose data the unit compares, or nothing (R64, R69). -/
def WatchUnit.verdict (u : WatchUnit) (c : Cycle) : Verdict :=
  if u.matching && u.meets c then
    if u.dataMask = 0 then .matched
    else match c.kind with
      | .write => if u.dataMet (c.writeData.getD 0) then .matched else .ignored
      | .read => .deferred
      | .fetch => .deferred
  else .ignored

/-- What a match does to the unit, and whether it fires (R66, R67, R68). -/
def WatchUnit.afterMatch (u : WatchUnit) : WatchUnit × Bool :=
  let left := u.remaining - 1
  if left ≠ 0 then ({ u with remaining := left }, false)
  else match u.mode with
    | .once => ({ u with remaining := 0, state := .spent }, true)
    | .every => ({ u with remaining := u.countA }, true)
    | .gate =>
      if u.state = .opened then ({ u with remaining := u.countB.getD 0, state := .shut }, false)
      else ({ u with remaining := u.countA, state := .opened }, false)
    | .off => (u, false)

/-- Arming acts on a chained DORMANT unit: ARMED, or OPEN for GATE, with remaining set to count A (R77, R78). -/
def WatchUnit.armed (u : WatchUnit) : WatchUnit :=
  if u.chained = true ∧ u.state = .dormant then
    { u with state := if u.mode = .gate then .opened else .armed, remaining := u.countA }
  else u

/-- A firing arms the unit's successor; W3 has none (R60, R73). -/
def armSuccessor (i : Fin 4) (units : Vector WatchUnit 4) : Vector WatchUnit 4 :=
  if h : i.val + 1 < 4 then units.set (i.val + 1) (units[i.val + 1].armed) else units

/-- A unit records a match; the second part says whether it fired (R69, R71, R73). -/
def recordMatch (i : Fin 4) (units : Vector WatchUnit 4) : Vector WatchUnit 4 × Bool :=
  let r := units[i].afterMatch
  let units' := units.set i r.1
  (if r.2 then armSuccessor i units' else units', r.2)

/-- The claim a watch unit raises: its action's level and the address of the cycle that made it fire (R74). -/
def watchRaise (i : Fin 4) (level : Nat) (address : Nat) : Raise :=
  { source := .watch i, level := some level, address := some address, window := none, step := none }

/-- The gate result noted at presentation: every GATE unit that qualifies the trace is OPEN (R79). -/
def gatesOpen (units : Vector WatchUnit 4) : Bool :=
  units.toList.all (fun u => !(decide (u.mode = .gate) && u.gateQualifies.getD false) || decide (u.state = .opened))

/-- The actions of a firing at watch evaluation: the HOLD claim is of the cycle's own evaluation and acts at its hold decision (R74, R98);
TRACE_START is handed over at once and TRACE_STOP waits for the cycle's record (R76). -/
def fireAtEvaluation (i : Fin 4) (a : Actions) (p : Cycle × State) : Cycle × State :=
  let (c, s) := p
  let (c, s) := match a.hold with
    | some level => ({ c with raised := c.raised ++ [Source.watch i] }, s.enterClaim (watchRaise i level c.address))
    | none => (c, s)
  let s := if a.note then s.latch .note else s
  let s := if a.traceStart then s.traceStart else s
  ({ c with stopAfter := c.stopAfter || a.traceStop, fired := c.fired ||| bitOf i }, s)

/-- One unit at watch evaluation, judged by the record and state it holds when the evaluation begins (R69). -/
def evaluateUnit (before : Vector WatchUnit 4) (p : Cycle × State) (i : Fin 4) : Cycle × State :=
  match before[i].verdict p.1 with
  | .ignored => p
  | .deferred => (p.1, { p.2 with watch := p.2.watch.set i { p.2.watch[i] with pendingData := true } })
  | .matched =>
    let r := recordMatch i p.2.watch
    let p' := ({ p.1 with matched := p.1.matched ||| bitOf i }, { p.2 with watch := r.1 })
    if r.2 then fireAtEvaluation i before[i].actions p' else p'

/-- Watch evaluation of a presented cycle: the four units test it together (R69). -/
def watchEvaluate (c : Cycle) (s : State) : Cycle × State :=
  [(0 : Fin 4), 1, 2, 3].foldl (evaluateUnit s.watch) (c, s)

/-- What read-data evaluation gathers: the units that matched and fired, the claims raised (R72, R108), and the trace actions to hand over. -/
structure Evaluation where
  matched : BitVec 4
  fired : BitVec 4
  raised : List Source
  start : Bool
  stop : Bool
  deriving DecidableEq, Repr

/-- The actions of a firing at read-data evaluation: its claim cannot hold the read itself (R71, R74). -/
def fireAtDelivery (i : Fin 4) (a : Actions) (address : Nat) (p : Evaluation × State) : Evaluation × State :=
  let (e, s) := p
  let (e, s) := match a.hold with
    | some level => ({ e with raised := e.raised ++ [Source.watch i] }, (s.enterClaim (watchRaise i level address)).actOnClaim (.watch i))
    | none => (e, s)
  let s := if a.note then s.latch .note else s
  ({ e with fired := e.fired ||| bitOf i, start := e.start || a.traceStart, stop := e.stop || a.traceStop }, s)

/-- One unit with a pending decision compares the delivered byte; the decision is then gone (R71). -/
def deliverUnit (data : Byte) (address : Nat) (p : Evaluation × State) (i : Fin 4) : Evaluation × State :=
  let u := p.2.watch[i]
  if u.pendingData then
    let units := p.2.watch.set i { u with pendingData := false }
    if u.dataMet data then
      let r := recordMatch i units
      let p' := ({ p.1 with matched := p.1.matched ||| bitOf i }, { p.2 with watch := r.1 })
      if r.2 then fireAtDelivery i u.actions address p' else p'
    else (p.1, { p.2 with watch := units })
  else p

/-- Read-data evaluation of a delivered read (R71). Its trace actions are handed over after the read's record (R76). R76 and R123 have a cycle that causes a
start and a stop recorded between them, which cannot be where the start comes here, after the record, so that they leave its order to a stop open. Where both come
here the start is taken before the stop; a stop of the same read's watch evaluation is taken with the record, before a start that comes here: the model's choice
(log 47). -/
def readDataEvaluate (data : Byte) (address : Nat) (s : State) : Evaluation × State :=
  let p := [(0 : Fin 4), 1, 2, 3].foldl (deliverUnit data address)
    ({ matched := 0, fired := 0, raised := [], start := false, stop := false }, s)
  let s := if p.1.start then p.2.traceStart else p.2
  (p.1, if p.1.stop then s.traceStop else s)

/-- The pending data decisions of an abandoned read are dropped (R70). -/
def dropDecisions (units : Vector WatchUnit 4) : Vector WatchUnit 4 :=
  #v[{ units[0] with pendingData := false }, { units[1] with pendingData := false }, { units[2] with pendingData := false },
     { units[3] with pendingData := false }]

end Sys2Proof.Machine
end

