-- ==== Sys2Proof/Machine/BusOps.lean ====
section
/-! DEFINITION. The Board Bus Arbiter: keeping the bus for the target, placing requests, and the grant rule (8.1, 8.2). -/

namespace Sys2Proof.Machine

/-- The bus is kept for the target: it may run, the supply is present, and wait is not wired (R17, R141). -/
def State.busKept (s : State) : Bool :=
  decide (s.run.hold = .running ∨ s.run.hold = .holdArmed) && !s.run.rehearsal && s.port.powered && !s.port.waitWired

/-- Place the TARGET request of the cycle in flight (R9). -/
def State.requestTarget (s : State) : State := { s with bus := { s.bus with target := true } }

/-- Place the BENCH request of the next board-bound byte, with aging 0 (R140, R143). -/
def State.requestBench (s : State) : State := { s with bus := { s.bus with bench := some 0 } }

/-- Place an ENGINE request, with aging 0 (R140, R170). -/
def State.requestEngine (w : EngineWork) (s : State) : State :=
  { s with bus := { s.bus with engine := some { aging := 0, work := w } } }

/-- An aging count goes up by 1, up to 4 (R140). -/
def agedBy (n : Nat) : Nat := min 4 (n + 1)

/-- Grant the bus to the target: the waiting BENCH and ENGINE requests age, unless the bus is kept (R140). -/
def Bus.grantTarget (age : Bool) (b : Bus) : Bus :=
  { b with owner := .target, target := false,
           bench := if age then b.bench.map agedBy else b.bench,
           engine := if age then b.engine.map (fun r => { r with aging := agedBy r.aging }) else b.engine }

def Bus.grantBench (b : Bus) : Bus := { b with owner := .bench, bench := none }

def Bus.grantEngine (r : EngineRequest) (b : Bus) : Bus := { b with owner := .engine r.work, engine := none }

/-- The choice of R139 among the waiting requests: an aged BENCH, an aged ENGINE, then TARGET, BENCH, ENGINE. -/
def Bus.choose (b : Bus) : Bus :=
  if b.bench = some 4 then b.grantBench
  else match b.engine with
    | some r =>
      if r.aging = 4 then b.grantEngine r
      else if b.target then b.grantTarget true
      else if b.bench.isSome then b.grantBench
      else b.grantEngine r
    | none =>
      if b.target then b.grantTarget true
      else if b.bench.isSome then b.grantBench
      else b

/-- Whenever the owner is FREE and a request waits, the arbiter grants the bus (R139). While the bus is kept it grants TARGET requests only, and while
the supply is absent none (R141); held in reset it makes no access (R192). -/
def State.arbitrate (s : State) : State :=
  if s.bus.owner ≠ .free ∨ s.port.powered = false ∨ s.port.prst = true then s
  else if s.busKept then (if s.bus.target then { s with bus := s.bus.grantTarget false } else s)
  else { s with bus := s.bus.choose }

end Sys2Proof.Machine
end

