-- ==== Sys2Proof/Machine/CycleOps.lean ====
section
/-! DEFINITION. The course of one cycle: resolution, performance, completion, abandonment, the hold decision, and the end of a hold by which the
held cycle goes on (chapters 1, 2 and 6). -/

namespace Sys2Proof.Machine

/-! ### Resolution (chapter 2) -/

/-- A cycle matches a record when it is enabled, its span holds the page and its lane matches (R26). -/
def Window.covers (w : Window) (page : Nat) (lane : Lane) : Bool :=
  w.enabled && decide (w.firstPage ≤ page) && decide (page ≤ w.lastPage) && w.lane.covers lane

/-- OVERLAY, OVERLAY_RO and SHADOW are the overlay kinds (R24). -/
def Route.isOverlay : Route → Bool
  | .overlay => true
  | .overlayRo => true
  | .shadow => true
  | .pass => false
  | .guard => false
  | .float => false

/-- What resolution gives (2.4): window or DEFAULT, route, overlay location, capture setting, and the window's guard level. -/
structure Resolution where
  window : Option (Fin 16)
  route : Route
  location : Option Location
  capture : Bool
  guardLevel : Option Nat
  deriving DecidableEq, Repr

/-- The governing window is the lowest-indexed record that the cycle matches (R27). -/
def governing (ws : Vector Window 16) (page : Nat) (lane : Lane) : Option (Fin 16) :=
  (List.finRange 16).find? (fun i => ws[i].covers page lane)

/-- The Path Decoder's one operation (R27, R28, R30, R31, R34). -/
def resolve (ws : Vector Window 16) (address : Nat) (lane : Lane) : Resolution :=
  match governing ws (address / Config.pageSize) lane with
  | none => { window := none, route := .pass, location := none, capture := true, guardLevel := none }
  | some i =>
    let w := ws[i]
    { window := some i, route := w.kind,
      location := if w.kind.isOverlay then
          some { page := w.origin.getD 0 + (address / Config.pageSize - w.firstPage), offset := address % Config.pageSize }
        else none,
      capture := w.capture, guardLevel := w.guardLevel }

/-- Whether a route makes a board access for a read or a write: PASS, a GUARD read, a SHADOW write (R16, R44). -/
def Route.boardBound : Route → Bool → Bool
  | .pass, _ => true
  | .guard, write => !write
  | .shadow, write => write
  | .overlay, _ => false
  | .overlayRo, _ => false
  | .float, _ => false

def Cycle.isWrite (c : Cycle) : Bool := decide (c.kind = .write)

def Cycle.boardBound (c : Cycle) : Bool := c.route.boardBound c.isWrite

/-! ### The cycle's record, its completion and its answer -/

/-- The CYCLE record of a cycle: the delivered data of a read or the write data of a write; an abandoned read has data 0x00 (R14, R18). -/
def Cycle.record (c : Cycle) (abandoned : Bool) : CycleRecord :=
  { address := c.address, lane := c.lane, data := if c.isWrite then c.writeData.getD 0 else if abandoned then 0 else c.readData.getD 0,
    window := c.window, route := c.route, kind := c.kind, held := c.held, substituted := c.substituted, stretched := c.stretched,
    contention := c.contention, abandoned := abandoned, injected := c.injected, matched := c.matched, fired := c.fired }

/-- The two results fixed at presentation, by which the record qualifies (R128). -/
def Cycle.qualified (c : Cycle) : Bool := c.capture && c.gate

/-- The cycle's record is handed to the Trace Store, then a waiting TRACE_STOP (R14, R18, R76); the number it took, for an injected cycle (R127). -/
def State.recordCycle (c : Cycle) (abandoned : Bool) (s : State) : State × Option (BitVec 32) :=
  let b := RecordBody.cycle (c.record abandoned)
  let seq := if s.trace.appends c.qualified b then some s.trace.next else none
  let s1 := s.offer b c.qualified s.timeBase
  (if c.stopAfter then s1.traceStop else s1, seq)

/-- The cycle in flight is empty again (R1). -/
def State.clearCycle (s : State) : State := { s with port := { s.port with inFlight := none } }

/-- The response of INJECT (R116). -/
def State.answerInject (c : Cycle) (abandoned : Bool) (d : Option Delivery) (s : State) : State :=
  s.respond .ok 0x37 (.inject c.window c.route c.matched c.fired c.raised c.held abandoned s.run.hold d)

/-- The response of the command that waits for an injected cycle (R72, R107, R108, R116). INJECT's own carries what R108 gives for a completed cycle alone;
an abandoned one is reported with the ABANDONED mark (R116). Where a repeated claim of HALT or of a probe edge ends the hold (R104), no response reports
the delivery: the model's choice (log 44). -/
def State.answerInjected (c : Cycle) (abandoned : Bool) (d : Delivery) (s : State) : State :=
  if c.injected then
    match s.link.activity with
    | .inject => s.answerInject c abandoned (if abandoned then none else some d)
    | .release => s.respond .ok 0x33 (.release s.run.hold (byUrgency s.run.claims) s.run.floor (some d))
    | .floor => s.respond .ok 0x31 (.floor (some d))
    | .idle => s
    | .sending => s
    | .transfer _ => s
    | .abort => s
    | .rateChange _ => s
    | .reset => s
  else s

/-- The Target Port drives the read data of a target READ or FETCH to the target (R14); an injected cycle's is returned to the bench computer. -/
def State.driveData (c : Cycle) (data : Byte) (s : State) : State :=
  if c.isWrite || c.injected then s else { s with port := { s.port with driven := some data } }

/-- Completion (R14) and, for a read, read-data evaluation (R15, R71). `data` is the delivered byte of a read. A TRACE_STOP of its watch evaluation is taken with the
record, before the trace actions of the delivery: with capture WAITING and a start among those, the order is the model's choice (log 47). -/
def State.completeCycle (c : Cycle) (data : Byte) (s : State) : State :=
  let c := if c.isWrite then c else { c with readData := some data }
  let p := s.recordCycle c false
  let s1 := (p.1.driveData c data).clearCycle
  if c.isWrite then
    s1.answerInjected c false { abandoned := false, byte := none, matched := 0, fired := 0, raised := [], seq := p.2 }
  else
    let q := readDataEvaluate data c.address s1
    q.2.answerInjected c false
      { abandoned := false, byte := some data, matched := q.1.matched, fired := q.1.fired, raised := q.1.raised, seq := p.2 }

/-- Whether performance of the cycle in flight has begun: it has left HELD, and a board-bound cycle has its grant (R18). -/
def State.performanceBegun (c : Cycle) (s : State) : Bool := decide (c.phase = .performing) && !s.bus.target

/-- A cause of R18 reaches the Target Port: a cycle in flight that has not begun performance is abandoned, its TARGET request is withdrawn, its
pending data decisions are dropped (R70) and its record carries ABANDONED. -/
def State.abandonCycle (s : State) : State :=
  match s.port.inFlight with
  | none => s
  | some c =>
    if s.performanceBegun c then s
    else
      let p := s.recordCycle c true
      let s1 : State := { p.1 with bus := { p.1.bus with target := false }, watch := dropDecisions p.1.watch }
      s1.clearCycle.answerInjected c true
        { abandoned := true, byte := none, matched := 0, fired := 0, raised := [], seq := p.2 }

/-! ### Performance (R9 to R13, R16, R17) -/

/-- Mark the cycle in flight as stretched: a target cycle that is not granted the bus at once. WAIT is asserted for it where it is wired (R5, R16, R17). -/
def State.stretchCycle (s : State) : State :=
  match s.port.inFlight with
  | none => s
  | some c =>
    if c.injected then s
    else { s with port := { s.port with inFlight := some { c with stretched := true, waiting := c.waiting || s.port.waitWired } } }

/-- A board-bound cycle places its TARGET request; when it is not granted at once it waits (R9, R16, R139). -/
def State.performAtBoard (c : Cycle) (s : State) : State :=
  let s1 := ({ s with port := { s.port with inFlight := some { c with phase := .performing } } } : State).requestTarget.arbitrate
  if s1.bus.owner = .target then s1 else s1.stretchCycle

/-- Performance of a cycle on its route (R9 to R13). -/
def State.performCycle (c : Cycle) (s : State) : State :=
  let loc := c.location.getD { page := 0, offset := 0 }
  match c.route, c.isWrite with
  | .pass, _ => s.performAtBoard c
  | .guard, false => s.performAtBoard c
  | .guard, true => s.completeCycle c 0
  | .float, _ => s.completeCycle c s.floatByte
  | .overlay, false => s.completeCycle c (s.overlay.readByte loc)
  | .overlay, true => ({ s with overlay := s.overlay.writeByte loc (c.writeData.getD 0) } : State).completeCycle c 0
  | .overlayRo, false => s.completeCycle c (s.overlay.readByte loc)
  | .overlayRo, true => s.completeCycle c 0
  | .shadow, false => s.completeCycle c (s.overlay.readByte loc)
  | .shadow, true => ({ s with overlay := s.overlay.writeByte loc (c.writeData.getD 0) } : State).performAtBoard c

/-! ### The hold decision (R7, R98, R99, R100) -/

/-- The cycle is held: its phase becomes HELD, and WAIT is asserted for a target cycle (R8). -/
def State.holdCycle (c : Cycle) (s : State) : State :=
  let s1 := s.beginHold c.kind c.address
  { s1 with port := { s1.port with inFlight := some { c with phase := .held, held := true, waiting := !c.injected } } }

/-- Some claim the cycle's own evaluation raised is live at its hold decision (R98). -/
def RunControl.ownLive (r : RunControl) (raised : List Source) : Bool :=
  raised.any (fun src => (r.claimOf src).any (Claim.live r.floor))

/-- The hold decision: in RUNNING only a live claim of the cycle's own evaluation holds it, where holding is possible, and is missed where it
is not; in HOLD_ARMED a holding claim or a waiting step that admits it (R98, R99). An own claim that a repeat made quiet while it was the last
live one ends the arming first (R104). -/
def State.holdDecision (c : Cycle) (s : State) : State :=
  let s := if s.run.hold = .holdArmed ∧ s.run.anyLive = false then s.setHold .running else s
  match s.run.hold with
  | .running =>
    if s.run.ownLive c.raised then
      if s.holdingPossible then s.holdCycle c else (s.latch .holdMissed).performCycle c
    else s.performCycle c
  | .holdArmed => if s.run.anyHolding || s.run.stepAdmits c.kind then s.holdCycle c else s.performCycle c
  | .holding => s.performCycle c
  | .resetHeld => s.performCycle c
  | .unpowered => s.performCycle c

/-! ### Presentation (R3, R4, R6) -/

/-- The lowest-numbered enabled select that is asserted (R3). -/
def laneOfSelects (asserted : BitVec 4) : Lane :=
  [(0 : Fin 4), 1, 2, 3].find? (fun i => asserted.getLsbD i.val)

/-- Two or more enabled selects asserted together (R3). -/
def contended (asserted : BitVec 4) : Bool :=
  decide (2 ≤ ([(0 : Fin 4), 1, 2, 3].filter (fun i => asserted.getLsbD i.val)).length)

/-- The levels of the four probe lines (R91). -/
def State.probeLevels (s : State) : BitVec 4 :=
  (if s.probes[0].level then 1#4 else 0) ||| (if s.probes[1].level then 2#4 else 0) |||
  (if s.probes[2].level then 4#4 else 0) ||| (if s.probes[3].level then 8#4 else 0)

/-- A presented cycle with its resolution (R1, R6, R34), the gate result (R79) and the probe levels (R91). Only a WRITE has write data: the data byte of an
INJECT of kind READ or FETCH is ignored, the model's choice (log 41). -/
def State.present (s : State) (address : Nat) (lane : Lane) (kind : Kind) (data : Option Byte) (contention injected : Bool) : Cycle :=
  let r := resolve s.windows address lane
  { address := address, lane := lane, kind := kind, writeData := if kind = .write then data else none, contention := contention,
    injected := injected, probes := s.probeLevels, window := r.window, route := r.route, location := r.location, capture := r.capture,
    gate := gatesOpen s.watch, matched := 0, fired := 0, raised := [], stopAfter := false, phase := .arriving, held := false,
    stretched := false, substituted := false, waiting := false, readData := none }

/-- The claim a guarded write raises (R32). -/
def guardRaise (level : Nat) (c : Cycle) : Raise :=
  { source := .guard, level := some level, address := some c.address, window := c.window, step := none }

/-- A WRITE resolved to a GUARD window latches GUARD and, when the window has a guard level, raises the GUARD claim (R6, R32). -/
def guardWrite (level : Option Nat) (c : Cycle) (s : State) : Cycle × State :=
  if c.route = .guard ∧ c.isWrite = true then
    let s1 := s.latch .guard
    match level with
    | some l => ({ c with raised := c.raised ++ [Source.guard] }, s1.enterClaim (guardRaise l c))
    | none => (c, s1)
  else (c, s)

/-- From presentation to the hold decision and what follows it, in one step (R6, R7, R18). -/
def State.presentCycle (c : Cycle) (s : State) : State :=
  let s := if c.contention then s.latch .contention else s
  let g := guardWrite (resolve s.windows c.address c.lane).guardLevel c s
  let p := watchEvaluate g.1 g.2
  p.2.holdDecision p.1

/-! ### Ends of a hold by which the held cycle goes on -/

/-- The held cycle goes on to performance (R8, R106). -/
def State.proceedHeld (s : State) : State :=
  match s.port.inFlight with
  | some c => s.performCycle c
  | none => s

/-- The held cycle is completed without performance: a read delivers the byte, a write is dropped (R8, R106). -/
def State.substituteHeld (byte : Byte) (s : State) : State :=
  match s.port.inFlight with
  | some c => s.completeCycle { c with substituted := true } byte
  | none => s

/-- A hold ended by a floor change, or by a repeat with the same effect (R102, R104; log 20). -/
def State.endHoldByFloor (s : State) : State := (s.endHold .floor).afterHold.proceedHeld

/-- A claim that no cycle's own evaluation raised: entered, then acted on by the table of R98. A repeat that leaves no holding claim in HOLDING ends the
hold as a SET FLOOR would (R104). -/
def State.raiseClaim (r : Raise) (s : State) : State :=
  let s1 := s.enterClaim r
  if s1.run.hold = .holding ∧ s1.run.anyHolding = false then s1.endHoldByFloor else s1.actOnClaim r.source

/-- Target reset or the loss of the supply reaches a cycle and run control: a hold ends with the cause, the claims and the rehearsal flag are cleared, the
cycle in flight is abandoned, and the marker follows, in the order of R101 (R109, R111, R112, R113). -/
def State.cutOff (cause : EndCause) (dest : HoldState) (marker : RecordBody) (s : State) : State :=
  let s1 := if s.run.hold = .holding then s.endHold cause else s
  let s2 : State := { s1 with run := { s1.run with hold := dest, claims := [], rehearsal := false } }
  s2.abandonCycle.mark marker

/-- Whether the cycle in flight's overlay location has a physical page (R48; log 13). -/
def State.cycleMapped (s : State) : Bool :=
  s.port.inFlight.all (fun c => c.location.all s.overlay.maps)

/-- Every enabled window of an overlay kind maps all its pages below the capacity (R38; log 13). -/
def State.windowsMapped (s : State) : Bool :=
  s.windows.toList.all (fun w => !(w.enabled && w.kind.isOverlay) ||
    decide (w.origin.getD 0 + (w.lastPage - w.firstPage) < s.overlay.capacity))

end Sys2Proof.Machine
end

