-- ==== Sys2Proof/Machine/TransferOps.lean ====
section
/-! DEFINITION. The commands that move bytes while they make them: PEEK and POKE, one at a time in ascending address order, cut short by supply lost or by
a write-class job on the lane (8.3), and READ OVERLAY and WRITE OVERLAY (3.7). -/

namespace Sys2Proof.Machine

/-- Whether the byte makes a board access (R44, R144). -/
def TransferByte.boardBound (b : TransferByte) : Bool := b.route.boardBound b.write.isSome

/-- A byte of the BOARD path goes straight to the board; a TARGET_VIEW byte is resolved as a cycle of the view lane (R43, R143). -/
def transferByte (ws : Vector Window 16) (targetView : Bool) (lane : Lane) (address : Nat) (write : Option Byte) : TransferByte :=
  if targetView then
    let r := resolve ws address lane
    { address := address, write := write, route := r.route, location := r.location }
  else { address := address, write := write, route := .pass, location := none }

/-- One byte per address from the given address upward (R143). -/
def transferBytes (ws : Vector Window 16) (targetView : Bool) (lane : Lane) : Nat → List (Option Byte) → List TransferByte
  | _, [] => []
  | address, w :: rest => transferByte ws targetView lane address w :: transferBytes ws targetView lane (address + 1) rest

/-- The overlay part of a byte that has been made: an overlay write, for the routes whose POKE column of R44 names overlay. -/
def State.transferWrite (b : TransferByte) (s : State) : State :=
  match b.write, b.location with
  | some d, some l => { s with overlay := s.overlay.writeByte l d }
  | _, _ => s

/-- The byte a PEEK gets without a board access: the overlay byte, or the float byte as it stands (R33, R44). -/
def State.transferRead (b : TransferByte) (s : State) : Byte :=
  match b.location with
  | some l => s.overlay.readByte l
  | none => s.floatByte

/-- A byte has been made (R143). -/
def Transfer.made' (t : Transfer) (b : TransferByte) (data : Byte) : Transfer :=
  { t with made := if b.write.isSome then t.made else t.made ++ [data], count := t.count + 1 }

/-- The response after the last byte, or at the cut (R56, R57, R143, R146). -/
def State.finishTransfer (t : Transfer) (s : State) : State :=
  match t.form with
  | .peek => s.respond .ok 0x50 (.peeked t.made t.count)
  | .poke => s.respond .ok 0x51 (.poked t.count)
  | .readOverlay => s.respond .ok 0x1B (.bytes t.made)
  | .writeOverlay => s.respond .ok 0x1A .empty

/-- Make bytes until one needs the bus: its BENCH request is placed when the byte before it has been made (R143). A bytewise command leaves a byte that
needs no bus to a step of its own (R58; log 38). -/
def State.runTransfer : List TransferByte → Transfer → State → State
  | [], t, s => s.finishTransfer { t with todo := [] }
  | b :: rest, t, s =>
    if b.boardBound then (s.occupy (.transfer { t with todo := b :: rest })).requestBench
    else if t.bytewise then s.occupy (.transfer { t with todo := b :: rest })
    else (s.transferWrite b).runTransfer rest (t.made' b (s.transferRead b))

/-- The board access of a BENCH byte has ended: the byte is made, a SHADOW write at overlay memory too (R44; log 18), and the next one follows. -/
def State.transferAccessEnd (data : Byte) (s : State) : State :=
  match s.link.activity with
  | .transfer t =>
    match t.todo with
    | b :: rest => (s.transferWrite b).runTransfer rest (t.made' b data)
    | [] => s.finishTransfer t
  | .idle => s
  | .sending => s
  | .inject => s
  | .release => s
  | .floor => s
  | .abort => s
  | .rateChange _ => s
  | .reset => s

/-- The first byte still to be made of a command that moves bytes, if it needs no bus, with the bytes behind it and the command: what a bytewise
command's next step makes (R58; log 38). -/
def State.nextOwnByte (s : State) : Option (TransferByte × List TransferByte × Transfer) :=
  match s.link.activity with
  | .transfer t =>
    match t.todo with
    | b :: rest => if b.boardBound then none else some (b, rest, t)
    | [] => none
  | .idle => none
  | .sending => none
  | .inject => none
  | .release => none
  | .floor => none
  | .abort => none
  | .rateChange _ => none
  | .reset => none

/-- That byte is made, and the next one follows (R56, R57, R143). -/
def State.makeOwnByte (b : TransferByte) (rest : List TransferByte) (t : Transfer) (s : State) : State :=
  (s.transferWrite b).runTransfer rest (t.made' b (s.transferRead b))

/-- Cut a PEEK or POKE short at the first byte not yet granted that the predicate names: no further byte of any kind is made from there; a granted byte
is finished, and the bytes before the cut are made; with none left the request is withdrawn and the command answered (R145, R146). -/
def State.cutTransfer (cut : TransferByte → Bool) (s : State) : State :=
  match s.link.activity with
  | .transfer t =>
    if s.bus.owner = .bench then
      s.occupy (.transfer { t with todo := t.todo.take 1 ++ (t.todo.drop 1).takeWhile (fun b => !cut b) })
    else
      let todo := t.todo.takeWhile (fun b => !cut b)
      if todo = [] then ({ s with bus := { s.bus with bench := none } } : State).finishTransfer { t with todo := [] }
      else s.occupy (.transfer { t with todo := todo })
  | .idle => s
  | .sending => s
  | .inject => s
  | .release => s
  | .floor => s
  | .abort => s
  | .rateChange _ => s
  | .reset => s

/-- Whether every overlay location of the transfer has a physical page (R48; log 13). -/
def State.transferMapped (s : State) : Bool :=
  match s.link.activity with
  | .transfer t => t.todo.all (fun b => b.location.all s.overlay.maps)
  | .idle => true
  | .sending => true
  | .inject => true
  | .release => true
  | .floor => true
  | .abort => true
  | .rateChange _ => true
  | .reset => true

end Sys2Proof.Machine
end

