-- ==== Sys2Proof/Machine/EngineOps.lean ====
section
/-! DEFINITION. The Programming Engine at work: the start rule, the start of a job, the accesses of each operation, polls, ends and aborts
(10.3 to 10.6). -/

namespace Sys2Proof.Machine

/-! ### Lane profiles -/

/-- The end of the lane range: base + size (R159). -/
def Profile.limit (p : Profile) : Nat := p.base + p.size

/-- An address lies within the lane range (R159). -/
def Profile.inRange (p : Profile) (a : Nat) : Bool := decide (p.base ≤ a) && decide (a < p.limit)

/-- The sectors, start and size, laid end to end from base upward (R159). -/
def sectorsFrom (base : Nat) : List SectorRun → List (Nat × Nat)
  | [] => []
  | r :: rest => (List.range r.count).map (fun i => (base + i * r.size, r.size)) ++ sectorsFrom (base + r.size * r.count) rest

/-- The sectors of a profile; a ROM_ONLY or RAM profile has none (R159). -/
def Profile.sectors (p : Profile) : List (Nat × Nat) :=
  match p.flash with
  | some f => sectorsFrom p.base f.sectors
  | none => []

/-- A pair is written as its byte at base + offset (R159). -/
def Profile.pairAccess (p : Profile) (q : Pair) : Access := { address := p.base + q.offset, write := some q.byte }

def readAccess (a : Nat) : Access := { address := a, write := none }

def State.profileOf (lane : Fin 4) (s : State) : Option Profile := s.lanes[lane].profile

def State.setOwed (lane : Fin 4) (b : Bool) (s : State) : State :=
  { s with lanes := s.lanes.set lane { s.lanes[lane] with owed := b } }

/-- The lines a lane uses: the data lines, A0 to A(k-1) for size 2^k, and every address line whose bit is 1 in the base (R169). -/
def Profile.lines (p : Profile) : List (Fin 28) :=
  (List.finRange 28).filter (fun i => decide (20 ≤ i.val) || decide (2 ^ i.val < p.size) || p.base.testBit i.val)

/-- STUCK_LOW, STUCK_HIGH and BRIDGED are faults; UNTESTED and GOOD are not (R169). -/
def LineEntry.faulty : LineEntry → Bool
  | .untested => false
  | .good => false
  | .stuckLow => true
  | .stuckHigh => true
  | .bridged _ => true

/-- A line the lane uses has a fault in the line map (R169). -/
def State.laneFault (p : Profile) (s : State) : Bool := p.lines.any (fun i => s.bus.lineMap[i].faulty)

/-! ### The job table -/

/-- Change the entry with this number. -/
def State.setJob (number : Nat) (state : JobState) (s : State) : State :=
  { s with engine := { s.engine with jobs := s.engine.jobs.map (fun j => if j.number = number then { j with state := state } else j) } }

/-- The bind count of the slot an operation names goes down by 1 (R157). -/
def State.unbind (op : Operation) (s : State) : State :=
  match op.slot with
  | some (slot, _) => { s with slots := s.slots.set slot { s.slots[slot] with binds := s.slots[slot].binds - 1 } }
  | none => s

/-- A job ends: ENDED with its completion, its slot unbound, JOB_ENDED latched (R178). The judgement of the start rule follows in `State.settle`. -/
def State.endJob (j : Job) (c : Completion) (s : State) : State :=
  let s1 := s.setJob j.number (.ended c)
  let s2 : State := { s1 with engine := { s1.engine with endOrder := s1.engine.endOrder ++ [j.number] } }
  (s2.unbind j.op).latch .jobEnded

/-- The counts are present for VERIFY (R178). -/
def Operation.counts (op : Operation) (mismatches unsteady : Nat) : Option (Nat × Nat) :=
  match op with
  | .verify _ _ _ => some (mismatches, unsteady)
  | .eraseSector => none
  | .eraseLane => none
  | .program _ _ _ _ => none
  | .blankCheck => none
  | .sum => none

/-- The CRC of a completion that no outcome of the operation's own gives (ABORTED, POWER_LOST, CANCELLED): present for SUM alone (R178), of the bytes it has read (R177; the value
is deduced, log 46). -/
def Operation.sumCrc (op : Operation) (register : Crc) : Option Crc :=
  match op with
  | .sum => some (crcFinal register)
  | .eraseSector => none
  | .eraseLane => none
  | .program _ _ _ _ => none
  | .verify _ _ _ => none
  | .blankCheck => none

/-- The ACTIVE job reaches an outcome; its elapsed time runs from the start stamp (R178). -/
def State.finishJob (j : Job) (a : Active) (outcome : JobOutcome) (reached : Option Nat) (expected read : Option Byte) (crc : Option Crc)
    (s : State) : State :=
  s.endJob j { outcome := outcome, reached := reached, expected := expected, read := read,
               counts := j.op.counts a.mismatches a.unsteady, crc := crc, elapsed := s.timeBase - a.start }

/-- A QUEUED or WAITING entry ends CANCELLED: elapsed 0, counts 0, the CRC of a SUM that of no byte (R178, R180; log 46). -/
def State.cancel (j : Job) (s : State) : State :=
  s.endJob j { outcome := .cancelled, reached := none, expected := none, read := none, counts := j.op.counts 0 0, crc := j.op.sumCrc crcStart, elapsed := 0 }

/-- The entries that are QUEUED or WAITING. -/
def Job.waits (j : Job) : Bool :=
  match j.state with
  | .queued => true
  | .waiting => true
  | .active _ => false
  | .ended _ => false

/-- Every QUEUED and WAITING entry ends CANCELLED, in submission order (R181). -/
def State.cancelAll (s : State) : State := (s.engine.jobs.filter Job.waits).foldl (fun t j => t.cancel j) s

/-- The ACTIVE job's work becomes this, and its next access or run is requested (R170). -/
def State.askBoard (j : Job) (a : Active) (accesses : List Access) (s : State) : State :=
  (s.setJob j.number (.active a)).requestEngine (.accesses j.lane accesses)

/-! ### Programming (R171, R173) -/

/-- The bytes of the job's range in its slot (R171). -/
def State.jobData (j : Job) (s : State) : List Byte :=
  match j.op.slot with
  | some (slot, offset) => (s.slots[slot].contents.drop offset).take j.length
  | none => []

/-- The slot byte for an address of the job's range (R171). -/
def State.jobByte (j : Job) (address : Nat) (s : State) : Byte := (s.jobData j).getD (address - j.address) 0

/-- The run of a program step: unlock pairs, program pair, data byte (R171). -/
def Profile.stepRun (p : Profile) (f : FlashPart) (address : Nat) (data : Byte) : List Access :=
  f.unlock.map p.pairAccess ++ [p.pairAccess f.program, { address := address, write := some data }]

/-- The program pass is done: DONE, or the verify pass over the same range (R171, R173). -/
def State.programDone (j : Job) (a : Active) (s : State) : State :=
  match j.op.options with
  | some (_, true) => s.askBoard j { a with phase := .verifyPass, current := j.address } [readAccess j.address]
  | _ => s.finishJob j a .done none none none none

/-- The next program step on a FLASH lane from the current address: bytes equal to the erased byte are skipped; then the precheck read, or the run (R171).
Skipped bytes take no access, so a job whose bytes are all skipped ends in the step that starts it, and its SUBMIT is answered ENDED: the model's choice
(R167; log 42). -/
def State.programStep (j : Job) (a : Active) (p : Profile) (f : FlashPart) (s : State) : State :=
  let rest := (s.jobData j).drop (a.current - j.address)
  let current := a.current + (rest.takeWhile (fun b => decide (b = p.erased))).length
  if j.address + j.length ≤ current then s.programDone j a
  else if j.op.options.any Prod.fst then s.askBoard j { a with phase := .precheck, current := current } [readAccess current]
  else s.askBoard j { a with phase := .stepRun, current := current } (p.stepRun f current (s.jobByte j current))

/-- The plain write of a RAM step at the current address (R173). -/
def State.ramStep (j : Job) (a : Active) (s : State) : State :=
  if j.address + j.length ≤ a.current then s.programDone j a
  else s.askBoard j { a with phase := .ramWrite } [{ address := a.current, write := some (s.jobByte j a.current) }]

/-! ### Erasing (R174) -/

/-- The run of a sector erase: the sector erase pairs, then the sector command at the sector start (R174). -/
def Profile.eraseRun (p : Profile) (f : FlashPart) (sector : Nat) : List Access :=
  f.sectorErase.map p.pairAccess ++ [{ address := sector, write := some f.sectorCommand }]

/-- The first erase run of an erase job: the lane erase pairs where the lane has them, else the sector at the current address (R174). -/
def State.eraseStep (j : Job) (a : Active) (p : Profile) (f : FlashPart) (s : State) : State :=
  if j.op = .eraseLane ∧ f.laneErase ≠ [] then s.askBoard j { a with phase := .eraseRun } (f.laneErase.map p.pairAccess)
  else s.askBoard j { a with phase := .eraseRun } (p.eraseRun f a.current)

/-- After an erase's poll ends done: the next sector of a sector-by-sector ERASE_LANE, else DONE (R174). -/
def State.eraseDone (j : Job) (a : Active) (p : Profile) (f : FlashPart) (s : State) : State :=
  if j.op = .eraseLane ∧ f.laneErase = [] then
    match p.sectors.find? (fun q => decide (a.current < q.1)) with
    | some q => s.eraseStep j { a with current := q.1 } p f
    | none => s.finishJob j a .done none none none none
  else s.finishJob j a .done none none none none

/-! ### Polls (R172) -/

/-- The limit of a poll in microseconds (R172, R174). -/
def pollLimit (op : Operation) (f : FlashPart) : Nat :=
  match op with
  | .eraseSector => f.sectorTimeout * 1000
  | .eraseLane => if f.laneErase = [] then f.sectorTimeout * 1000 else f.laneTimeout * 1000
  | .program _ _ _ _ => f.programTimeout
  | .verify _ _ _ => f.programTimeout
  | .blankCheck => f.programTimeout
  | .sum => f.programTimeout

/-- The target value of a poll: the data byte of a program step, the erased byte of an erase (R172). -/
def State.pollTarget (j : Job) (a : Active) (p : Profile) (s : State) : Byte :=
  match j.op.slot with
  | some _ => s.jobByte j a.current
  | none => p.erased

/-- The next read or pair of a poll, or the wait for the ready input (R172). -/
def State.pollAgain (j : Job) (a : Active) (f : FlashPart) (start : Stamp) (s : State) : State :=
  match f.pollMethod with
  | .toggle => s.askBoard j { a with phase := .poll start .toggleFirst } [readAccess a.current]
  | .data => s.askBoard j { a with phase := .poll start .data } [readAccess a.current]
  | .readyLine => s.setJob j.number (.active { a with phase := .poll start .readyLine })

/-- The device is done: the compare read of a program step, or the end of an erase (R171, R174). -/
def State.pollDone (j : Job) (a : Active) (p : Profile) (f : FlashPart) (s : State) : State :=
  match j.op.slot with
  | some _ => s.askBoard j { a with phase := .compare } [readAccess a.current]
  | none => s.eraseDone j a p f

/-- TIMEOUT: the reset pair is written as a run, and then the job ends (R172). -/
def State.timeOut (j : Job) (a : Active) (p : Profile) (f : FlashPart) (s : State) : State :=
  s.askBoard j { a with phase := .timeoutReset } [p.pairAccess f.resetPair]

/-- A read or pair showed the device busy: TIMEOUT when the limit has been reached, else the next read or pair (R172). -/
def State.pollBusy (j : Job) (a : Active) (p : Profile) (f : FlashPart) (start : Stamp) (s : State) : State :=
  if pollLimit j.op f ≤ s.elapsed start then s.timeOut j a p f else s.pollAgain j a f start

/-- The poll bit of a byte (R172). -/
def FlashPart.bitOf (f : FlashPart) (b : Byte) : Bool := b.getLsbD f.pollBit

/-! ### Reading and comparing (R175 to R177) -/

/-- The end of the range of a VERIFY, BLANK_CHECK or SUM (R175, R176, R177). -/
def State.readingDone (j : Job) (a : Active) (s : State) : State :=
  match j.op with
  | .verify _ _ _ =>
    match a.firstBad with
    | some (address, expected, read) =>
      s.finishJob j a .mismatch (some address) (some expected) (some read) (some (crcFinal a.crc))
    | none =>
      if 0 < a.unsteady then s.finishJob j a .unsteady a.firstUnsteady none none (some (crcFinal a.crc))
      else s.finishJob j a .done none none none (some (crcFinal a.crc))
  | .sum => s.finishJob j a .done none none none (some (crcFinal a.crc))
  | .blankCheck => s.finishJob j a .done none none none none
  | .eraseSector => s.finishJob j a .done none none none none
  | .eraseLane => s.finishJob j a .done none none none none
  | .program _ _ _ _ => s.finishJob j a .done none none none none

/-- The byte's work ends: the current address moves to the next byte, or the range is done (R170). -/
def State.nextRead (j : Job) (a : Active) (s : State) : State :=
  if j.address + j.length ≤ a.current + 1 then s.readingDone j a
  else s.askBoard j { a with phase := .reading, current := a.current + 1 } [readAccess (a.current + 1)]

/-- A hard mismatch: counted, the first one kept (R175, R176). -/
def Active.addMismatch (a : Active) (expected read : Byte) : Active :=
  { a with mismatches := a.mismatches + 1, firstBad := a.firstBad.or (some (a.current, expected, read)) }

/-- An unsteady byte: counted, the first one kept (R176). -/
def Active.addUnsteady (a : Active) : Active :=
  { a with unsteady := a.unsteady + 1, firstUnsteady := a.firstUnsteady.or (some a.current) }

/-- A byte that the job has read in its range counts toward the CRC, that of the access ABORT ENGINE lets end too (R175, R177, R181; log 46). -/
def Active.countRead (data : Byte) (a : Active) : Active :=
  if a.phase = .reading then { a with crc := crcByte a.crc data } else a

/-- A first read of a byte by VERIFY, BLANK_CHECK or SUM: it counts toward the CRC, and is compared (R175, R176, R177). -/
def State.readByteDone (j : Job) (a : Active) (p : Profile) (data : Byte) (s : State) : State :=
  let a := { a with crc := crcByte a.crc data }
  match j.op with
  | .verify _ _ policy =>
    let want := s.jobByte j a.current
    if data = want then s.nextRead j a
    else match policy with
      | .first => s.readingDone j (a.addMismatch want data)
      | .count => s.nextRead j (a.addMismatch want data)
      | .retry => s.askBoard j { a with phase := .retry data 3 true } [readAccess a.current]
  | .blankCheck =>
    if data = p.erased then s.nextRead j a else s.finishJob j a .notBlank (some a.current) none (some data) none
  | .sum => s.nextRead j a
  | .eraseSector => s.nextRead j a
  | .eraseLane => s.nextRead j a
  | .program _ _ _ _ => s.nextRead j a

/-- A re-read of RETRY: hard when the first read and all three re-reads return the same value, unsteady otherwise (R176). -/
def State.retryDone (j : Job) (a : Active) (first : Byte) (left : Nat) (same : Bool) (data : Byte) (s : State) : State :=
  let same := same && decide (data = first)
  if 1 < left then s.askBoard j { a with phase := .retry first (left - 1) same } [readAccess a.current]
  else if same then s.nextRead j (a.addMismatch (s.jobByte j a.current) first)
  else s.nextRead j a.addUnsteady

/-! ### The start and the course of a job (R169 to R177) -/

/-- The operation's own work begins (R169). -/
def State.beginWork (j : Job) (a : Active) (p : Profile) (s : State) : State :=
  match j.op with
  | .eraseSector => match p.flash with
    | some f => s.eraseStep j a p f
    | none => s
  | .eraseLane => match p.flash with
    | some f => s.eraseStep j a p f
    | none => s
  | .program _ _ _ _ => match p.flash with
    | some f => s.programStep j a p f
    | none => s.ramStep j a
  | .verify _ _ _ => s.askBoard j { a with phase := .reading } [readAccess a.current]
  | .blankCheck => s.askBoard j { a with phase := .reading } [readAccess a.current]
  | .sum => s.askBoard j { a with phase := .reading } [readAccess a.current]

/-- The ABORTED end, and with it the cancellation of every waiting entry; ABORT ENGINE is answered with the number of entries ended (R181). -/
def State.finishAbort (j : Job) (a : Active) (s : State) : State :=
  let count := (s.engine.jobs.filter Job.waits).length + 1
  ((s.finishJob j a .aborted (some a.current) none none (j.op.sumCrc a.crc)).cancelAll).respond .ok 0x74 (.ended count)

/-- Step 2 of ABORT ENGINE: on a FLASH lane the reset pair is written as a run, or, with the bus kept, the reset is owed (R181). -/
def State.abortReset (j : Job) (a : Active) (p : Profile) (s : State) : State :=
  match p.flash with
  | some f =>
    if s.busKept then (s.setOwed j.lane true).finishAbort j a
    else s.askBoard j { a with phase := .abortReset, aborting := true } [p.pairAccess f.resetPair]
  | none => s.finishAbort j a

/-- The reset pair's write of this phase clears the flag (R164). -/
def JobPhase.writesReset : JobPhase → Bool
  | .owedReset => true
  | .timeoutReset => true
  | .abortReset => true
  | .precheck => false
  | .stepRun => false
  | .eraseRun => false
  | .poll _ _ => false
  | .compare => false
  | .ramWrite => false
  | .ramRead => false
  | .verifyPass => false
  | .reading => false
  | .retry _ _ _ => false

/-- The access or run of a FLASH job's phase has ended; `data` is the byte read by a single read. -/
def State.flashPhaseEnd (j : Job) (a : Active) (p : Profile) (f : FlashPart) (data : Byte) (s : State) : State :=
  match a.phase with
  | .owedReset => s.beginWork j a p
  | .precheck =>
    let want := s.jobByte j a.current
    if data &&& want ≠ want then s.finishJob j a .notErased (some a.current) (some want) (some data) none
    else s.askBoard j { a with phase := .stepRun } (p.stepRun f a.current want)
  | .stepRun => s.pollAgain j a f s.timeBase
  | .eraseRun => s.pollAgain j a f s.timeBase
  | .poll start .toggleFirst => s.askBoard j { a with phase := .poll start (.toggleSecond data) } [readAccess a.current]
  | .poll start (.toggleSecond first) =>
    if f.bitOf first = f.bitOf data then s.pollDone j a p f else s.pollBusy j a p f start
  | .poll start .data =>
    if f.bitOf data = f.bitOf (s.pollTarget j a p) then s.pollDone j a p f else s.pollBusy j a p f start
  | .poll _ .readyLine => s
  | .compare =>
    let want := s.jobByte j a.current
    if data = want then s.programStep j { a with current := a.current + 1 } p f
    else s.finishJob j a .programFault (some a.current) (some want) (some data) none
  | .timeoutReset => s.finishJob j a .timeout (some a.current) none none none
  | .abortReset => s.finishAbort j a
  | .ramWrite => s
  | .ramRead => s
  | .verifyPass => s
  | .reading => s
  | .retry _ _ _ => s

/-- The access or run of a job's phase has ended (R170 to R177). -/
def State.phaseEnd (j : Job) (a : Active) (p : Profile) (data : Byte) (s : State) : State :=
  match a.phase with
  | .ramWrite => s.askBoard j { a with phase := .ramRead } [readAccess a.current]
  | .ramRead =>
    let want := s.jobByte j a.current
    if data = want then s.ramStep j { a with current := a.current + 1 }
    else s.finishJob j a .programFault (some a.current) (some want) (some data) none
  | .verifyPass =>
    let want := s.jobByte j a.current
    if data ≠ want then s.finishJob j a .mismatch (some a.current) (some want) (some data) none
    else if j.address + j.length ≤ a.current + 1 then s.finishJob j a .done none none none none
    else s.askBoard j { a with current := a.current + 1 } [readAccess (a.current + 1)]
  | .reading => s.readByteDone j a p data
  | .retry first left same => s.retryDone j a first left same data
  | .owedReset | .precheck | .stepRun | .eraseRun | .poll _ _ | .compare | .timeoutReset | .abortReset =>
    match p.flash with
    | some f => s.flashPhaseEnd j a p f data
    | none => s

/-- The ACTIVE job goes on after its access or run has ended. A reset pair that has been written clears the lane's flag (R164). A job that ABORT ENGINE
waits for makes no further access of its own; the byte it has read is not compared (R181; log 19). -/
def State.engineAccessEnd (data : Byte) (s : State) : State :=
  match s.activeJob with
  | none => s
  | some j =>
    match j.active?, s.profileOf j.lane with
    | some a, some p =>
      let s1 := if a.phase.writesReset then s.setOwed j.lane false else s
      if a.aborting = true ∧ a.phase ≠ .abortReset then s1.abortReset j (a.countRead data) p else s1.phaseEnd j a p data
    | _, _ => s

/-- The work of a job at its start (R169). -/
def Job.startWork (j : Job) (now : Stamp) : Active :=
  { start := now, current := j.address, phase := .reading, crc := crcStart, mismatches := 0, unsteady := 0, firstBad := none,
    firstUnsteady := none, aborting := false }

/-- A job becomes ACTIVE (R168, R169): a PEEK or POKE into a write-class job's lane is cut short (R145; log 31); a line fault ends a write-class job at
once; an owed reset pair is written first; then the operation's own work begins. -/
def State.startJob (j : Job) (s : State) : State :=
  let a := j.startWork s.timeBase
  let s1 := s.setJob j.number (.active a)
  match s.profileOf j.lane with
  | none => s1
  | some p =>
    let s2 := if j.op.writeClass then s1.cutTransfer (fun b => b.boardBound && p.inRange b.address) else s1
    if j.op.writeClass && s2.laneFault p then s2.finishJob j a .lineFault (some j.address) none none none
    else match p.flash, s2.lanes[j.lane].owed with
      | some f, true => s2.askBoard j { a with phase := .owedReset } [p.pairAccess f.resetPair]
      | _, _ => s2.beginWork j a p

/-- The conditions of the start rule for a candidate (R168). -/
def State.mayStart (j : Job) (s : State) : Bool :=
  s.port.powered && !s.bus.survey &&
  (if j.op.writeClass then decide (s.run.hold = .holding ∨ s.run.hold = .resetHeld) && !s.run.rehearsal
   else decide (s.run.hold ≠ .unpowered) && !s.busKept)

/-- The candidate: the oldest entry whose state is QUEUED or WAITING (R168). -/
def State.candidate (s : State) : Option Job := s.engine.jobs.find? Job.waits

/-- One judgement of the start rule: with no job ACTIVE the candidate starts, or becomes or stays WAITING (R168). -/
def State.judgeOnce (s : State) : State :=
  if s.activeJob.isSome then s
  else match s.candidate with
    | none => s
    | some j => if s.mayStart j then s.startJob j else s.setJob j.number .waiting

/-- Judge again as long as a started job ends at once: each judgement ends at most one of the 8 entries (R165, R178). -/
def State.judgeTimes : Nat → State → State
  | 0, s => s
  | n + 1, s => s.judgeOnce.judgeTimes n

/-- The start rule is judged (R168). -/
def State.judgeStart (s : State) : State := s.judgeTimes (Config.jobLimit + 1)

/-- The bus comes to be kept while the reset pair of ABORT ENGINE waits: it is withdrawn and the reset is owed (R181). -/
def State.settleAbort (s : State) : State :=
  match s.activeJob with
  | none => s
  | some j =>
    match j.active? with
    | some a =>
      if a.phase = .abortReset ∧ s.bus.engine.isSome = true ∧ s.busKept = true then
        (({ s with bus := { s.bus with engine := none } } : State).setOwed j.lane true).finishAbort j a
      else s
    | none => s

/-- What follows every change of the conditions that the engine and the arbiter watch: the start rule is judged (R168), a waiting abort is settled
(R181), and the arbiter chooses (R139, R141). -/
def State.settle (s : State) : State := s.judgeStart.settleAbort.arbitrate

end Sys2Proof.Machine
end

