-- ==== Sys2Proof/Machine/Limits.lean ====
section
/-! DEFINITION. The limits that time reaches: the hold limit (R109), the limit of a READY_LINE poll (R172), the 50 ms of a frame under reception (R185). Whatever
moves the Time Base takes all of them that are reached by then (log 4). -/

namespace Sys2Proof.Machine

/-! ### The hold limit -/

/-- The hold-limit timer expires (R109): time has reached the limit (log 4). -/
def State.expireHold (t : HoldTimer) (s : State) : State :=
  (((s.passUntil t.start (t.limit * 1000)).cutOff .expiry .resetHeld (.targetReset .expiry)).latch .holdExpired).settle

/-- The hold limit has been reached (R109). -/
def State.holdDue (s : State) : Bool :=
  decide (s.run.hold = .holding) && s.run.timer.any (fun t => decide (t.limit * 1000 ≤ s.elapsed t.start))

/-- An expired hold ends (R109). -/
def State.expireDue (s : State) : State :=
  match s.run.timer with
  | some t => if s.holdDue then s.expireHold t else s
  | none => s

/-! ### The limit of a poll -/

/-- The poll of the ACTIVE job: the job, its work, its profile, the FLASH part, the poll start and the stage. -/
def State.polling (s : State) : Option (Job × Active × Profile × FlashPart × Stamp × PollStage) :=
  match s.activeJob with
  | none => none
  | some j =>
    match j.active?, s.profileOf j.lane with
    | some a, some p =>
      match a.phase, p.flash with
      | .poll start stage, some f => some (j, a, p, f, start, stage)
      | _, _ => none
    | _, _ => none

/-- The limit of a READY_LINE poll has been reached (R172). -/
def State.pollDue (s : State) : Bool :=
  match s.polling with
  | some (j, _, _, f, start, .readyLine) => decide (pollLimit j.op f ≤ s.elapsed start)
  | some (_, _, _, _, _, .toggleFirst) => false
  | some (_, _, _, _, _, .toggleSecond _) => false
  | some (_, _, _, _, _, .data) => false
  | none => false

/-- A READY_LINE poll times out (R172). -/
def State.pollExpire (s : State) : State :=
  match s.polling with
  | some (j, a, p, f, _, _) => if s.pollDue then (s.timeOut j a p f).settle else s
  | none => s

/-! ### The 50 ms of a frame -/

/-- The frame under reception becomes this one (R185). -/
def State.endReception (f : Frame) (s : State) : State :=
  if s.link.receiving then { s with link := { s.link with queue := s.link.queue.dropLast ++ [f] } } else s

/-- The frame under reception: when its start byte arrived, and the code byte that comes within 50 ms of it (R185; log 26). -/
def Link.reception (l : Link) : Option (Stamp × Option Byte) :=
  match l.queue.getLast? with
  | some (.receiving since code) => some (since, code)
  | some (.whole _ _) => none
  | some (.discarded _) => none
  | none => none

/-- A late frame is discarded; the echo is its code byte if that had arrived, 0x00 otherwise (R185). `told` is the code byte where a row names it (log 26). -/
def State.dropLate (told : Option Byte) (s : State) : State :=
  match s.link.reception with
  | some (since, code) => (s.passUntil since Config.frameTime).endReception (.discarded ((told.or code).getD 0))
  | none => s

/-- The frame under reception is late (R185). -/
def State.frameDue (s : State) : Bool := s.link.reception.any (fun f => decide (Config.frameTime ≤ s.elapsed f.1))

/-- A frame that has become late is discarded (R185). -/
def State.dropDue (s : State) : State := if s.frameDue then s.dropLate none else s

/-! ### All of them -/

/-- The limits that time has reached are taken (R109, R172, R185; log 4). -/
def State.takeDue (s : State) : State := s.expireDue.pollExpire.dropDue

end Sys2Proof.Machine
end

