-- ==== Sys2Proof/Machine/Resets.lean ====
section
/-! DEFINITION. The rows that reset the part and those that end a survey of overlay memory: POWER_ON, PRST_ASSERTED, PRST_RELEASED, PART_RESET,
POWER_ON_SURVEY_END, OVERLAY_SURVEY_END. A part reset that finds the bus owned lets the board access in progress end first (R137). -/

namespace Sys2Proof.Machine

/-- A reset that arrives during a commanded survey: the page it is on is completed, then it stops, its new list discarded (R54; log 11). -/
def State.stopSurvey (s : State) : State :=
  if s.overlay.survey = .commanded then
    ({ s with overlay := { s.overlay with cells := Mem.fillTo (Config.surveyPage s.freeIndex).val s.overlay.cells,
                                          survey := .idle } } : State).useFree
  else s

/-- What becomes of the owner when the work beyond the access in progress is not made: a line survey stops at once, the rest of a run is not made, and
a granted access is finished (R22, R137, R150, R182). -/
def Owner.lastAccess : Owner → Owner
  | .free => .free
  | .target => .target
  | .bench => .bench
  | .engine .lineSurvey => .free
  | .engine (.accesses lane (a :: _)) => .ended lane a
  | .engine (.accesses _ []) => .free
  | .ended lane a => .ended lane a

/-- The values of a part reset for every block, overlay memory kept or its power-on survey begun again; the input pins are as they stand
(R51, R54, R59, R86, R192). -/
def State.partReset (s : State) : State :=
  let t := s.stopSurvey
  let overlay := if t.overlay.survey = .powerOn then Overlay.powerOn else t.overlay
  State.afterReset overlay t.port.supply t.port.boardReset (fun i => t.probes[i].level) t.freeIndex t.pending

/-- POWER_ON (R50): every block takes its reset values and the power-on survey starts with all 272 pages listed. -/
def execPowerOn (supply : Nat) (probes : BitVec 4) (boardReset : Bool) (s : State) : Result :=
  .next (State.afterReset Overlay.powerOn supply boardReset (fun i => probes.getLsbD i.val) s.freeIndex s.pending)

/-- A BENCH byte that has been granted is made whole: the overlay half of a SHADOW POKE byte is written though the command is ended, the board half as
its access ends (R44, R145; log 18). -/
def State.finishGranted (s : State) : State :=
  match s.bus.owner, s.link.activity with
  | .bench, .transfer t => match t.todo with
    | b :: _ => s.transferWrite b
    | [] => s
  | _, _ => s

/-- The part is held in reset: the link goes silent, waiting requests are dropped, surveys stop, and the board access in progress is let end
(R137, R192). -/
def State.holdInReset (s : State) : State :=
  let t := s.stopSurvey.finishGranted
  { t with port := { t.port with prst := true, resetEnds := false }
           link := { t.link with queue := [], activity := .idle, sent := none }
           bus := { t.bus with owner := t.bus.owner.lastAccess, target := false, bench := none, engine := none, survey := false } }

/-- The part reset ends: at once where no board access is in progress, else as soon as that access has ended (R137; log 34). -/
def State.endReset (s : State) : State :=
  if s.bus.owner.lastAccess = .free then s.partReset else { s with port := { s.port with resetEnds := true } }

/-- PRST_ASSERTED (R192). A reset that only waits for a board access to end goes on for as long as PRST is asserted again. -/
def execPrstAsserted (s : State) : Result :=
  .next (if s.port.prst then { s with port := { s.port with resetEnds := false } } else s.holdInReset)

/-- PRST_RELEASED (R137, R192). -/
def execPrstReleased (s : State) : Result := .next (if s.port.prst then s.endReset else s)

/-- PART_RESET (R137, R192): the part reset that follows the response of RESET PART (log 34). -/
def execPartReset (s : State) : Result := .next (if s.port.prst then s else s.holdInReset.endReset)

/-- The end of a survey: the new list replaces the repair list, every page holds the blank byte that pass 3 writes, SURVEY_DONE is latched
(R49, R50, R53). -/
def State.surveyEnds (readBacks : List ReadBack) (s : State) : State :=
  ({ s with overlay := { cells := [], repairList := surveyList readBacks, survey := .idle } } : State).latch .surveyDone

/-- POWER_ON_SURVEY_END (R50). While the part is held in reset the survey does not run (R51). -/
def execPowerOnSurveyEnd (readBacks : List ReadBack) (s : State) : Result :=
  if s.port.prst = false ∧ s.overlay.survey = .powerOn then .next (s.surveyEnds readBacks) else .next s

/-- OVERLAY_SURVEY_END (R53). -/
def execOverlaySurveyEnd (readBacks : List ReadBack) (s : State) : Result :=
  if s.port.prst = false ∧ s.overlay.survey = .commanded then .next (s.surveyEnds readBacks) else .next s

end Sys2Proof.Machine
end

