-- ==== Sys2Proof/Machine/BoardEvents.lean ====
section
/-! DEFINITION. The rows that come from the target, the board and the limits: CYCLE_PRESENTED, LOST_CYCLE, BOARD_ACCESS_END, BOARD_RESET_SEEN,
BOARD_RESET_RELEASED, SUPPLY_LOST, SUPPLY_RETURNED, PROBE_EDGE, HOLD_LIMIT_EXPIRY, JOB_START, READY_LINE_ASSERTED, POLL_TIMEOUT. -/

namespace Sys2Proof.Machine

/-! ### Cycles of the target -/

/-- The kind of a target cycle (R2). -/
def Kind.presented (write : Option Byte) (fetchWired fetchStatus : Bool) : Kind :=
  if write.isSome then .write else if fetchWired && fetchStatus then .fetch else .read

/-- A target cycle is presented: the target runs and no cycle is in flight (R1, R17, R18, R19, R22, R192). A cycle that
the target makes with wait wired while a cycle granted before its reset is still in flight is not presented, as R17 says without the wiring: the model's choice
(log 45). -/
def State.mayPresent (s : State) : Bool :=
  !s.port.prst && s.port.powered && !s.netAsserted && s.port.inFlight.isNone

/-- The cycle that the target presents: kind, lane and contention from the strobes and the selects (R2, R3, R6). -/
def State.targetCycle (s : State) (address : BitVec 20) (write : Option Byte) (fetchStatus : Bool) (selects : BitVec 4) : Cycle :=
  let asserted := selects &&& s.port.selectEnables
  s.present address.toNat (laneOfSelects asserted) (Kind.presented write s.port.fetchWired fetchStatus) write (contended asserted) false

/-- CYCLE_PRESENTED (R6). -/
def execCyclePresented (address : BitVec 20) (write : Option Byte) (fetchStatus : Bool) (selects : BitVec 4) (s : State) : Result :=
  if s.mayPresent then
    let c := s.targetCycle address write fetchStatus selects
    if c.location.all s.overlay.maps then .next (s.presentCycle c).settle else .fault .noOverlayPage
  else .next s

/-- LOST_CYCLE (R17): it is neither presented nor recorded and makes no access. -/
def execLostCycle (s : State) : Result := .next s

/-! ### The end of a board access -/

/-- The owner returns to FREE (R138). -/
def State.freeBus (s : State) : State := { s with bus := { s.bus with owner := .free } }

/-- The ENGINE record of an access that has ended (R118, R170). -/
def State.recordAccess (lane : Fin 4) (a : Access) (data : Byte) (s : State) : State :=
  s.mark (.engine a.address lane (a.write.getD data) a.write.isSome)

/-- The target's board access ends: the cycle is completed (R9, R11, R14). -/
def State.targetAccessEnd (data : Byte) (s : State) : State :=
  match s.port.inFlight with
  | some c => s.freeBus.completeCycle c data
  | none => s.freeBus

/-- An access that was in progress as the part went into reset ends: the owner is FREE, and a reset that waited for it ends (R137, R192). -/
def State.heldAccessEnd (s : State) : State :=
  if s.bus.owner.lastAccess = .free then s
  else if s.port.resetEnds then s.freeBus.partReset
  else s.freeBus

/-- BOARD_ACCESS_END (R138): one access ends, `data` being the byte the board returns to a read. Of a run, the next access follows under the same grant
(log 8). Held in reset, only the access ends (R137, R192). -/
def execBoardAccessEnd (data : Byte) (s : State) : Result :=
  if s.port.prst then .next s.heldAccessEnd
  else match s.bus.owner with
  | .free => .next s
  | .engine .lineSurvey => .next s
  | .target => .next (s.targetAccessEnd data).settle
  | .bench => if s.transferMapped then .next (s.freeBus.transferAccessEnd data).settle else .fault .noOverlayPage
  | .ended lane a => .next (s.recordAccess lane a data).freeBus.settle
  | .engine (.accesses _ []) => .next s.freeBus.settle
  | .engine (.accesses lane [a]) => .next ((s.recordAccess lane a data).freeBus.engineAccessEnd data).settle
  | .engine (.accesses lane (a :: rest)) =>
    let t := s.recordAccess lane a data
    .next { t with bus := { t.bus with owner := .engine (.accesses lane rest) } }

/-! ### Board reset -/

def State.setBoardReset (b : Bool) (s : State) : State := { s with port := { s.port with boardReset := b } }

/-- Whether an assertion of the net is a board reset seen: it goes from released to asserted, sensing is enabled, the supply is present (R20). -/
def State.resetSeen (s : State) : Bool := !s.port.prst && s.port.powered && s.port.resetSense && !s.netAsserted

/-- Board reset seen (R112): with a write-class job ACTIVE the fence is applied, else the state becomes RUNNING. -/
def State.boardResetTaken (s : State) : State :=
  (s.cutOff .boardReset (if s.writeActive then .resetHeld else .running) (.targetReset .board)).latch .targetReset

/-- BOARD_RESET_SEEN (R20, R112): the board's own reset source asserts the net. -/
def execBoardResetSeen (s : State) : Result :=
  if s.resetSeen then .next (s.setBoardReset true).boardResetTaken.settle else .next (s.setBoardReset true)

/-- BOARD_RESET_RELEASED (R20): the board lets the net go; once it is released, sensing is enabled. -/
def execBoardResetReleased (s : State) : Result :=
  let t := s.setBoardReset false
  .next (if s.port.prst then t else t.senseNet)

/-! ### The supply -/

def State.setSupply (level : Nat) (s : State) : State := { s with port := { s.port with supply := level } }

/-- Every lane whose profile is present and of class FLASH owes its reset (R164). -/
def LaneRecord.owe (l : LaneRecord) : LaneRecord :=
  if l.profile.any (fun p => decide (p.cls = .flash)) then { l with owed := true } else l

/-- Supply lost at the arbiter and the line survey: a waiting ENGINE request is withdrawn, only the access in progress is finished (R142, R150, R182). -/
def State.engineBusLost (s : State) : State :=
  { s with bus := { s.bus with owner := s.bus.owner.lastAccess, engine := none, survey := false } }

/-- Supply lost ends an ACTIVE job POWER_LOST; a waiting ABORT ENGINE then makes its cancellations and is answered (R181, R182; log 36). -/
def State.jobPowerLost (s : State) : State :=
  match s.activeJob with
  | none => s
  | some j =>
    match j.active? with
    | none => s
    | some a =>
      let t := s.finishJob j a .powerLost (some a.current) none none (j.op.sumCrc a.crc)
      if s.link.activity = .abort then
        t.cancelAll.respond .ok 0x74 (.ended ((s.engine.jobs.filter Job.waits).length + 1))
      else t

/-- Supply lost (R22, R113, R142, R146, R150, R164, R182). A PEEK or POKE is cut short at the first byte whose BENCH request had not been granted, a
board-bound one (R146). -/
def State.supplyLost (s : State) : State :=
  let s1 : State := { s with port := { s.port with powered := false } }
  let s2 := (s1.cutOff .power .unpowered (.power true)).latch .power
  let s3 := (s2.cutTransfer TransferByte.boardBound).engineBusLost.jobPowerLost
  { s3 with lanes := s3.lanes.map LaneRecord.owe }

/-- Supply returned (R23, R114): RESET_HELD with power-up hold, else the standing claims are taken up. Sensing of the reset net waits for its next
release (R20; log 16). -/
def State.supplyReturned (s : State) : State :=
  let s1 : State := { s with port := { s.port with powered := true, resetSense := false } }
  let s2 := if s1.run.powerUpHold then s1.setHold .resetHeld else s1.takeUpClaims
  (s2.mark (.power false)).latch .power

/-- The supply monitor judges the supply against the levels of the threshold index (R21). -/
def State.supervise (s : State) : State :=
  if s.port.powered then
    if s.port.supply < Config.lossLevel s.run.threshold then s.supplyLost.settle else s
  else if Config.returnLevel s.run.threshold ≤ s.port.supply then s.supplyReturned.settle else s

/-- The supply pin reaches a level; held in reset, changes of the supply are not sensed (R21, R192; log 15). -/
def State.supplyAt (level : Nat) (s : State) : State :=
  if s.port.prst then s.setSupply level else (s.setSupply level).supervise

/-- SUPPLY_LOST (R113): the supply falls to this level; below the loss level the supply is lost. -/
def execSupplyLost (level : Nat) (s : State) : Result := .next (s.supplyAt level)

/-- SUPPLY_RETURNED (R114): the supply rises to this level; at the return level it has returned. -/
def execSupplyReturned (level : Nat) (s : State) : Result := .next (s.supplyAt level)

/-! ### Probe edges -/

def State.setProbeLine (line : Fin 4) (p : ProbeLine) (s : State) : State := { s with probes := s.probes.set line p }

/-- The sense setting admits an edge (R87). -/
def Sense.admits : Sense → Bool → Bool
  | .off, _ => false
  | .rise, rising => rising
  | .fall, rising => !rising
  | .both, _ => true

/-- A sensed edge is stamped, unless hold-first protects a kept stamp (R88). -/
def ProbeLine.stamped (p : ProbeLine) (rising : Bool) (now : Stamp) : ProbeLine :=
  if rising then
    if p.holdFirst && p.riseKept then p else { p with riseStamp := now, riseKept := true }
  else
    if p.holdFirst && p.fallKept then p else { p with fallStamp := now, fallKept := true }

/-- The claim of a probe line: its hold level, no address (R90). -/
def probeRaise (line : Fin 4) (level : Nat) : Raise :=
  { source := .probe line, level := some level, address := none, window := none, step := none }

/-- Record and note of a sensed edge; the EDGE record carries the edge's reading (R89). -/
def State.edgeTaken (line : Fin 4) (rising : Bool) (p : ProbeLine) (s : State) : State :=
  let s1 := s.setProbeLine line (p.stamped rising s.timeBase)
  let s2 := if p.record then s1.offer (.edge line rising) true s.timeBase else s1
  if p.note then s2.latch .probe else s2

/-- PROBE_EDGE (R87): the level changes; a sensed edge is stamped and carries out its actions. Held in reset, edges are not sensed (R192). Where the
edge's claim ends a hold (R104), its EDGE record is handed over before the HOLD_END marker, an order that R89 and R127 leave open: the model's choice
(log 39). -/
def execProbeEdge (line : Fin 4) (rising : Bool) (s : State) : Result :=
  let p := s.probes[line]
  if p.level = rising then .next s
  else
    let q := { p with level := rising }
    if s.port.prst || !p.sense.admits rising then .next (s.setProbeLine line q)
    else match p.holdLevel with
      | none => .next (s.edgeTaken line rising q)
      | some level =>
        if s.cycleMapped then .next ((s.edgeTaken line rising q).raiseClaim (probeRaise line level)).settle
        else .fault .noOverlayPage

/-! ### Limits and the engine's own events -/

/-- HOLD_LIMIT_EXPIRY (R109). Expiry is taken only in HOLDING. The other limits that time has then reached are taken after it (log 4). -/
def execHoldLimitExpiry (s : State) : Result :=
  match s.run.timer with
  | some t => if s.run.hold = .holding ∧ s.port.prst = false then .next (s.expireHold t).takeDue else .next s
  | none => .next s

/-- JOB_START (R168): the start rule is judged; every other step judges it too when a condition changes (log 28). -/
def execJobStart (s : State) : Result := .next (if s.port.prst then s else s.settle)

/-- READY_LINE_ASSERTED (R172): a READY_LINE poll ends done and the job proceeds. -/
def execReadyLineAsserted (s : State) : Result :=
  match s.polling with
  | some (j, a, p, f, _, .readyLine) => if s.port.prst then .next s else .next (s.pollDone j a p f).settle
  | some (_, _, _, _, _, .toggleFirst) => .next s
  | some (_, _, _, _, _, .toggleSecond _) => .next s
  | some (_, _, _, _, _, .data) => .next s
  | none => .next s

/-- POLL_TIMEOUT (R172): a poll's limit is reached. A READY_LINE poll times out at once; of a TOGGLE or DATA poll the timeout is judged as the read or pair in
progress ends, so only the time has passed here. The other limits that time has then reached are taken after it (log 4). -/
def execPollTimeout (s : State) : Result :=
  match s.polling with
  | none => .next s
  | some (j, a, p, f, start, stage) =>
    if s.port.prst then .next s
    else
      let t := s.passUntil start (pollLimit j.op f)
      match stage with
      | .readyLine => .next (t.timeOut j a p f).settle.takeDue
      | .toggleFirst => .next t.takeDue
      | .toggleSecond _ => .next t.takeDue
      | .data => .next t.takeDue

end Sys2Proof.Machine
end

