-- ==== Sys2Proof/Machine/BusCommands.lean ====
section
/-! DEFINITION. The commands on the board bus: PEEK, POKE, SURVEY LINES, READ LINE MAP, CLEAR LINE MAP, and the row LINE_SURVEY_END (8.3, 8.4). -/

namespace Sys2Proof.Machine

/-! ### PEEK and POKE -/

/-- The path and view lane of a PEEK or POKE: whether it is TARGET_VIEW and its lane; none where R144's check 2 refuses them. -/
def viewOfCode (path lane : Nat) : Option (Bool × Lane) :=
  match path with
  | 0 => some (false, none)
  | 1 => (cycleLaneOfCode lane).map (fun l => (true, l))
  | _ => none

/-- The address and the last byte's address are target addresses (R144, check 2). -/
def spanFits (address count : Nat) : Bool := decide (address < Config.addressLimit) && decide (address + count ≤ Config.addressLimit)

/-- The refusal of R144's checks 4 to 7 for the bytes that the command resolved to, if any. -/
def State.transferRefusal (targetView : Bool) (bytes : List TransferByte) (s : State) : Option Status :=
  let bound := bytes.filter TransferByte.boardBound
  if targetView && decide (s.overlay.survey = .commanded) && bytes.any (fun b => b.route.isOverlay) then some .overlayBusy
  else if bound.isEmpty then none
  else if s.port.powered = false then some .unpowered
  else if s.busKept then some .targetRunning
  else if s.activeJob.any (fun j => j.op.writeClass && (s.profileOf j.lane).any (fun p => bound.any (fun b => p.inRange b.address))) then
    some .laneBusy
  else none

/-- A PEEK or POKE past the checks of its fields (R143, R144). -/
def State.startTransfer (c : Instr) (form : TransferForm) (bytewise targetView : Bool) (bytes : List TransferByte) (s : State) : Result :=
  match s.transferRefusal targetView bytes with
  | some status => s.reject c status
  | none =>
    if bytes.all (fun b => b.location.all s.overlay.maps) then
      .next (s.runTransfer bytes { form := form, bytewise := bytewise, todo := bytes, made := [], count := 0 }).settle
    else .fault .noOverlayPage

/-- PEEK (R143, R144). -/
def execPeek (path : Nat) (address : Nat) (count : Nat) (lane : Nat) (s : State) : Result :=
  s.onTaken (.peek path address count lane) (fun t =>
    match viewOfCode path lane with
    | none => t.reject (.peek path address count lane) .badValue
    | some (view, l) =>
      if count = 0 ∨ 256 < count ∨ spanFits address count = false then t.reject (.peek path address count lane) .badValue
      else t.startTransfer (.peek path address count lane) .peek s.framed view
        (transferBytes t.windows view l address (List.replicate count none)))

/-- POKE (R143, R144). -/
def execPoke (path : Nat) (address : Nat) (data : List Byte) (lane : Nat) (s : State) : Result :=
  s.onTaken (.poke path address data lane) (fun t =>
    match viewOfCode path lane with
    | none => t.reject (.poke path address data lane) .badValue
    | some (view, l) =>
      if spanFits address data.length = false then t.reject (.poke path address data lane) .badValue
      else if data.length = 0 ∨ 256 < data.length then t.reject (.poke path address data lane) .badLength
      else t.startTransfer (.poke path address data lane) .poke s.framed view
        (transferBytes t.windows view l address (data.map some)))

/-! ### The line survey -/

/-- The hold states that admit a line survey (R147, check 3). -/
def State.mayLineSurvey (s : State) : Bool :=
  decide (s.run.hold = .resetHeld) || (s.run.rehearsal && decide (s.run.hold = .running ∨ s.run.hold = .holdArmed))

/-- SURVEY LINES (R147): one ENGINE run. -/
def execSurveyLines (s : State) : Result :=
  s.onTaken .surveyLines (fun t =>
    if t.bus.survey then t.reject .surveyLines .wrongState
    else if t.mayLineSurvey = false then t.reject .surveyLines .wrongState
    else if t.activeJob.isSome then t.reject .surveyLines .engineActive
    else (({ t with bus := { t.bus with survey := true } } : State).requestEngine .lineSurvey).settle.accept .surveyLines .empty)

/-- READ LINE MAP (R151). -/
def execReadLineMap (s : State) : Result :=
  s.onTaken .readLineMap (fun t => t.accept .readLineMap (.lineMap t.bus.lineMap.toList t.bus.survey))

/-- CLEAR LINE MAP (R151). -/
def execClearLineMap (s : State) : Result :=
  s.onTaken .clearLineMap (fun t =>
    if t.bus.survey then t.reject .clearLineMap .wrongState
    else ({ t with bus := { t.bus with lineMap := Vector.replicate 28 .untested } } : State).accept .clearLineMap .empty)

/-- The level of line `l` in the phase of line `m` (R148; log 35). -/
def levelRead (phases : List (BitVec 28)) (m l : Fin 28) : Bool := (phases.getD m.val 0).getLsbD l.val

/-- The judgement of a line from the 56 sets of readings (R149). -/
def judgeLine (high low : List (BitVec 28)) (l : Fin 28) : LineEntry :=
  if levelRead high l l = false then .stuckLow
  else if levelRead low l l then .stuckHigh
  else match (List.finRange 28).find? (fun m => decide (m ≠ l) && levelRead high m l && !levelRead low m l) with
    | some m => .bridged m
    | none => .good

/-- LINE_SURVEY_END (R150): the entries replace the map together, SURVEY_DONE is latched, and the start rule is judged (R168). -/
def execLineSurveyEnd (high : List (BitVec 28)) (low : List (BitVec 28)) (s : State) : Result :=
  if s.bus.owner = .engine .lineSurvey ∧ s.port.prst = false then
    .next (({ s with bus := { s.bus with owner := .free, lineMap := Vector.ofFn (judgeLine high low), survey := false } } : State).latch
      .surveyDone).settle
  else .next s

end Sys2Proof.Machine
end

