-- ==== Sys2Proof/Machine/EngineCommands.lean ====
section
/-! DEFINITION. The commands on the Programming Engine: SUBMIT, COLLECT, JOB STATUS, CANCEL JOB, ABORT ENGINE (chapter 10). -/

namespace Sys2Proof.Machine

/-! ### SUBMIT -/

/-- The operation that the fields give; none where R166's check 2 refuses the operation, the slot, the slot offset or the policy. -/
def submitOperation (f : SubmitFields) : Option Operation :=
  match f.operation with
  | 0 => some .eraseSector
  | 1 => some .eraseLane
  | 2 => match laneOfCode f.slot with
    | some slot => if f.slotOffset ≤ 4095 then some (.program slot f.slotOffset f.precheck f.verifyAfter) else none
    | none => none
  | 3 => match laneOfCode f.slot, Policy.ofCode f.policy with
    | some slot, some policy => if f.slotOffset ≤ 4095 then some (.verify slot f.slotOffset policy) else none
    | _, _ => none
  | 4 => some .blankCheck
  | 5 => some .sum
  | _ => none

/-- ROM_ONLY admits the read class, RAM also PROGRAM, FLASH all (R166, check 5). -/
def LaneClass.admits : LaneClass → Operation → Bool
  | .romOnly, op => !op.writeClass
  | .ram, op => !op.writeClass || op.options.isSome
  | .flash, _ => true

/-- The range of a job: the sector of an ERASE_SECTOR, the lane of an ERASE_LANE, else the fields' own (R167); or the refusal of R166's checks 6 and 7. -/
def submitRange (op : Operation) (f : SubmitFields) (p : Profile) : Except Status (Nat × Nat) :=
  match op with
  | .eraseSector =>
    if p.inRange f.address = false then .error .badValue
    else match p.sectors.find? (fun q => decide (q.1 = f.address)) with
      | some q => .ok q
      | none => .error .badAlign
  | .eraseLane => .ok (p.base, p.size)
  | .program _ _ _ _ | .verify _ _ _ | .blankCheck | .sum =>
    if f.length = 0 ∨ f.address < p.base ∨ p.limit < f.address + f.length then .error .badValue else .ok (f.address, f.length)

/-- PROGRAM and VERIFY need a SEALED slot whose fill holds offset + length (R166, check 8). -/
def State.slotReady (op : Operation) (length : Nat) (s : State) : Bool :=
  match op.slot with
  | some (slot, offset) =>
    (match s.slots[slot].state with
     | .sealed _ => true
     | .empty => false
     | .filling => false) && decide (offset + length ≤ s.slots[slot].contents.length)
  | none => true

/-- A number is held by an entry still in the table (R165). -/
def Engine.holds (e : Engine) (n : Nat) : Bool := e.jobs.any (fun j => decide (j.number = n))

/-- The number of a new entry: the next job number, or the next after it that no entry holds, modulo 256 (R165). -/
def Engine.newNumber (e : Engine) : Nat :=
  (((List.range 256).map (fun i => (e.nextNumber + i) % 256)).find? (fun n => !e.holds n)).getD e.nextNumber

/-- The bind count of the slot an operation names goes up by 1 (R157). -/
def State.bind (op : Operation) (s : State) : State :=
  match op.slot with
  | some (slot, _) => { s with slots := s.slots.set slot { s.slots[slot] with binds := s.slots[slot].binds + 1 } }
  | none => s

/-- A new entry joins the table at its newest end, QUEUED, and its slot is bound (R165, R167). -/
def State.enterJob (op : Operation) (lane : Fin 4) (address length : Nat) (s : State) : State :=
  let n := s.engine.newNumber
  let j : Job := { number := n, op := op, lane := lane, address := address, length := length, state := .queued }
  ({ s with engine := { s.engine with jobs := s.engine.jobs ++ [j], nextNumber := (n + 1) % 256 } } : State).bind op

/-- The state of the entry with this number. -/
def Engine.stateOf (e : Engine) (n : Nat) : JobState := ((e.jobs.find? (fun j => decide (j.number = n))).map Job.state).getD .queued

/-- The refusal of a SUBMIT's checks 3 to 8, or the range of its entry (R166). -/
def State.submitCheck (op : Operation) (lane : Fin 4) (f : SubmitFields) (s : State) : Except Status (Nat × Nat) :=
  if Config.jobLimit ≤ s.engine.jobs.length then .error .queueFull
  else match s.profileOf lane with
    | none => .error .noProfile
    | some p =>
      if p.cls.admits op = false then .error .badValue
      else match submitRange op f p with
        | .error status => .error status
        | .ok (address, length) => if s.slotReady op length then .ok (address, length) else .error .slotNotReady

/-- SUBMIT (R166, R167). -/
def execSubmit (fields : SubmitFields) (s : State) : Result :=
  s.onTaken (.submit fields) (fun t =>
    match submitOperation fields, laneOfCode fields.lane with
    | some op, some lane =>
      match t.submitCheck op lane fields with
      | .error status => t.reject (.submit fields) status
      | .ok (address, length) =>
        let n := t.engine.newNumber
        let u := (t.enterJob op lane address length).settle
        u.accept (.submit fields) (.submitted n (u.engine.stateOf n))
    | _, _ => t.reject (.submit fields) .badValue)

/-! ### Completions, cancelling, aborting -/

/-- The ENDED entry that ended earliest, with its completion (R179). -/
def Engine.earliest (e : Engine) : Option (Job × Completion) :=
  match e.endOrder with
  | [] => none
  | n :: _ =>
    match e.jobs.find? (fun j => decide (j.number = n)) with
    | some j =>
      match j.state with
      | .ended c => some (j, c)
      | .queued => none
      | .waiting => none
      | .active _ => none
    | none => none

/-- An entry leaves the table (R179). -/
def Engine.remove (e : Engine) (n : Nat) : Engine :=
  { e with jobs := e.jobs.filter (fun j => decide (j.number ≠ n)), endOrder := e.endOrder.drop 1 }

/-- COLLECT (R179). -/
def execCollect (s : State) : Result :=
  s.onTaken .collect (fun t =>
    match t.engine.earliest with
    | some (j, c) => ({ t with engine := t.engine.remove j.number } : State).accept .collect (.completion j c)
    | none => t.reject .collect .notFound)

/-- JOB STATUS (R179). -/
def execJobStatus (s : State) : Result :=
  s.onTaken .jobStatus (fun t => t.accept .jobStatus (.jobs t.engine.jobs t.timeBase))

/-- CANCEL JOB (R180). -/
def execCancelJob (number : Nat) (s : State) : Result :=
  s.onTaken (.cancelJob number) (fun t =>
    match t.engine.jobs.find? (fun j => decide (j.number = number)) with
    | none => t.reject (.cancelJob number) .notFound
    | some j =>
      match j.state with
      | .queued => (t.cancel j).settle.accept (.cancelJob number) .empty
      | .waiting => (t.cancel j).settle.accept (.cancelJob number) .empty
      | .active _ => t.reject (.cancelJob number) .engineActive
      | .ended _ => t.reject (.cancelJob number) .notFound)

/-- An engine access or run is in progress (R181, step 1). -/
def Bus.engineOwns (b : Bus) : Bool :=
  match b.owner with
  | .engine _ => true
  | .free => false
  | .target => false
  | .bench => false
  | .ended _ _ => false

/-- ABORT ENGINE on the ACTIVE job: a granted access or run is completed first; a waiting request is withdrawn, a READY_LINE wait given up (R181). -/
def State.abortActive (j : Job) (a : Active) (s : State) : State :=
  if s.bus.engineOwns then s.setJob j.number (.active { a with aborting := true })
  else
    let t : State := { s with bus := { s.bus with engine := none } }
    match t.profileOf j.lane with
    | some p => (t.abortReset j a p).settle
    | none => (t.finishAbort j a).settle

/-- ABORT ENGINE (R181). -/
def execAbortEngine (s : State) : Result :=
  s.onTaken .abortEngine (fun t =>
    match t.activeJob with
    | none => t.cancelAll.settle.accept .abortEngine (.ended (t.engine.jobs.filter Job.waits).length)
    | some j =>
      match j.active? with
      | some a => .next ((t.occupy .abort).abortActive j a)
      | none => t.cancelAll.settle.accept .abortEngine (.ended (t.engine.jobs.filter Job.waits).length))

end Sys2Proof.Machine
end

