-- ==== Sys2Proof/Machine/LinkCommands.lean ====
section
/-! DEFINITION. The rows of the bench link itself: frames arriving and discarded, the link rate, identification, notices, RESET PART (chapter 11). -/

namespace Sys2Proof.Machine

/-! ### The receiver -/

/-- LATE_FRAME (R185): 50 ms have passed since the start byte. The other limits that time has then reached are taken after it (log 4). The row may name the
code byte that had arrived; else it is the one START_BYTE_RECEIVED named (log 26). -/
def execLateFrame (code : Option Byte) (s : State) : Result := .next (s.dropLate code).takeDue

/-- OVERLONG_FRAME (R185): discarded at the second length byte, before the code byte. -/
def execOverlongFrame (s : State) : Result := .next (s.endReception (.discarded 0))

/-- START_BYTE_NO_ROOM (R186): the byte and those up to the next 0xA5 are ignored, with no response. -/
def execStartByteNoRoom (s : State) : Result := .next s

/-- START_BYTE_RECEIVED (R186): with the receiver hunting and room in the queue a frame begins reception. Held in reset every byte is ignored (R192). The row
names the code byte that comes within 50 ms, if one does (log 26). -/
def execStartByteReceived (s : State) (code : Option Byte := none) : Result :=
  if s.port.prst then .next s else .next (s.queueFrame (.receiving s.timeBase code))

/-- The check byte of a frame with this code and payload is right (R185). -/
def checkRight (code : Byte) (payload : List Byte) (check : Byte) : Bool :=
  decide (checkByte (leBytes 2 payload.length ++ [code] ++ payload) = check)

/-- CHECK_BYTE_RECEIVED (R185): the frame is complete, or discarded when its check byte is bad. A check byte that comes 50 ms or more after the start byte
finds the frame late: it has been discarded, and the byte is one outside a frame. -/
def execCheckByteReceived (code : Byte) (payload : List Byte) (check : Byte) (s : State) : Result :=
  .next (if s.frameDue then s.dropDue
    else s.endReception (if checkRight code payload check then .whole code payload else .discarded code))

/-- FRAME_ERROR (R187, check 1). -/
def execFrameError (code : Byte) (s : State) : Result :=
  s.onTaken (.frameError code) (fun t => .next (t.respond .frameError code .empty))

/-- UNKNOWN_COMMAND (R187, check 2). A frame whose code is in the command table is no such frame (log 5). -/
def execUnknownCommand (code : Byte) (payload : List Byte) (s : State) : Result :=
  if (Reader.command code).isSome then .next s
  else s.onTaken (.unknownCommand code payload) (fun t => .next (t.respond .unknownCommand code .empty))

/-- LINK_RATE_CHANGE (R184): receiver and transmitter change once the response has left the line; a frame under reception is discarded. -/
def execLinkRateChange (code : Option Byte) (s : State) : Result :=
  match s.link.activity with
  | .rateChange rate =>
    .next (State.endReception (.discarded (code.getD 0)) { s with link := { s.link with rate := rate, activity := .idle } })
  | .idle => .next s
  | .sending => .next s
  | .transfer _ => .next s
  | .inject => .next s
  | .release => .next s
  | .floor => .next s
  | .abort => .next s
  | .reset => .next s

/-! ### Commands -/

/-- IDENTIFY (R191). -/
def execIdentify (s : State) : Result :=
  s.onTaken .identify (fun t => t.accept .identify (.identify t.overlay.capacity (decide (t.overlay.survey = .powerOn))))

/-- READ NOTICES (R189): it clears every flag it returned. -/
def execReadNotices (s : State) : Result :=
  s.onTaken .readNotices (fun t =>
    ({ t with link := { t.link with pending := 0 } } : State).accept .readNotices (.notices t.link.pending t.link.mask))

/-- SET NOTICE MASK (R190): bit 15 is ignored. -/
def execSetNoticeMask (mask : BitVec 16) (s : State) : Result :=
  s.onTaken (.setNoticeMask mask) (fun t =>
    ({ t with link := { t.link with mask := mask.setWidth 15 } } : State).accept (.setNoticeMask mask) .empty)

/-- SET LINK RATE (R184): the OK response goes out at the old rate and the change is scheduled for its end. -/
def execSetLinkRate (rate : Nat) (s : State) : Result :=
  s.onTaken (.setLinkRate rate) (fun t =>
    if h : rate < 4 then
      if t.link.rate = ⟨rate, h⟩ then t.accept (.setLinkRate rate) .empty
      else .next ((t.respond .ok (Instr.code (.setLinkRate rate)) .empty).occupy (.rateChange ⟨rate, h⟩))
    else t.reject (.setLinkRate rate) .badValue)

/-- RESET PART (R192): OK, and a part reset once the response has left the line. -/
def execResetPart (s : State) : Result :=
  s.onTaken .resetPart (fun t => .next ((t.respond .ok (Instr.code .resetPart) .empty).occupy .reset))

end Sys2Proof.Machine
end

