-- ==== Sys2Proof/Machine/OverlayCommands.lean ====
section
/-! DEFINITION. The commands on overlay memory: SURVEY OVERLAY, READ REPAIR MAP, WRITE OVERLAY, READ OVERLAY (3.5 to 3.7). WRONG_STATE during the power-on
survey is judged by `State.onTaken`. -/

namespace Sys2Proof.Machine

/-- A survey started by SURVEY OVERLAY is running. -/
def State.surveying (s : State) : Bool := decide (s.overlay.survey = .commanded)

/-- An enabled record of an overlay kind stands, or the cycle in flight has an overlay route (R52). -/
def State.windowsLive (s : State) : Bool :=
  s.windows.toList.any (fun w => w.enabled && w.kind.isOverlay) || s.port.inFlight.any (fun c => c.route.isOverlay)

/-- SURVEY OVERLAY (R52). -/
def execSurveyOverlay (s : State) : Result :=
  s.onTaken .surveyOverlay (fun t =>
    if t.surveying then t.reject .surveyOverlay .overlayBusy
    else if t.windowsLive then t.reject .surveyOverlay .windowsLive
    else ({ t with overlay := { t.overlay with survey := .commanded } } : State).accept .surveyOverlay .empty)

/-- READ REPAIR MAP (R55). -/
def execReadRepairMap (s : State) : Result :=
  s.onTaken .readRepairMap (fun t => t.accept .readRepairMap (.repairMap t.overlay.repairList t.overlay.capacity t.surveying))

/-- The bytes of a READ OVERLAY or WRITE OVERLAY, at consecutive offsets of one logical page (R56, R57). -/
def overlayBytes (page : Nat) : Nat → List (Option Byte) → List TransferByte
  | _, [] => []
  | offset, w :: rest =>
    { address := page * Config.pageSize + offset, write := w, route := .overlay, location := some { page := page, offset := offset } } ::
      overlayBytes page (offset + 1) rest

/-- The bytes are made one at a time in ascending offset order and the response follows the last of them (R56, R57): in the command's own step, or, for a
command that comes from the receive queue, one byte a step (R58; log 38). -/
def State.startOverlay (form : TransferForm) (bytewise : Bool) (bytes : List TransferByte) (s : State) : Result :=
  .next (s.runTransfer bytes { form := form, bytewise := bytewise, todo := bytes, made := [], count := 0 })

/-- WRITE OVERLAY (R56). -/
def execWriteOverlay (page : Nat) (offset : Nat) (data : List Byte) (s : State) : Result :=
  s.onTaken (.writeOverlay page offset data) (fun t =>
    if t.surveying then t.reject (.writeOverlay page offset data) .overlayBusy
    else if data.length = 0 ∨ 256 < data.length then t.reject (.writeOverlay page offset data) .badLength
    else if t.overlay.capacity ≤ page ∨ 256 < offset + data.length then t.reject (.writeOverlay page offset data) .badValue
    else t.startOverlay .writeOverlay s.framed (overlayBytes page offset (data.map some)))

/-- READ OVERLAY (R57). -/
def execReadOverlay (page : Nat) (offset : Nat) (count : Nat) (s : State) : Result :=
  s.onTaken (.readOverlay page offset count) (fun t =>
    if t.surveying then t.reject (.readOverlay page offset count) .overlayBusy
    else if count = 0 ∨ 256 < count ∨ t.overlay.capacity ≤ page ∨ 256 < offset + count then t.reject (.readOverlay page offset count) .badValue
    else t.startOverlay .readOverlay s.framed (overlayBytes page offset (List.replicate count none)))

end Sys2Proof.Machine
end

