-- ==== Sys2Proof/Machine/RunCommands.lean ====
section
/-! DEFINITION. The commands on run control: SET HOLD OPTIONS, SET FLOOR, HALT, RELEASE, RESET TARGET, RESUME, REHEARSE, INJECT, END REHEARSAL,
LIST CLAIMS (chapter 6). -/

namespace Sys2Proof.Machine

/-! ### Hold options -/

/-- A waiting step of kind FETCH stands (R102). -/
def RunControl.fetchStepWaits (r : RunControl) : Bool :=
  r.claims.any (fun c => c.step.any (fun p => !p.satisfied && decide (p.kind = .fetch)))

/-- The WRONG_STATE check of SET HOLD OPTIONS (R102). -/
def State.optionsBarred (f : HoldFields) (s : State) : Bool :=
  (decide (s.run.hold = .holding) && (f.waitWired != s.port.waitWired)) ||
  (s.port.fetchWired && !f.fetchWired && s.run.fetchStepWaits && !s.run.rehearsal)

/-- The options are replaced (R5, R102). -/
def State.setOptions (f : HoldFields) (threshold : Fin 4) (s : State) : State :=
  { s with port := { s.port with waitWired := f.waitWired, fetchWired := f.fetchWired, selectEnables := f.selectEnables }
           run := { s.run with holdLimit := f.holdLimit, powerUpHold := f.powerUpHold, threshold := threshold } }

/-- Run control acts on a changed wait wiring (R102). -/
def State.rewired (s : State) : State :=
  if s.run.rehearsal then s
  else if s.port.waitWired then (if s.run.hold = .running ∧ s.run.anyLive = true then s.setHold .holdArmed else s)
  else if s.run.hold = .holdArmed then (s.setHold .running).latch .holdMissed
  else s

/-- What follows the replacement: the wiring and the supply are judged anew where they changed, in an order the manual leaves open when both did
(R21, R102; log 14). -/
def State.optionsTaken (wiring threshold : Bool) (s : State) : State :=
  match wiring, threshold with
  | false, false => s
  | true, false => s.rewired
  | false, true => s.supervise
  | true, true => if Config.waitWiringFirst s.freeIndex then s.useFree.rewired.supervise else s.useFree.supervise.rewired

/-- SET HOLD OPTIONS (R102). -/
def execSetHoldOptions (fields : HoldFields) (s : State) : Result :=
  s.onTaken (.setHoldOptions fields) (fun t =>
    if h : fields.threshold < 4 ∧ fields.holdLimit ≤ 60000 then
      if t.optionsBarred fields then t.reject (.setHoldOptions fields) .wrongState
      else
        ((t.setOptions fields ⟨fields.threshold, h.1⟩).optionsTaken (fields.waitWired != t.port.waitWired)
          (decide (fields.threshold ≠ t.run.threshold.val))).settle.accept (.setHoldOptions fields) .empty
    else t.reject (.setHoldOptions fields) .badValue)

/-! ### The floor -/

def State.withFloor (floor : Nat) (s : State) : State := { s with run := { s.run with floor := floor } }

/-- A claim has become live by the new floor (R102). -/
def RunControl.becomesLive (r : RunControl) (floor : Nat) : Bool := r.claims.any (fun c => c.live floor && !c.live r.floor)

/-- The held cycle is an injected one, so the response of the command that lets it go waits for it (R108). -/
def State.injectedHeld (s : State) : Bool := s.port.inFlight.any (fun c => c.injected)

/-- Run control acts on the new floor where no hold ends (R102). -/
def State.floorTaken (floor : Nat) (s : State) : State :=
  let t := s.withFloor floor
  match s.run.hold with
  | .holdArmed => if t.run.anyLive then t else t.setHold .running
  | .running => if s.run.becomesLive floor then t.armOrMiss else t
  | .holding => t
  | .resetHeld => t
  | .unpowered => t

/-- SET FLOOR (R102, R104, R108). -/
def execSetFloor (floor : Nat) (s : State) : Result :=
  s.onTaken (.setFloor floor) (fun t =>
    if 8 < floor then t.reject (.setFloor floor) .badValue
    else if t.run.hold = .holding ∧ (t.withFloor floor).run.anyHolding = false then
      if t.writeActive then t.reject (.setFloor floor) .engineActive
      else if t.cycleMapped then
        if t.injectedHeld then .next (((t.withFloor floor).occupy .floor).endHoldByFloor).settle
        else (t.withFloor floor).endHoldByFloor.settle.accept (.setFloor floor) (.floor none)
      else .fault .noOverlayPage
    else (t.floorTaken floor).settle.accept (.setFloor floor) (.floor none))

/-! ### HALT and RELEASE -/

/-- The HALT claim: the level the command carries, no address (R95, R103). -/
def haltRaise (level : Nat) : Raise := { source := .halt, level := some level, address := none, window := none, step := none }

/-- HALT (R103). -/
def execHalt (level : Nat) (s : State) : Result :=
  s.onTaken (.halt level) (fun t =>
    if 7 < level then t.reject (.halt level) .badValue
    else if t.cycleMapped then
      let u := (t.raiseClaim (haltRaise level)).settle
      u.accept (.halt level) (.hold u.run.hold)
    else .fault .noOverlayPage)

/-- The modes of a RELEASE, with what each carries (R105). -/
inductive ReleaseMode where
  | proceed
  | substitute (byte : Byte)
  | step (kind : StepKind)
  deriving DecidableEq, Repr

/-- The mode that the fields give; none where R105's first check refuses it (a SUBSTITUTE that carries no byte: log 30). A byte or a step kind that stands
in the frame of a mode that does not use it is not judged: the model's choice (log 41). -/
def releaseMode (mode : Nat) (byte : Option Byte) (stepKind : Option Nat) : Option ReleaseMode :=
  match mode with
  | 0 => some .proceed
  | 1 => byte.map .substitute
  | 2 => (stepKind.bind StepKind.ofCode).map .step
  | _ => none

/-- What a RELEASE names: one source, or ALL (0xFF). -/
inductive ReleaseTarget where
  | one (source : Source)
  | all
  deriving DecidableEq, Repr

def releaseTarget (source : Nat) : Option ReleaseTarget :=
  if source = 255 then some .all else (Source.ofCode source).map .one

/-- The claims that a RELEASE leaves (R106). -/
def ReleaseTarget.remaining (r : ReleaseTarget) (claims : List Claim) : List Claim :=
  match r with
  | .one src => claims.filter (fun c => decide (c.source ≠ src))
  | .all => []

/-- Whether there is a claim to remove (R105, check 4). -/
def ReleaseTarget.found (r : ReleaseTarget) (claims : List Claim) : Bool :=
  match r with
  | .one src => claims.any (fun c => decide (c.source = src))
  | .all => !claims.isEmpty

def State.withClaims (claims : List Claim) (s : State) : State := { s with run := { s.run with claims := claims } }

/-- The STEP claim: the step kind and the address of the released cycle (R95, R106). -/
def stepRaise (kind : StepKind) (address : Option Nat) : Raise :=
  { source := .step, level := none, address := address, window := none, step := some kind }

/-- A hold that a RELEASE ends, and the held cycle by the mode (R106). -/
def State.releaseHold (mode : ReleaseMode) (s : State) : State :=
  let t := s.endHold .release
  match mode with
  | .proceed => t.afterHold.proceedHeld
  | .substitute byte => t.afterHold.substituteHeld byte
  | .step kind => ((t.enterClaim (stepRaise kind (t.port.inFlight.map Cycle.address))).setHold .holdArmed).proceedHeld

/-- A RELEASE that ends no hold (R106). -/
def State.releaseQuietly (s : State) : State :=
  if s.run.hold = .holdArmed ∧ s.run.anyLive = false then s.setHold .running else s

/-- The response of a RELEASE that waits for no cycle (R107). -/
def State.acceptRelease (c : Instr) (s : State) : Result :=
  s.accept c (.release s.run.hold (byUrgency s.run.claims) s.run.floor none)

/-- A RELEASE whose fields are in order (R105 checks 2 to 5, R106, R107). -/
def State.releaseTaken (c : Instr) (target : ReleaseTarget) (mode : ReleaseMode) (s : State) : Result :=
  let t := s.withClaims (target.remaining s.run.claims)
  if mode = .step .fetch ∧ s.port.fetchWired = false ∧ s.run.rehearsal = false then s.reject c .badValue
  else if mode ≠ .proceed ∧ s.run.hold ≠ .holding then s.reject c .notHolding
  else if target.found s.run.claims = false then s.reject c .noClaim
  else if s.run.hold = .holding ∧ t.run.anyHolding = false then
    if s.writeActive then s.reject c .engineActive
    else if s.cycleMapped then
      if s.injectedHeld then .next ((t.occupy .release).releaseHold mode).settle
      else (t.releaseHold mode).settle.acceptRelease c
    else .fault .noOverlayPage
  else t.releaseQuietly.settle.acceptRelease c

/-- RELEASE (R105, R106). -/
def execRelease (source : Nat) (mode : Nat) (byte : Option Byte) (stepKind : Option Nat) (s : State) : Result :=
  s.onTaken (.release source mode byte stepKind) (fun t =>
    match releaseTarget source, releaseMode mode byte stepKind with
    | some target, some m => t.releaseTaken (.release source mode byte stepKind) target m
    | _, _ => t.reject (.release source mode byte stepKind) .badValue)

/-! ### Reset of the target and rehearsal -/

/-- RESET TARGET (R111). -/
def execResetTarget (s : State) : Result :=
  s.onTaken .resetTarget (fun t =>
    if t.run.hold = .unpowered then t.reject .resetTarget .unpowered
    else (t.cutOff .benchReset .resetHeld (.targetReset .bench)).settle.accept .resetTarget .empty)

/-- RESUME (R111). The release of the output may let the net go (R20; log 16). -/
def execResume (s : State) : Result :=
  s.onTaken .resume (fun t =>
    if t.writeActive then t.reject .resume .engineActive
    else if t.run.hold = .resetHeld ∧ t.run.rehearsal = false then
      let u := t.takeUpClaims.senseNet.settle
      u.accept .resume (.hold u.run.hold)
    else t.reject .resume .wrongState)

def State.withRehearsal (b : Bool) (s : State) : State := { s with run := { s.run with rehearsal := b } }

/-- REHEARSE (R115; log 23). -/
def execRehearse (s : State) : Result :=
  s.onTaken .rehearse (fun t =>
    if t.writeActive then t.reject .rehearse .engineActive
    else if t.run.hold = .resetHeld then (t.withRehearsal true).takeUpClaims.settle.accept .rehearse .empty
    else t.reject .rehearse .wrongState)

/-- The response of an INJECT whose cycle has been held; a cycle that completed has answered, one that waits for the board will (R116). -/
def State.injectAnswered (s : State) : State :=
  match s.port.inFlight with
  | some c => if c.phase = .held then s.answerInject c false none else s
  | none => s

/-- INJECT (R4, R116). -/
def execInject (address : Nat) (lane : Nat) (kind : Nat) (data : Option Byte) (s : State) : Result :=
  s.onTaken (.inject address lane kind data) (fun t =>
    match injectFields address lane kind data with
    | none => t.reject (.inject address lane kind data) .badValue
    | some (l, k) =>
      if t.run.rehearsal = false then t.reject (.inject address lane kind data) .wrongState
      else if t.run.hold = .holding then t.reject (.inject address lane kind data) .cycleHeld
      else
        let c := t.present address l k data false true
        if c.location.all t.overlay.maps then .next ((t.occupy .inject).presentCycle c).settle.injectAnswered
        else .fault .noOverlayPage)

/-- END REHEARSAL (R115). -/
def execEndRehearsal (s : State) : Result :=
  s.onTaken .endRehearsal (fun t =>
    if t.run.rehearsal = false then t.reject .endRehearsal .wrongState
    else if t.run.hold = .holding then t.reject .endRehearsal .cycleHeld
    else ((t.withRehearsal false).clearClaims.setHold .resetHeld).settle.accept .endRehearsal .empty)

/-- LIST CLAIMS (R117). -/
def execListClaims (s : State) : Result :=
  s.onTaken .listClaims (fun t =>
    t.accept .listClaims (.claims (byUrgency t.run.claims) t.run.floor t.run.hold t.run.rehearsal))

end Sys2Proof.Machine
end

