-- ==== Sys2Proof/Machine/SlotCommands.lean ====
section
/-! DEFINITION. The commands on the staging slots and the lane profiles: LOAD SLOT, SEAL SLOT, FREE SLOT, SLOT STATUS, SET PROFILE, READ PROFILE,
CLEAR PROFILE (chapter 9). -/

namespace Sys2Proof.Machine

/-! ### Staging slots -/

def Slot.blank : Slot := { state := .empty, contents := [], binds := 0 }

def SlotState.isSealed : SlotState → Bool
  | .sealed _ => true
  | .empty => false
  | .filling => false

/-- LOAD SLOT (R153). -/
def execLoadSlot (slot : Nat) (data : List Byte) (s : State) : Result :=
  s.onTaken (.loadSlot slot data) (fun t =>
    if h : slot < 4 then
      let old := t.slots[slot]
      if data.length = 0 ∨ 1024 < data.length then t.reject (.loadSlot slot data) .badLength
      else if old.state.isSealed then t.reject (.loadSlot slot data) .wrongState
      else if Config.slotLimit < old.contents.length + data.length then t.reject (.loadSlot slot data) .badLength
      else
        ({ t with slots := t.slots.set slot { old with state := .filling, contents := old.contents ++ data } h } : State).accept
          (.loadSlot slot data) (.fillLength (old.contents.length + data.length))
    else t.reject (.loadSlot slot data) .badValue)

/-- SEAL SLOT (R154). -/
def execSealSlot (slot : Nat) (s : State) : Result :=
  s.onTaken (.sealSlot slot) (fun t =>
    if h : slot < 4 then
      let old := t.slots[slot]
      match old.state with
      | .filling =>
        let crc := crc32 old.contents
        ({ t with slots := t.slots.set slot { old with state := .sealed crc } h } : State).accept (.sealSlot slot)
          (.sealed crc old.contents.length)
      | .empty => t.reject (.sealSlot slot) .wrongState
      | .sealed _ => t.reject (.sealSlot slot) .wrongState
    else t.reject (.sealSlot slot) .badValue)

/-- FREE SLOT (R155). -/
def execFreeSlot (slot : Nat) (s : State) : Result :=
  s.onTaken (.freeSlot slot) (fun t =>
    if h : slot < 4 then
      if 0 < t.slots[slot].binds then t.reject (.freeSlot slot) .slotBound
      else ({ t with slots := t.slots.set slot Slot.blank h } : State).accept (.freeSlot slot) .empty
    else t.reject (.freeSlot slot) .badValue)

/-- SLOT STATUS (R156). -/
def execSlotStatus (slot : Nat) (s : State) : Result :=
  s.onTaken (.slotStatus slot) (fun t =>
    if h : slot < 4 then t.accept (.slotStatus slot) (.slot t.slots[slot]) else t.reject (.slotStatus slot) .badValue)

/-! ### Lane profiles -/

/-- The eleven sizes from 1 KiB to 1 MiB (R158, R160). -/
def laneSizes : List Nat := (List.range 11).map (fun k => 1024 * 2 ^ k)

/-- A power of two that a sector size can be: at least 256 and at most 1 MiB, since a run cannot exceed the lane (R161). -/
def sectorSizes : List Nat := (List.range 13).map (fun k => 256 * 2 ^ k)

/-- The checks of R161 on the sector runs. -/
def sectorsOk (size : Nat) (runs : List SectorRun) : Bool :=
  decide (1 ≤ runs.length) && decide (runs.length ≤ 8) &&
  runs.all (fun r => sectorSizes.contains r.size && decide (1 ≤ r.count)) &&
  decide ((runs.map (fun r => r.size * r.count)).sum = size)

/-- A timeout is 1 to 65535 (R160). -/
def timeoutOk (n : Nat) : Bool := decide (1 ≤ n) && decide (n ≤ 65535)

/-- The FLASH fields as stored, or none where R160 or R161 refuses one. -/
def flashPart (f : ProfileFields) : Option FlashPart :=
  match PollMethod.ofCode f.pollMethod with
  | none => none
  | some method =>
    if f.unlock.length ≤ 4 ∧ f.sectorErase.length ≤ 6 ∧ f.laneErase.length ≤ 6 ∧
       (f.program :: f.resetPair :: (f.unlock ++ f.sectorErase ++ f.laneErase)).all (fun q => decide (q.offset < f.size)) = true ∧
       f.pollBit ≤ 7 ∧ timeoutOk f.programTimeout = true ∧ timeoutOk f.sectorTimeout = true ∧ timeoutOk f.laneTimeout = true ∧
       sectorsOk f.size f.sectors = true then
      some { unlock := f.unlock, program := f.program, sectorErase := f.sectorErase, sectorCommand := f.sectorCommand,
             laneErase := f.laneErase, resetPair := f.resetPair, pollMethod := method, pollBit := f.pollBit,
             programTimeout := f.programTimeout, sectorTimeout := f.sectorTimeout, laneTimeout := f.laneTimeout, sectors := f.sectors }
    else none

/-- Base and size are in order (R160). -/
def rangeOk (base size : Nat) : Bool :=
  decide (base % 256 = 0) && decide (base ≤ 0xFFF00) && laneSizes.contains size && decide (base + size ≤ Config.addressLimit)

/-- The profile that SET PROFILE stores (R162), or none where R160 refuses. -/
def profileRecord (f : ProfileFields) : Option Profile :=
  match LaneClass.ofCode f.cls with
  | none => none
  | some cls =>
    if rangeOk f.base f.size = false then none
    else match cls with
      | .flash => (flashPart f).map (fun p => { cls := .flash, base := f.base, size := f.size, erased := f.erased, flash := some p })
      | .romOnly => some { cls := .romOnly, base := f.base, size := f.size, erased := f.erased, flash := none }
      | .ram => some { cls := .ram, base := f.base, size := f.size, erased := f.erased, flash := none }

/-- Some job that is not ENDED names the lane (R162, R163). -/
def State.laneNamed (lane : Nat) (s : State) : Bool := s.engine.jobs.any (fun j => j.unfinished && decide (j.lane.val = lane))

/-- SET PROFILE (R162, R164): class FLASH owes its reset, the others do not. -/
def execSetProfile (lane : Nat) (fields : ProfileFields) (s : State) : Result :=
  s.onTaken (.setProfile lane fields) (fun t =>
    if h : lane < 4 then
      match profileRecord fields with
      | none => t.reject (.setProfile lane fields) .badValue
      | some p =>
        if t.laneNamed lane then t.reject (.setProfile lane fields) .engineActive
        else
          ({ t with lanes := t.lanes.set lane { profile := some p, owed := decide (p.cls = .flash) } h } : State).accept
            (.setProfile lane fields) .empty
    else t.reject (.setProfile lane fields) .badValue)

/-- READ PROFILE (R163). -/
def execReadProfile (lane : Nat) (s : State) : Result :=
  s.onTaken (.readProfile lane) (fun t =>
    if h : lane < 4 then t.accept (.readProfile lane) (.profile t.lanes[lane].profile t.lanes[lane].owed)
    else t.reject (.readProfile lane) .badValue)

/-- CLEAR PROFILE (R163, R164). -/
def execClearProfile (lane : Nat) (s : State) : Result :=
  s.onTaken (.clearProfile lane) (fun t =>
    if h : lane < 4 then
      if t.laneNamed lane then t.reject (.clearProfile lane) .engineActive
      else ({ t with lanes := t.lanes.set lane { profile := none, owed := false } h } : State).accept (.clearProfile lane) .empty
    else t.reject (.clearProfile lane) .badValue)

end Sys2Proof.Machine
end

