-- ==== Sys2Proof/Machine/TraceCommands.lean ====
section
/-! DEFINITION. The commands on the Trace Store: TRACE SETUP, TRACE ARM, TRACE HALT, TRACE CLEAR, TRACE STATUS, DRAIN (7.3, 7.6, 7.7). -/

namespace Sys2Proof.Machine

/-- TRACE ARM and TRACE SETUP are taken in IDLE and STOPPED (R121, R136). -/
def CaptureState.settled : CaptureState → Bool
  | .idle => true
  | .stopped => true
  | .waiting => false
  | .recording => false
  | .tailing => false

/-- The setup that TRACE SETUP stores; none where R136 refuses a value. -/
def traceSetup (f : TraceFields) : Option TraceConfig :=
  match FillMode.ofCode f.fillMode with
  | some mode =>
    if f.postCount ≤ 4095 ∧ 1 ≤ f.watermark ∧ f.watermark ≤ Config.traceLimit then
      some { fillMode := mode, postCount := f.postCount, watermark := f.watermark, engineCycles := f.engineCycles, edges := f.edges,
             markers := f.markers }
    else none
  | none => none

/-- TRACE SETUP (R136): the mark latch is set against the new watermark without latching TRACE_MARK. -/
def execTraceSetup (fields : TraceFields) (s : State) : Result :=
  s.onTaken (.traceSetup fields) (fun t =>
    match traceSetup fields with
    | none => t.reject (.traceSetup fields) .badValue
    | some setup =>
      if t.trace.capture.settled then
        ({ t with trace := { t.trace with setup := setup, markLatch := decide (setup.watermark ≤ t.trace.records.length) } } : State).accept
          (.traceSetup fields) .empty
      else t.reject (.traceSetup fields) .wrongState)

/-- The start modes of TRACE ARM: IMMEDIATE 0, ON_START 1 (R121). -/
def captureOfMode (mode : Nat) : Option CaptureState := [CaptureState.recording, .waiting][mode]?

/-- TRACE ARM (R121). -/
def execTraceArm (mode : Nat) (s : State) : Result :=
  s.onTaken (.traceArm mode) (fun t =>
    match captureOfMode mode with
    | none => t.reject (.traceArm mode) .badValue
    | some capture =>
      if t.trace.capture.settled then
        ({ t with trace := { t.trace with capture := capture, tail := 0 } } : State).accept (.traceArm mode) .empty
      else t.reject (.traceArm mode) .wrongState)

/-- TRACE HALT (R125, R126). -/
def execTraceHalt (s : State) : Result :=
  s.onTaken .traceHalt (fun t => (if t.trace.capture = .stopped then t else t.stopCapture).accept .traceHalt .empty)

/-- TRACE CLEAR (R135). -/
def execTraceClear (s : State) : Result :=
  s.onTaken .traceClear (fun t =>
    ({ t with trace := { t.trace with records := [], capture := .idle, tail := 0, markLatch := false } } : State).accept .traceClear .empty)

/-- TRACE STATUS (R134). -/
def execTraceStatus (s : State) : Result :=
  s.onTaken .traceStatus (fun t =>
    t.accept .traceStatus
      (.traceStatus t.trace.capture t.trace.records.length t.trace.oldest t.trace.next t.trace.tail t.trace.setup))

/-- The store after the oldest `n` records are removed; below the watermark the mark latch is cleared (R131, R132). -/
def TraceStore.drained (t : TraceStore) (n : Nat) : TraceStore :=
  { t with records := t.records.drop n, markLatch := t.markLatch && decide (t.setup.watermark ≤ (t.records.drop n).length) }

/-- DRAIN (R132). -/
def execDrain (count : Nat) (s : State) : Result :=
  s.onTaken (.drain count) (fun t =>
    if count = 0 ∨ 64 < count then t.reject (.drain count) .badValue
    else ({ t with trace := t.trace.drained count } : State).accept (.drain count) (.records (t.trace.records.take count)))

end Sys2Proof.Machine
end

