-- ==== Sys2Proof/Machine/WatchCommands.lean ====
section
/-! DEFINITION. The commands on the watch units and the probe lines: SET WATCH, READ WATCH, SET PROBE, READ PROBE (4.8, 5.6). -/

namespace Sys2Proof.Machine

/-! ### Watch units -/

/-- A probe qualifier: none, or a line 0-3 with high (0) or low (1); the outer none is a qualifier that R81 refuses. -/
def qualifierOfCode : Option (Nat × Nat) → Option (Option (Fin 4 × Bool))
  | none => some none
  | some (line, level) =>
    match laneOfCode line with
    | some l => if level = 0 then some (some (l, true)) else if level = 1 then some (some (l, false)) else none
    | none => none

/-- The actions of a set byte: bit 0 HOLD, 1 NOTE, 2 TRACE_START, 3 TRACE_STOP (R60, R188; log 32). -/
def Actions.ofByte (b : Byte) (level : Nat) : Actions :=
  { hold := if b.getLsbD 0 then some level else none, note := b.getLsbD 1, traceStart := b.getLsbD 2, traceStop := b.getLsbD 3 }

def Actions.none : Actions := { hold := Option.none, note := false, traceStart := false, traceStop := false }

/-- The checks of R81 on the fields that a mode other than OFF keeps, lane and qualifier apart. -/
def watchFieldsBad (unit : Nat) (mode : WatchMode) (w : WatchFields) : Bool :=
  decide (Config.addressLimit ≤ w.firstAddress) || decide (Config.addressLimit ≤ w.lastAddress) || decide (w.lastAddress < w.firstAddress) ||
  decide (w.kinds = 0) || decide (8 ≤ w.kinds.toNat) || decide (w.countA = 0) || (decide (mode = .gate) && decide (w.countB = 0)) ||
  (w.chained && decide (unit = 0)) || (decide (mode ≠ .gate) && w.actions.getLsbD 0 && decide (7 < w.holdLevel))

/-- The state that SET WATCH leaves (R80). -/
def WatchMode.written (mode : WatchMode) (chained : Bool) : WatchState :=
  match mode with
  | .off => .off
  | .once => if chained then .dormant else .armed
  | .every => if chained then .dormant else .armed
  | .gate => if chained then .dormant else .opened

/-- The unit that SET WATCH stores, normalised (R80); none where R81 refuses. -/
def watchRecord (unit : Nat) (w : WatchFields) : Option WatchUnit :=
  match WatchMode.ofCode w.mode with
  | none => none
  | some .off => some WatchUnit.initial
  | some mode =>
    match LaneSel.ofCode w.lane, qualifierOfCode w.probe with
    | some lane, some probe =>
      if watchFieldsBad unit mode w then none
      else some
        { mode := mode, lane := lane, firstAddress := w.firstAddress, lastAddress := w.lastAddress, kinds := w.kinds.setWidth 3,
          dataValue := w.dataValue, dataMask := w.dataMask, probe := probe, countA := w.countA,
          countB := if mode = .gate then some w.countB else none, chained := w.chained,
          actions := if mode = .gate then Actions.none else Actions.ofByte w.actions w.holdLevel,
          gateQualifies := if mode = .gate then some w.gateQualifies else none,
          state := mode.written w.chained, remaining := w.countA, pendingData := false }
    | _, _ => none

/-- SET WATCH (R80, R81). -/
def execSetWatch (unit : Nat) (fields : WatchFields) (s : State) : Result :=
  s.onTaken (.setWatch unit fields) (fun t =>
    if h : unit < 4 then
      match watchRecord unit fields with
      | none => t.reject (.setWatch unit fields) .badValue
      | some u => ({ t with watch := t.watch.set unit u h } : State).accept (.setWatch unit fields) .empty
    else t.reject (.setWatch unit fields) .badValue)

/-- READ WATCH (R83). -/
def execReadWatch (unit : Nat) (s : State) : Result :=
  s.onTaken (.readWatch unit) (fun t =>
    if h : unit < 4 then t.accept (.readWatch unit) (.watch t.watch[unit]) else t.reject (.readWatch unit) .badValue)

/-! ### Probe lines -/

/-- The line after SET PROBE: the five configured fields replaced, the rest left (R92); none where R92 refuses. -/
def ProbeLine.configured (p : ProbeLine) (f : ProbeFields) : Option ProbeLine :=
  match Sense.ofCode f.sense with
  | some sense =>
    if f.holdLevel.all (fun l => decide (l ≤ 7)) then
      some { p with sense := sense, record := f.record, note := f.note, holdLevel := f.holdLevel, holdFirst := f.holdFirst }
    else none
  | none => none

/-- SET PROBE (R92). -/
def execSetProbe (line : Nat) (fields : ProbeFields) (s : State) : Result :=
  s.onTaken (.setProbe line fields) (fun t =>
    if h : line < 4 then
      match t.probes[line].configured fields with
      | none => t.reject (.setProbe line fields) .badValue
      | some p => ({ t with probes := t.probes.set line p h } : State).accept (.setProbe line fields) .empty
    else t.reject (.setProbe line fields) .badValue)

/-- READ PROBE (R93): the answer carries the kept flags as they stood, and both are cleared. -/
def execReadProbe (line : Nat) (s : State) : Result :=
  s.onTaken (.readProbe line) (fun t =>
    if h : line < 4 then
      let p := t.probes[line]
      ({ t with probes := t.probes.set line { p with riseKept := false, fallKept := false } h } : State).accept
        (.readProbe line) (.probe p t.timeBase)
    else t.reject (.readProbe line) .badValue)

end Sys2Proof.Machine
end

