-- ==== Sys2Proof/Machine/WindowCommands.lean ====
section
/-! DEFINITION. The commands on the Window Table and the float byte: SET WINDOW, CLEAR WINDOW, READ WINDOW, SET FLOAT (2.5). -/

namespace Sys2Proof.Machine

/-- The record that SET WINDOW stores, normalised (R35); none where R36 refuses a field. -/
def windowRecord (w : WindowFields) : Option Window :=
  match LaneSel.ofCode w.lane, Route.ofCode w.kind with
  | some lane, some kind =>
    if w.firstPage ≤ 4095 ∧ w.lastPage ≤ 4095 ∧ w.firstPage ≤ w.lastPage ∧ (kind = .guard → w.guardLevel.all (fun l => decide (l ≤ 7)) = true) then
      some { enabled := w.enabled, lane := lane, firstPage := w.firstPage, lastPage := w.lastPage, kind := kind,
             origin := if kind.isOverlay then w.origin else none, capture := w.capture,
             guardLevel := if kind = .guard then w.guardLevel else none }
    else none
  | _, _ => none

/-- The room check: origin + (last page - first page) is below the capacity (R38); an absent origin has no room (log 33). -/
def Window.fits (w : Window) (capacity : Nat) : Bool :=
  !w.kind.isOverlay || w.origin.any (fun o => decide (o + (w.lastPage - w.firstPage) < capacity))

/-- SET WINDOW (R35 to R38). -/
def execSetWindow (index : Nat) (fields : WindowFields) (s : State) : Result :=
  s.onTaken (.setWindow index fields) (fun t =>
    if h : index < 16 then
      match windowRecord fields with
      | none => t.reject (.setWindow index fields) .badValue
      | some w =>
        if w.kind.isOverlay && decide (t.overlay.survey = .commanded) then t.reject (.setWindow index fields) .overlayBusy
        else if w.fits t.overlay.capacity then
          ({ t with windows := t.windows.set index w h } : State).accept (.setWindow index fields) .empty
        else t.reject (.setWindow index fields) .noRoom
    else t.reject (.setWindow index fields) .badValue)

/-- CLEAR WINDOW (R39): the other fields are kept. -/
def execClearWindow (index : Nat) (s : State) : Result :=
  s.onTaken (.clearWindow index) (fun t =>
    if h : index < 16 then
      ({ t with windows := t.windows.set index { t.windows[index] with enabled := false } h } : State).accept (.clearWindow index) .empty
    else t.reject (.clearWindow index) .badValue)

/-- READ WINDOW (R40). -/
def execReadWindow (index : Nat) (s : State) : Result :=
  s.onTaken (.readWindow index) (fun t =>
    if h : index < 16 then t.accept (.readWindow index) (.window t.windows[index]) else t.reject (.readWindow index) .badValue)

/-- SET FLOAT (R33). -/
def execSetFloat (byte : Byte) (s : State) : Result :=
  s.onTaken (.setFloat byte) (fun t => ({ t with floatByte := byte } : State).accept (.setFloat byte) .empty)

end Sys2Proof.Machine
end

