-- ==== Sys2Proof/Machine/Dispatch.lean ====
section
/-! DEFINITION. The dispatch of a command to its meaning: one arm per constructor of Instr. -/

namespace Sys2Proof.Machine

def exec (i : Instr) (s : State) : Host.Outcome State Fault Refusal :=
  match i with
  | .powerOn supply probes boardReset => Sys2Proof.Machine.execPowerOn supply probes boardReset s
  | .prstAsserted => Sys2Proof.Machine.execPrstAsserted s
  | .prstReleased => Sys2Proof.Machine.execPrstReleased s
  | .partReset => Sys2Proof.Machine.execPartReset s
  | .powerOnSurveyEnd readBacks => Sys2Proof.Machine.execPowerOnSurveyEnd readBacks s
  | .overlaySurveyEnd readBacks => Sys2Proof.Machine.execOverlaySurveyEnd readBacks s
  | .lineSurveyEnd high low => Sys2Proof.Machine.execLineSurveyEnd high low s
  | .cyclePresented address write fetchStatus selects => Sys2Proof.Machine.execCyclePresented address write fetchStatus selects s
  | .lostCycle => Sys2Proof.Machine.execLostCycle s
  | .boardAccessEnd data => Sys2Proof.Machine.execBoardAccessEnd data s
  | .boardResetSeen => Sys2Proof.Machine.execBoardResetSeen s
  | .boardResetReleased => Sys2Proof.Machine.execBoardResetReleased s
  | .supplyLost level => Sys2Proof.Machine.execSupplyLost level s
  | .supplyReturned level => Sys2Proof.Machine.execSupplyReturned level s
  | .probeEdge line rising => Sys2Proof.Machine.execProbeEdge line rising s
  | .holdLimitExpiry => Sys2Proof.Machine.execHoldLimitExpiry s
  | .jobStart => Sys2Proof.Machine.execJobStart s
  | .readyLineAsserted => Sys2Proof.Machine.execReadyLineAsserted s
  | .pollTimeout => Sys2Proof.Machine.execPollTimeout s
  | .lateFrame code => Sys2Proof.Machine.execLateFrame code s
  | .overlongFrame => Sys2Proof.Machine.execOverlongFrame s
  | .startByteNoRoom => Sys2Proof.Machine.execStartByteNoRoom s
  | .frameError code => Sys2Proof.Machine.execFrameError code s
  | .unknownCommand code payload => Sys2Proof.Machine.execUnknownCommand code payload s
  | .linkRateChange code => Sys2Proof.Machine.execLinkRateChange code s
  | .identify => Sys2Proof.Machine.execIdentify s
  | .readNotices => Sys2Proof.Machine.execReadNotices s
  | .setNoticeMask mask => Sys2Proof.Machine.execSetNoticeMask mask s
  | .setLinkRate rate => Sys2Proof.Machine.execSetLinkRate rate s
  | .resetPart => Sys2Proof.Machine.execResetPart s
  | .setWindow index fields => Sys2Proof.Machine.execSetWindow index fields s
  | .clearWindow index => Sys2Proof.Machine.execClearWindow index s
  | .readWindow index => Sys2Proof.Machine.execReadWindow index s
  | .setFloat byte => Sys2Proof.Machine.execSetFloat byte s
  | .surveyOverlay => Sys2Proof.Machine.execSurveyOverlay s
  | .readRepairMap => Sys2Proof.Machine.execReadRepairMap s
  | .writeOverlay page offset data => Sys2Proof.Machine.execWriteOverlay page offset data s
  | .readOverlay page offset count => Sys2Proof.Machine.execReadOverlay page offset count s
  | .setWatch unit fields => Sys2Proof.Machine.execSetWatch unit fields s
  | .readWatch unit => Sys2Proof.Machine.execReadWatch unit s
  | .setProbe line fields => Sys2Proof.Machine.execSetProbe line fields s
  | .readProbe line => Sys2Proof.Machine.execReadProbe line s
  | .setHoldOptions fields => Sys2Proof.Machine.execSetHoldOptions fields s
  | .setFloor floor => Sys2Proof.Machine.execSetFloor floor s
  | .halt level => Sys2Proof.Machine.execHalt level s
  | .release source mode byte stepKind => Sys2Proof.Machine.execRelease source mode byte stepKind s
  | .resetTarget => Sys2Proof.Machine.execResetTarget s
  | .resume => Sys2Proof.Machine.execResume s
  | .rehearse => Sys2Proof.Machine.execRehearse s
  | .inject address lane kind data => Sys2Proof.Machine.execInject address lane kind data s
  | .endRehearsal => Sys2Proof.Machine.execEndRehearsal s
  | .listClaims => Sys2Proof.Machine.execListClaims s
  | .traceSetup fields => Sys2Proof.Machine.execTraceSetup fields s
  | .traceArm mode => Sys2Proof.Machine.execTraceArm mode s
  | .traceHalt => Sys2Proof.Machine.execTraceHalt s
  | .traceClear => Sys2Proof.Machine.execTraceClear s
  | .traceStatus => Sys2Proof.Machine.execTraceStatus s
  | .drain count => Sys2Proof.Machine.execDrain count s
  | .peek path address count lane => Sys2Proof.Machine.execPeek path address count lane s
  | .poke path address data lane => Sys2Proof.Machine.execPoke path address data lane s
  | .surveyLines => Sys2Proof.Machine.execSurveyLines s
  | .readLineMap => Sys2Proof.Machine.execReadLineMap s
  | .clearLineMap => Sys2Proof.Machine.execClearLineMap s
  | .loadSlot slot data => Sys2Proof.Machine.execLoadSlot slot data s
  | .sealSlot slot => Sys2Proof.Machine.execSealSlot slot s
  | .freeSlot slot => Sys2Proof.Machine.execFreeSlot slot s
  | .slotStatus slot => Sys2Proof.Machine.execSlotStatus slot s
  | .setProfile lane fields => Sys2Proof.Machine.execSetProfile lane fields s
  | .readProfile lane => Sys2Proof.Machine.execReadProfile lane s
  | .clearProfile lane => Sys2Proof.Machine.execClearProfile lane s
  | .submit fields => Sys2Proof.Machine.execSubmit fields s
  | .collect => Sys2Proof.Machine.execCollect s
  | .jobStatus => Sys2Proof.Machine.execJobStatus s
  | .cancelJob number => Sys2Proof.Machine.execCancelJob number s
  | .abortEngine => Sys2Proof.Machine.execAbortEngine s
  | .startByteReceived code => Sys2Proof.Machine.execStartByteReceived s code
  | .checkByteReceived code payload check => Sys2Proof.Machine.execCheckByteReceived code payload check s

end Sys2Proof.Machine
end

