-- ==== Sys2Proof/Machine/Idle.lean ====
section
/-! DEFINITION. What the part does by itself when no command waits: a command that makes its bytes one a step makes the next one, or the link takes the frame
at the front of its receive queue, or one microsecond passes with the limits that fall due, a response on the line leaving it (R58, R84, R109, R172, R185, R186;
log 2, log 7, log 38). -/

namespace Sys2Proof.Machine

/-- One microsecond passes (R84). -/
def State.tick (s : State) : State := { s with timeBase := s.timeBase + 1 }

/-- Time passes, and then the limits that it reaches are taken. -/
def State.passTime (s : State) : State := s.tick.takeDue

/-- A frame whose payload has a wrong length: WRONG_STATE comes first during the power-on survey, but for IDENTIFY and READ NOTICES (R187, checks 3
and 4). -/
def State.answerBadLength (code : Byte) (s : State) : State :=
  if s.overlay.survey = .powerOn ∧ code ≠ 0x01 ∧ code ≠ 0x02 then s.respond .wrongState code .empty
  else s.respond .badLength code .empty

/-- The link, when it is free, takes the frame at the front of its queue and acts on it as the command's own row does (R186, R187). -/
def State.takeFrame (s : State) : Result :=
  match s.link.queue with
  | [] => .next s.passTime
  | f :: rest =>
    match f.spells with
    | .incomplete => .next s.passTime
    | .badLength code => .next (State.answerBadLength code (s.dequeue rest))
    | .command c => if Instr.mustWait c s then .next s.passTime else exec c s

/-- The link in one step: with a response on the line one microsecond passes and its last byte has left it, no frame being taken meanwhile; with a command in
progress one microsecond passes; free, it takes its next frame (R186; log 2, log 7). -/
def State.stepLink (s : State) : Result :=
  if s.link.activity = .sending then .next s.lineFree.passTime
  else if s.link.activity = .idle then s.takeFrame
  else .next s.passTime

/-- What the part does by itself in one step (log 2). -/
def State.idle (s : State) : Result :=
  if s.port.prst then .next s
  else match s.nextOwnByte with
    | some (b, rest, t) => if s.transferMapped then .next (s.makeOwnByte b rest t).settle else .fault .noOverlayPage
    | none => s.stepLink

end Sys2Proof.Machine
end

