-- ==== Sys2Proof/Safety.lean ====
section
/-! DEFINITION. What a statement about the part can rest on: when the link takes a command at once, what a step leaves as it was, and the invariants that every step
keeps, the one that rules out the model's only stop among them. -/

namespace Sys2Proof.Machine

/-- The link takes this command's frame now, leaving the state `t` to the command's action: no reset is under way, no command is in progress, the last byte of the
response on the line, if there is one, has left it, and the frame is at the front of the receive queue, or was received with the queue empty (R186, R192; log 6,
log 7). -/
abbrev State.takesFrame (c : Instr) (s t : State) : Prop :=
  s.port.prst = false ∧ (s.link.activity = .idle ∨ s.link.activity = .sending) ∧ Instr.mustWait c s = false ∧
  ((s.link.queue = [] ∧ t = { s with link := { s.link with activity := .idle } }) ∨
   ∃ f rest, s.link.queue = f :: rest ∧ f.spells = .command c ∧ t = { s with link := { s.link with activity := .idle, queue := rest } })

/-- The same, with the power-on survey ended (R50). -/
abbrev State.takes (c : Instr) (s t : State) : Prop := s.takesFrame c t ∧ s.overlay.survey ≠ .powerOn

/-- A bench command that a frame can spell (11.5). -/
def benchCommand (c : Instr) : Bool := Instr.wf c && Config.commandCodes.contains (Instr.code c)

/-- Tables, memory and clock as they were: windows, float byte, overlay memory, watch units, probe lines, Time Base, the waiting commands. -/
abbrev State.sameTables (s t : State) : Prop :=
  t.windows = s.windows ∧ t.floatByte = s.floatByte ∧ t.overlay = s.overlay ∧ t.watch = s.watch ∧ t.probes = s.probes ∧
  t.timeBase = s.timeBase ∧ t.pending = s.pending ∧ t.freeIndex = s.freeIndex

/-- Everything outside the engine, the arbiter, the slots, the lanes and the link is as it was: what a judgement of the start rule and the arbiter may
touch is left out (R139, R168, R178). -/
abbrev State.engineOnly (s t : State) : Prop := s.sameTables t ∧ t.port = s.port ∧ t.run = s.run ∧ t.trace = s.trace

/-! ### Reset -/

/-- The rows with which a part reset ends (R137, R192; log 34): the release of PRST, or the part reset that follows the response of RESET PART, with no board access in
progress; else the end of the board access for which the reset waits. -/
abbrev State.endsReset (c : Instr) (s : State) : Prop :=
  (c = .prstReleased ∧ s.port.prst = true ∧ s.bus.owner = .free) ∨
  (c = .partReset ∧ s.port.prst = false ∧ (s.bus.owner = .free ∨ s.bus.owner = .engine .lineSurvey)) ∨
  (∃ data, c = .boardAccessEnd data ∧ s.port.prst = true ∧ s.port.resetEnds = true ∧
    (s.bus.owner = .target ∨ s.bus.owner = .bench ∨ ∃ lane a, s.bus.owner = .ended lane a))

/-- What power-on and a part reset leave alike: the values that the manual gives, block by block, for a supply that stands at this level in millivolts, for the
level of board reset and for those of the probe inputs, which stay as they stand (R1, R5, R20, R21, R25, R61, R84, R86, R94, R96, R98, R102, R119, R137, R151,
R152, R158, R165, R184, R189, R190, R192). That no byte is held as driven to the target (`driven` in the field `inFlight`) is the model's choice, not the manual's
(log 37), and that board reset is sensed (`resetSense` in the field `pins`) its deduction from R20 (log 16). -/
structure State.AtReset (supply : Nat) (boardReset : Bool) (levels : Fin 4 → Bool) (t : State) : Prop where
  pins : t.port.supply = supply ∧ t.port.boardReset = boardReset ∧ t.port.resetSense = true ∧ t.port.prst = false ∧ t.port.resetEnds = false
  inFlight : t.port.inFlight = none ∧ t.port.driven = none
  wiring : t.port.waitWired = false ∧ t.port.fetchWired = false ∧ t.port.selectEnables = 0
  powered : t.port.powered = decide (2600 ≤ supply)
  windows : ∀ i : Fin 16, t.windows[i] = { enabled := false, lane := .lane 0, firstPage := 0, lastPage := 0, kind := .pass, origin := none,
                                            capture := false, guardLevel := none }
  floatByte : t.floatByte = 0xFF#8
  watch : ∀ i : Fin 4, t.watch[i] =
    { mode := .off, lane := .any, firstAddress := 0, lastAddress := 0, kinds := 0, dataValue := 0, dataMask := 0, probe := none,
      countA := 1, countB := none, chained := false, actions := { hold := none, note := false, traceStart := false, traceStop := false },
      gateQualifies := none, state := .off, remaining := 0, pendingData := false }
  probes : ∀ i : Fin 4, t.probes[i] = { sense := .off, record := false, note := false, holdLevel := none, holdFirst := false, level := levels i,
                                         riseStamp := 0, riseKept := false, fallStamp := 0, fallKept := false }
  timeBase : t.timeBase = 0
  run : t.run = { hold := if 2600 ≤ supply then .resetHeld else .unpowered, rehearsal := false, claims := [], floor := 8, origin := none, timer := none,
                  holdLimit := 0, powerUpHold := true, threshold := 1 }
  trace : t.trace = { records := [], capture := .idle, next := 0, tail := 0, markLatch := false,
                      setup := { fillMode := .ring, postCount := 0, watermark := 2048, engineCycles := false, edges := true, markers := true } }
  bus : t.bus.owner = .free ∧ t.bus.target = false ∧ t.bus.bench = none ∧ t.bus.engine = none ∧ t.bus.survey = false
  lineMap : ∀ i : Fin 28, t.bus.lineMap[i] = .untested
  slots : ∀ i : Fin 4, t.slots[i] = { state := .empty, contents := [], binds := 0 }
  lanes : ∀ i : Fin 4, t.lanes[i] = { profile := none, owed := false }
  engine : t.engine.jobs = [] ∧ t.engine.endOrder = [] ∧ t.engine.nextNumber = 0
  link : t.link.rate = 0 ∧ t.link.queue = [] ∧ t.link.activity = .idle ∧ t.link.pending = 1#15 ∧ t.link.mask = BitVec.allOnes 15 ∧ t.link.sent = none

/-! ### Overlay memory and the model's stop -/

/-- Overlay memory is in its canonical form. -/
abbrev State.memoryWf (s : State) : Prop := Mem.wf s.overlay.cells

/-- The repair list holds physical page numbers in ascending order, none twice, and all 272 of them during the power-on survey (R47, R50). -/
abbrev State.listFormed (s : State) : Prop :=
  s.overlay.repairList.Pairwise (· < ·) ∧ (∀ p ∈ s.overlay.repairList, p < Config.physicalPages) ∧
  (s.overlay.survey = .powerOn → s.overlay.repairList = List.range Config.physicalPages)

/-- A transfer in progress has a byte with an overlay location. -/
def State.transferOverlay (s : State) : Bool :=
  match s.link.activity with
  | .transfer t => t.todo.any (fun b => b.location.isSome)
  | .idle => false
  | .sending => false
  | .inject => false
  | .release => false
  | .floor => false
  | .abort => false
  | .rateChange _ => false
  | .reset => false

/-- Every overlay location that can still be accessed has a physical page, and while a survey runs there is none (R38, R42, R48, R52). -/
abbrev State.overlayReachable (s : State) : Prop :=
  s.windowsMapped = true ∧ s.cycleMapped = true ∧ s.transferMapped = true ∧
  (∀ c, s.port.inFlight = some c → c.location.isSome = true → c.route.isOverlay = true) ∧
  (s.overlay.survey ≠ .idle → s.windowsLive = false ∧ s.transferOverlay = false)

/-! ### The trace store -/

/-- At most 4096 records, with consecutive sequence numbers modulo 2^32, the last one before the next number (R133). -/
abbrev State.traceConsecutive (s : State) : Prop :=
  s.trace.records.length ≤ Config.traceLimit ∧
  ∀ i, (h : i < s.trace.records.length) →
    s.trace.records[i].seq = s.trace.next - BitVec.ofNat 32 (s.trace.records.length - i)

/-! ### The job table and the slots -/

/-- At most 8 entries, no two with one number, and nothing but ENDED entries before an ACTIVE one (R165). -/
abbrev State.jobTable (s : State) : Prop :=
  s.engine.jobs.length ≤ Config.jobLimit ∧ (s.engine.jobs.map Job.number).Nodup ∧
  s.engine.jobs.Pairwise (fun a b => b.active?.isSome = true → a.unfinished = false)

/-- The numbers of the ENDED entries, each once: what COLLECT takes them by (R179). -/
abbrev State.endsListed (s : State) : Prop :=
  s.engine.endOrder.Nodup ∧ ∀ n, n ∈ s.engine.endOrder ↔ ∃ j ∈ s.engine.jobs, j.number = n ∧ j.unfinished = false

/-- The unfinished entries that name a slot. -/
def State.naming (slot : Fin 4) (s : State) : List Job :=
  s.engine.jobs.filter (fun j => j.unfinished && j.op.slot.any (fun p => decide (p.1 = slot)))

/-- Each slot's bind count is the number of entries that name it and are not ENDED, and a slot with a bind count above 0 is SEALED (R157). -/
abbrev State.bindsCount (s : State) : Prop :=
  ∀ i : Fin 4, s.slots[i].binds = (s.naming i).length ∧ (0 < s.slots[i].binds → s.slots[i].state.isSealed = true)

/-! ### Run control -/

/-- At most one claim per source, in the order of the source codes; STEP alone has a step part and no level; repeat counts 1 to 255 (R94). -/
abbrev RunControl.claimsFormed (r : RunControl) : Prop :=
  r.claims.Pairwise (fun a b => a.source.code < b.source.code) ∧
  ∀ c ∈ r.claims, (c.step.isSome = true ↔ c.source = .step) ∧ (c.level = none ↔ c.source = .step) ∧ 1 ≤ c.repeats ∧ c.repeats ≤ 255

/-- A cycle is held exactly when the state is HOLDING; an arming or a hold has a claim to rest on and is possible (R98). -/
abbrev State.holdSound (s : State) : Prop :=
  (s.run.hold = .holding ↔ s.port.inFlight.any (fun c => decide (c.phase = .held)) = true) ∧
  (s.run.hold = .holdArmed → s.run.anyLive = true) ∧ (s.run.hold = .holding → s.run.anyHolding = true) ∧
  (s.run.hold = .holdArmed ∨ s.run.hold = .holding → s.holdingPossible = true)

/-- UNPOWERED goes with the supply status, and rehearsal with RUNNING, HOLD_ARMED and HOLDING (R21, R98, R113, R115). -/
abbrev State.statusSound (s : State) : Prop :=
  (s.run.hold = .unpowered ↔ s.port.powered = false) ∧
  (s.run.rehearsal = true → s.run.hold = .running ∨ s.run.hold = .holdArmed ∨ s.run.hold = .holding)

/-- The target's request and its grant belong to a cycle in performance (R9, R18, R137). -/
abbrev State.targetSound (s : State) : Prop :=
  (s.bus.owner = .target ∨ s.bus.target = true → s.port.inFlight.any (fun c => decide (c.phase = .performing)) = true) ∧
  (s.bus.owner = .target → s.bus.target = false)

/-- While a write-class job is ACTIVE the target is held or kept in reset, and the rehearsal flag is clear (R104). -/
abbrev State.writeGuarded (s : State) : Prop :=
  s.writeActive = true → (s.run.hold = .holding ∨ s.run.hold = .resetHeld) ∧ s.run.rehearsal = false

/-- What run control keeps in every step, with the job table it asks. -/
abbrev State.runSound (s : State) : Prop :=
  s.run.claimsFormed ∧ s.holdSound ∧ s.statusSound ∧ s.targetSound ∧ s.writeGuarded ∧ s.jobTable

end Sys2Proof.Machine
end

