-- ==== Sys2Proof/Certificates/Slice0/Obligations.lean ====
section
/-! DEFINITION. The statements for the provers. Each docstring names the rules and the log entries that a statement rests on; the model's own choices are named as such. -/

section

open Sys2Proof Sys2Proof.Machine

/-! ### The queue of commands, the resets, the invariants -/

/-- A step takes the command at the front of the queue and runs it on the state with the queue's rest. -/
def Obligations.StepRunsFrontCommand : Prop :=
  ∀ (s : State) (c : Instr) (rest : List Instr), s.pending = c :: rest → step s = exec c { s with pending := rest }

/-- With no command waiting, the free link takes the frame at the front of its receive queue as the command's own row does, or one microsecond passes (R84, R186;
what a step does on an empty queue is the model's choice, log 2). A frame of a wrong length is answered BAD_LENGTH (R187). Held in reset, nothing happens and the
Time Base stands (R192). A command that makes its bytes one a step makes the next byte that needs no bus, and no time passes (R58, log 38). With a response on the
line one microsecond passes and the response has left the line, no frame being taken before it has (R186; how long it is on the line is left out, log 7). The limits
that time has reached are taken in one order: the hold limit (R109), the limit of a READY_LINE poll (R172), the 50 ms of a frame under reception (R185); the order
is the model's (log 2); a late frame echoes its code byte if that had arrived, else 0x00 (R185; START_BYTE_RECEIVED names the byte, log 26). -/
def Obligations.EmptyQueueTakesFrameOrTime : Prop :=
  (∀ s : State, s.pending = [] →
    (s.port.prst = true → step s = .next s) ∧
    (s.port.prst = false → s.link.activity = .idle → ∀ f rest, s.link.queue = f :: rest →
      (∀ c, f.spells = .command c → Instr.mustWait c s = false → step s = exec c s) ∧
      (∀ code, f.spells = .badLength code → s.overlay.survey ≠ .powerOn →
        step s = .next (({ s with link := { s.link with queue := rest } } : State).respond .badLength code .empty))) ∧
    (∀ tr b rest, s.port.prst = false → s.link.activity = .transfer tr → tr.todo = b :: rest → b.boardBound = false → s.transferMapped = true →
      ∃ t, step s = .next t ∧ t.timeBase = s.timeBase ∧ t.port = s.port ∧ t.run = s.run ∧ t.trace = s.trace ∧
        (rest = [] ∨ tr.bytewise = true →
          (b.write = none ∨ b.location = none → t.overlay = s.overlay) ∧
          (∀ d l, b.write = some d → b.location = some l → t.overlay = s.overlay.writeByte l d))) ∧
    (s.port.prst = false → s.link.activity = .sending →
      let left : State := { s with link := { s.link with activity := .idle } }
      step s = .next left.tick.takeDue ∧
      (left.tick.holdDue = false → left.tick.pollDue = false → left.tick.frameDue = false →
        step s = .next { s with timeBase := s.timeBase + 1, link := { s.link with activity := .idle } })) ∧
    (s.port.prst = false → s.link.activity ≠ .sending → s.link.activity ≠ .idle ∨ s.link.queue = [] ∨ (∃ since code rest, s.link.queue = .receiving since code :: rest) ∨
        (∃ f rest c, s.link.queue = f :: rest ∧ f.spells = .command c ∧ Instr.mustWait c s = true) →
      (∀ tr b rest, s.link.activity = .transfer tr → tr.todo = b :: rest → b.boardBound = true) →
      step s = .next s.tick.takeDue ∧
      ∃ t, step s = .next t ∧ t.timeBase = s.timeBase + 1 ∧
        (s.tick.holdDue = false → s.tick.pollDue = false → s.tick.frameDue = false → t = { s with timeBase := s.timeBase + 1 }))) ∧
  (∀ s : State,
    s.tick = { s with timeBase := s.timeBase + 1 } ∧ s.takeDue = s.expireDue.pollExpire.dropDue ∧
    (s.holdDue = true ↔ s.run.hold = .holding ∧ ∃ timer, s.run.timer = some timer ∧ timer.limit * 1000 ≤ s.elapsed timer.start) ∧
    (s.holdDue = true → s.expireDue = (((s.cutOff .expiry .resetHeld (.targetReset .expiry)).latch .holdExpired).settle)) ∧
    (s.holdDue = false → s.expireDue = s) ∧
    (∀ j a p f start, s.polling = some (j, a, p, f, start, .readyLine) →
      (s.pollDue = true ↔ pollLimit j.op f ≤ s.elapsed start) ∧
      (s.pollDue = true → s.pollExpire =
        (s.askBoard j { a with phase := .timeoutReset } [{ address := p.base + f.resetPair.offset, write := some f.resetPair.byte }]).settle)) ∧
    (s.pollDue = false → s.pollExpire = s) ∧
    (s.frameDue = true ↔ ∃ earlier since code, s.link.queue = earlier ++ [.receiving since code] ∧ 50000 ≤ s.elapsed since) ∧
    (∀ earlier since code, s.link.queue = earlier ++ [.receiving since code] → 50000 ≤ s.elapsed since →
      s.dropDue = { s with link := { s.link with queue := earlier ++ [.discarded (code.getD 0)] } }) ∧
    (s.frameDue = false → s.dropDue = s))

/-- Power-on sets every block to the values the manual gives, but for the byte driven last, with the power-on survey running and all 272 pages listed (R50); memory
is empty of written bytes; the levels of the supply, of board reset and of the probe inputs are those that stand at the pins. The end of a part reset, by PRST or
after RESET PART: the same values; overlay memory and the repair list are kept, but for a survey that the reset stops or begins again (R51, R54, R59, R192). The
model's own choices here: that no byte is held as driven to the target at reset (`AtReset.inFlight`, log 37), that board reset is sensed at reset (`AtReset.pins`;
R20 has only a return of the supply disable it, log 16), which page a stopped survey is on (a free value, log 11), and that an unlisted byte of overlay memory reads
0xFF before the survey has ended (log 12). A reset that finds a board access in progress first lets it end (R137, log 34). The rows do nothing where no such reset
ends (log 5, log 34). -/
def Obligations.ResetsSetResetValues : Prop :=
  (∀ (supply : Nat) (probes : BitVec 4) (boardReset : Bool) (s : State),
     ∃ t, exec (.powerOn supply probes boardReset) s = .next t ∧ t.AtReset supply boardReset (fun i => probes.getLsbD i.val) ∧
       t.overlay.survey = .powerOn ∧ t.overlay.repairList = List.range 272 ∧ t.overlay.capacity = 0 ∧ (∀ a, Mem.read t.overlay.cells a = 0xFF#8) ∧
       t.pending = s.pending) ∧
  (∀ s : State,
     (∀ c, s.endsReset c →
       ∃ t, exec c s = .next t ∧ t.AtReset s.port.supply s.port.boardReset (fun i => s.probes[i].level) ∧ t.pending = s.pending ∧
         (s.overlay.survey = .idle → t.overlay = s.overlay) ∧
         (s.overlay.survey = .powerOn →
           t.overlay.survey = .powerOn ∧ t.overlay.repairList = List.range 272 ∧ ∀ a, Mem.read t.overlay.cells a = 0xFF#8) ∧
         (s.overlay.survey = .commanded → t.overlay.survey = .idle ∧ t.overlay.repairList = s.overlay.repairList ∧
           ∃ page, page < 272 ∧ ∀ a, Mem.read t.overlay.cells a = if a / 256 ≤ page then 0xFF#8 else Mem.read s.overlay.cells a)) ∧
     (s.bus.owner = .target ∨ s.bus.owner = .bench ∨ (∃ lane a, s.bus.owner = .ended lane a) →
       (s.port.prst = true → exec .prstReleased s = .next { s with port := { s.port with resetEnds := true } }) ∧
       (s.port.prst = false → ∃ t, exec .partReset s = .next t ∧ t.port = { s.port with prst := true, resetEnds := true } ∧ t.bus.owner = s.bus.owner ∧
         t.bus.target = false ∧ t.bus.bench = none ∧ t.bus.engine = none ∧ t.link = { s.link with queue := [], activity := .idle, sent := none })) ∧
     (∀ lane a rest, s.port.prst = false → s.bus.owner = .engine (.accesses lane (a :: rest)) →
       ∃ t, exec .partReset s = .next t ∧ t.port = { s.port with prst := true, resetEnds := true } ∧ t.bus.owner = .ended lane a) ∧
     (s.port.prst = false → exec .prstReleased s = .next s) ∧
     (s.port.prst = true → exec .partReset s = .next s))

/-- While PRST is asserted the part is silent: the link drops its frames and its command, waiting bus requests are dropped and a board access in progress is let end,
ATTN is deasserted, bytes and commands are ignored, no cycle is presented, and probe edges and the supply only move their levels (R137, R192). A granted SHADOW POKE
byte is made whole: its overlay half is written as PRST is asserted (R145; log 18). A commanded survey ends at the end of the page it is on, its new list discarded
(R54; which page is a free value, log 11). A part reset after RESET PART does the same and ends with the access in progress (R137, log 34). -/
def Obligations.PrstHoldsPartInReset : Prop :=
  ∀ s : State,
    (s.port.prst = false → ∃ t, exec .prstAsserted s = .next t ∧ t.port = { s.port with prst := true, resetEnds := false } ∧
      t.link = { s.link with queue := [], activity := .idle, sent := none } ∧ t.attn = false ∧
      t.bus.target = false ∧ t.bus.bench = none ∧ t.bus.engine = none ∧ t.bus.survey = false ∧ t.bus.lineMap = s.bus.lineMap ∧
      (s.bus.owner = .free → t.bus.owner = .free) ∧ (s.bus.owner = .target → t.bus.owner = .target) ∧ (s.bus.owner = .bench → t.bus.owner = .bench) ∧
      (∀ lane a rest, s.bus.owner = .engine (.accesses lane (a :: rest)) → t.bus.owner = .ended lane a) ∧
      (s.bus.owner = .engine .lineSurvey → t.bus.owner = .free) ∧
      (s.overlay.survey ≠ .commanded →
        (s.bus.owner ≠ .bench ∨ (∀ tr, s.link.activity ≠ .transfer tr) → t.overlay = s.overlay) ∧
        (∀ tr b rest, s.bus.owner = .bench → s.link.activity = .transfer tr → tr.todo = b :: rest →
          (b.write = none ∨ b.location = none → t.overlay = s.overlay) ∧
          (∀ d l, b.write = some d → b.location = some l → t.overlay = s.overlay.writeByte l d))) ∧
      (s.overlay.survey = .commanded → ∃ stopped : Overlay, stopped.survey = .idle ∧ stopped.repairList = s.overlay.repairList ∧
        (∃ page, page < 272 ∧ ∀ a, Mem.read stopped.cells a = if a / 256 ≤ page then 0xFF#8 else Mem.read s.overlay.cells a) ∧
        (s.bus.owner ≠ .bench ∨ (∀ tr, s.link.activity ≠ .transfer tr) → t.overlay = stopped) ∧
        (∀ tr b rest, s.bus.owner = .bench → s.link.activity = .transfer tr → tr.todo = b :: rest →
          (b.write = none ∨ b.location = none → t.overlay = stopped) ∧
          (∀ d l, b.write = some d → b.location = some l → t.overlay = stopped.writeByte l d))) ∧
      (s.bus.owner = .target ∨ s.bus.owner = .bench ∨ (∃ lane a, s.bus.owner = .ended lane a) ∨ (∃ lane a rest, s.bus.owner = .engine (.accesses lane (a :: rest))) →
        exec .partReset s = .next { t with port := { t.port with resetEnds := true } }) ∧
      t.windows = s.windows ∧ t.floatByte = s.floatByte ∧ t.watch = s.watch ∧ t.probes = s.probes ∧ t.timeBase = s.timeBase ∧ t.run = s.run ∧
      t.trace = s.trace ∧ t.slots = s.slots ∧ t.lanes = s.lanes ∧ t.engine = s.engine ∧ t.pending = s.pending) ∧
    (s.port.prst = true →
      exec .prstAsserted s = .next { s with port := { s.port with resetEnds := false } } ∧
      (∀ c, benchCommand c = true → exec c s = .next s) ∧
      (∀ code, exec (.startByteReceived code) s = .next s) ∧
      (∀ address write fetch selects, exec (.cyclePresented address write fetch selects) s = .next s) ∧
      (∀ data, s.bus.owner = .target ∨ s.bus.owner = .bench ∨ (∃ lane a, s.bus.owner = .ended lane a) →
        s.port.resetEnds = false → exec (.boardAccessEnd data) s = .next { s with bus := { s.bus with owner := .free } }) ∧
      (∀ line rising, exec (.probeEdge line rising) s = .next { s with probes := s.probes.set line { s.probes[line] with level := rising } }) ∧
      (∀ level, exec (.supplyLost level) s = .next { s with port := { s.port with supply := level } } ∧
        exec (.supplyReturned level) s = .next { s with port := { s.port with supply := level } }))

/-- The state right after power-on satisfies every invariant stated below. -/
def Obligations.ResetStateHasInvariants : Prop :=
  State.reset.memoryWf ∧ State.reset.listFormed ∧ State.reset.traceConsecutive ∧ State.reset.jobTable ∧ State.reset.endsListed ∧ State.reset.bindsCount ∧
  State.reset.runSound ∧ State.reset.overlayReachable

/-- Decode of encode: for every well-formed bench command, with every field at every value its bytes admit, the frame's code and payload spell that command again
(R188; the layouts that R188 leaves open are the model's choice, log 21). -/
def Obligations.FrameSpellsItsCommand : Prop :=
  ∀ c : Instr, benchCommand c = true → (Frame.whole (Instr.code c) (Instr.payload c)).spells = .command c

/-- Every step keeps overlay memory in its canonical form and the repair list in ascending order, none twice, all 272 pages listed during the power-on survey (R47,
R50). -/
def Obligations.StepKeepsOverlayForm : Prop :=
  ∀ s t : State, s.memoryWf ∧ s.listFormed → step s = .next t → t.memoryWf ∧ t.listFormed

/-- Every step keeps the trace store at no more than 4096 records with consecutive sequence numbers modulo 2^32 (R133). -/
def Obligations.StepKeepsTraceConsecutive : Prop :=
  ∀ s t : State, s.traceConsecutive → step s = .next t → t.traceConsecutive

/-- Every step keeps the job table: at most 8 entries, no two with one number, at most one ACTIVE, no QUEUED or WAITING entry before it; and the ENDED entries in the
order that COLLECT follows (R165, R179). Every step keeps each slot's bind count equal to the number of unfinished entries that name it, and a bound slot SEALED
(R157). -/
def Obligations.StepKeepsJobsAndBinds : Prop :=
  (∀ s t : State, s.jobTable ∧ s.endsListed → step s = .next t → t.jobTable ∧ t.endsListed) ∧
  (∀ s t : State, s.jobTable ∧ s.bindsCount → step s = .next t → t.bindsCount)

/-- Every step keeps run control sound: one claim per source in order (R94), a cycle held exactly in HOLDING, an arming or a hold with a claim to rest on and
possible (R98), UNPOWERED with the supply status, rehearsal in its three states (R115), the target's request with its cycle (R137), a write-class job only over a
quiet target (R104). -/
def Obligations.StepKeepsRunSound : Prop :=
  ∀ s t : State, s.runSound → step s = .next t → t.runSound

/-- While every overlay location that can be accessed has a physical page, a step answers a next state, and it keeps that so (R38, R42, R48, R52): the model's one
fault (log 13) is out of reach. -/
def Obligations.MappedStateNeverStops : Prop :=
  ∀ s : State, s.overlayReachable → ∃ t, step s = .next t ∧ t.overlayReachable

/-- The steps that may make an overlay access stop with the model's one fault where the logical page has no physical page (log 13; R48 says that none reaches the
memory). -/
def Obligations.UnmappedPageFaults : Prop :=
  ∀ s t : State,
    (∀ address write fetch selects, s.mayPresent = true → (s.targetCycle address write fetch selects).location.all s.overlay.maps = false →
      exec (.cyclePresented address write fetch selects) s = .fault .noOverlayPage) ∧
    (∀ level, level ≤ 7 → s.takes (.halt level) t → t.cycleMapped = false → exec (.halt level) s = .fault .noOverlayPage) ∧
    (∀ data, s.bus.owner = .bench → s.port.prst = false → s.transferMapped = false → exec (.boardAccessEnd data) s = .fault .noOverlayPage) ∧
    (∀ (line : Fin 4) rising level, s.probes[line].level ≠ rising → s.probes[line].sense.admits rising = true → s.probes[line].holdLevel = some level →
      s.port.prst = false → s.cycleMapped = false → exec (.probeEdge line rising) s = .fault .noOverlayPage) ∧
    (∀ floor, floor ≤ 8 → s.takes (.setFloor floor) t → t.run.hold = .holding → (t.withFloor floor).run.anyHolding = false → t.writeActive = false →
      t.cycleMapped = false → exec (.setFloor floor) s = .fault .noOverlayPage) ∧
    (∀ byte stepKind, s.takes (.release 255 0 byte stepKind) t → t.run.claims ≠ [] → t.run.hold = .holding → t.writeActive = false → t.cycleMapped = false →
      exec (.release 255 0 byte stepKind) s = .fault .noOverlayPage) ∧
    (∀ tr b rest, s.pending = [] → s.port.prst = false → s.link.activity = .transfer tr → tr.todo = b :: rest → b.boardBound = false →
      s.transferMapped = false → step s = .fault .noOverlayPage)

/-! ### Surveys of overlay memory, and the link -/

/-- The end of a survey, at power-on or commanded: the pages of which a byte read back in pass 1 or 2 differs from the byte written replace the repair list in
ascending order, every byte holds 0xFF, SURVEY_DONE is latched, nothing else changes (R49, R50, R53). What the passes read back comes with the row, a byte that is
not listed having come back as written (log 9). A row whose survey does not run changes nothing (log 5). -/
def Obligations.SurveyEndReplacesRepairList : Prop :=
  ∀ (readBacks : List ReadBack) (s : State),
    let written : Bool → Nat → Byte := fun second offset =>
      if second then (if offset % 2 = 0 then 0xAA#8 else 0x55#8) else (if offset % 2 = 0 then 0x55#8 else 0xAA#8)
    ∃ list : List Nat, list.Pairwise (· < ·) ∧
      (∀ p, p ∈ list ↔ p < 272 ∧ ∃ r ∈ readBacks, r.page = p ∧ r.offset < 256 ∧ r.byte ≠ written r.second r.offset) ∧
      (s.port.prst = false → s.overlay.survey = .powerOn →
        exec (.powerOnSurveyEnd readBacks) s =
          .next (({ s with overlay := { cells := [], repairList := list, survey := .idle } } : State).latch .surveyDone)) ∧
      (s.port.prst = false → s.overlay.survey = .commanded →
        exec (.overlaySurveyEnd readBacks) s =
          .next (({ s with overlay := { cells := [], repairList := list, survey := .idle } } : State).latch .surveyDone)) ∧
      (s.port.prst = true ∨ s.overlay.survey ≠ .powerOn → exec (.powerOnSurveyEnd readBacks) s = .next s) ∧
      (s.port.prst = true ∨ s.overlay.survey ≠ .commanded → exec (.overlaySurveyEnd readBacks) s = .next s) ∧
      ∀ a, Mem.read [] a = 0xFF#8

/-- A command's frame that the link cannot take yet waits in the receive queue, behind those already there, if the queue holds fewer than 4; else it is ignored
(R186; log 6); so do a discarded frame and a frame whose code is in no row of the command table. A response is handed to the line, and the link takes no frame until
its last byte has left it; a row that is the taking of a frame says that it has (R186; log 7). A discarded frame is answered FRAME_ERROR with its echo, a frame
whose code is in no row of the command table UNKNOWN_COMMAND, both during the power-on survey too (R187, checks 1 and 2). The row changes nothing for a code of the
table (log 5). The bytes of a response frame and of a command frame, and the status codes (R185, R187; 11.5, 11.6). -/
def Obligations.FramesQueueOrAreAnswered : Prop :=
  (∀ n k : Nat, (leBytes k n).length = k ∧ ∀ i, i < k → (leBytes k n).getD i 0 = BitVec.ofNat 8 (n / 256 ^ i)) ∧
  (∀ r : Response,
    let payload := if r.status = .ok then r.answer.payload else []
    let body := leBytes 2 payload.length ++ [BitVec.ofNat 8 r.status.code, r.code] ++ payload
    ∃ check, r.wire = [0x5A] ++ body ++ [check] ∧ (body ++ [check]).foldl (· + ·) 0 = 0#8) ∧
  (∀ c : Instr,
    let body := leBytes 2 (Instr.payload c).length ++ [Instr.code c] ++ Instr.payload c
    ∃ check, Instr.wire c = [0xA5] ++ body ++ [check] ∧ (body ++ [check]).foldl (· + ·) 0 = 0#8) ∧
  (∀ status : Status,
    [Status.ok, .frameError, .unknownCommand, .badLength, .badValue, .badAlign, .wrongState, .noRoom, .queueFull, .notFound, .slotNotReady, .slotBound, .noProfile,
      .engineActive, .laneBusy, .targetRunning, .unpowered, .noClaim, .notHolding, .cycleHeld, .windowsLive, .overlayBusy][status.code]? = some status) ∧
  (∀ (status : Status) (code : Byte) (a : Answer) (s : State),
     s.respond status code a = { s with link := { s.link with sent := some { status := status, code := code, answer := a }, activity := .sending } }) ∧
  (∀ (c : Instr) (s : State),
     benchCommand c = true ∨ (∃ code, c = .frameError code) ∨ (∃ code payload, c = .unknownCommand code payload ∧ code ∉ Config.commandCodes) →
     s.port.prst = false →
     (s.link.activity = .sending → Instr.mustWait c s = false → s.link.queue = [] ∨ (∃ f rest, s.link.queue = f :: rest ∧ f.spells = .command c) →
       exec c s = exec c { s with link := { s.link with activity := .idle } }) ∧
     ((s.link.activity ≠ .idle ∧ s.link.activity ≠ .sending) ∨ Instr.mustWait c s = true ∨ (∃ f rest, s.link.queue = f :: rest ∧ f.spells ≠ .command c) →
       (s.link.queue.length < 4 ∧ s.link.receiving = false →
         exec c s = .next { s with link := { s.link with queue := s.link.queue ++ [Instr.frame c] } }) ∧
       (4 ≤ s.link.queue.length ∨ s.link.receiving = true → exec c s = .next s))) ∧
  ((∀ (code : Byte) (s t : State), s.takesFrame (.frameError code) t →
     exec (.frameError code) s = .next (t.respond .frameError code .empty)) ∧
   (∀ (code : Byte) (payload : List Byte) (s t : State), s.takesFrame (.unknownCommand code payload) t → code ∉ Config.commandCodes →
     exec (.unknownCommand code payload) s = .next (t.respond .unknownCommand code .empty)) ∧
   (∀ (code : Byte) (payload : List Byte) (s : State), code ∈ Config.commandCodes → exec (.unknownCommand code payload) s = .next s))

/-- The receiver (R185, R186): a start byte begins a frame where there is room; the check byte completes it, or discards it when the sum of its bytes is not 0
modulo 256; a length over 1040 discards it before its code byte; 50 ms without its check byte discard it, with its code byte echoed if that had arrived, and a check
byte that comes then is one outside a frame. That a row says beforehand which code byte comes within the 50 ms, START_BYTE_RECEIVED or else LATE_FRAME, is the
model's choice (log 26). LATE_FRAME moves the Time Base to the limit, and the other limits reached by then are taken (log 4); `takeDue` is spelled in
EmptyQueueTakesFrameOrTime. -/
def Obligations.FramesArriveAndEnd : Prop :=
  ∀ s : State,
    (s.port.prst = false → s.link.queue.length < 4 → s.link.receiving = false →
      ∀ code, exec (.startByteReceived code) s = .next { s with link := { s.link with queue := s.link.queue ++ [.receiving s.timeBase code] } }) ∧
    (s.port.prst = true ∨ 4 ≤ s.link.queue.length ∨ s.link.receiving = true → ∀ code, exec (.startByteReceived code) s = .next s) ∧
    exec .startByteNoRoom s = .next s ∧
    (∀ earlier since coming, s.link.queue = earlier ++ [.receiving since coming] →
      (∀ code payload check, s.elapsed since < 50000 →
        ((leBytes 2 payload.length ++ [code] ++ payload ++ [check]).foldl (· + ·) 0 = 0#8 →
          exec (.checkByteReceived code payload check) s = .next { s with link := { s.link with queue := earlier ++ [.whole code payload] } }) ∧
        ((leBytes 2 payload.length ++ [code] ++ payload ++ [check]).foldl (· + ·) 0 ≠ 0#8 →
          exec (.checkByteReceived code payload check) s = .next { s with link := { s.link with queue := earlier ++ [.discarded code] } })) ∧
      (∀ code payload check, 50000 ≤ s.elapsed since → exec (.checkByteReceived code payload check) s =
        .next { s with link := { s.link with queue := earlier ++ [.discarded (coming.getD 0)] } }) ∧
      exec .overlongFrame s = .next { s with link := { s.link with queue := earlier ++ [.discarded 0] } } ∧
      (∀ code : Option Byte, ∃ t : State, 50000 ≤ t.elapsed since ∧
        t = { s with timeBase := t.timeBase, link := { s.link with queue := earlier ++ [.discarded ((code.or coming).getD 0)] } } ∧
        exec (.lateFrame code) s = .next t.takeDue ∧ t.takeDue.link.queue = t.link.queue ∧ t.takeDue.timeBase = t.timeBase ∧
        (t.holdDue = false → t.pollDue = false → exec (.lateFrame code) s = .next t))) ∧
    (s.link.receiving = false →
      (∀ code payload check, exec (.checkByteReceived code payload check) s = .next s) ∧ exec .overlongFrame s = .next s ∧
      (∀ code, exec (.lateFrame code) s = .next s.takeDue) ∧ (s.holdDue = false → s.pollDue = false → ∀ code, exec (.lateFrame code) s = .next s))

/-- SET LINK RATE answers at the old rate and changes it when its response has left the line; a frame under reception is then discarded (R184). RESET PART answers
before its reset (R192). -/
def Obligations.LinkRateAndResetPart : Prop :=
  (∀ (rate : Nat) (s t : State), s.takes (.setLinkRate rate) t →
    (3 < rate → exec (.setLinkRate rate) s = .next (t.respond .badValue 0x04 .empty)) ∧
    (∀ r : Fin 4, rate = r.val → t.link.rate = r → exec (.setLinkRate rate) s = .next (t.respond .ok 0x04 .empty)) ∧
    (∀ r : Fin 4, rate = r.val → t.link.rate ≠ r →
      exec (.setLinkRate rate) s = .next ((t.respond .ok 0x04 .empty).occupy (.rateChange r)))) ∧
  (∀ (code : Option Byte) (s : State),
    (∀ r, s.link.activity = .rateChange r →
      (∀ earlier since coming, s.link.queue = earlier ++ [.receiving since coming] →
        exec (.linkRateChange code) s =
          .next { s with link := { s.link with rate := r, activity := .idle, queue := earlier ++ [.discarded (code.getD 0)] } }) ∧
      (s.link.receiving = false → exec (.linkRateChange code) s = .next { s with link := { s.link with rate := r, activity := .idle } })) ∧
    ((∀ r, s.link.activity ≠ .rateChange r) → exec (.linkRateChange code) s = .next s)) ∧
  (∀ s t : State, s.takes .resetPart t → exec .resetPart s = .next ((t.respond .ok 0x05 .empty).occupy .reset))

/-- R191, whole: IDENTIFY is taken at any time, the power-on survey included, and answers with its 13 bytes; the capacity is at most 256 and reads 0 during that
survey. -/
def Obligations.IdentifyAnswersPart : Prop :=
  ∀ s t : State, s.takesFrame .identify t →
    ∃ a : Answer, exec .identify s = .next (t.respond .ok 0x01 a) ∧
      a.payload = [0x20, 0x04, 0x01, BitVec.ofNat 8 s.overlay.capacity, BitVec.ofNat 8 (s.overlay.capacity / 256), 16, 4, 4, 4, 8, 0x00, 0x10,
                   if s.overlay.survey = .powerOn then 1 else 0] ∧
      s.overlay.capacity ≤ 256 ∧ (s.listFormed → s.overlay.survey = .powerOn → s.overlay.capacity = 0)

/-- R189, whole: the 15 flags and their bits in the pending set; a cause makes its flag pending, and it stays so; READ NOTICES answers the pending set and the mask
and clears what it returned; a cause that comes first is in the answer, one that comes after is pending; power-on and part reset leave RESTART alone; READ NOTICES
and IDENTIFY are the two commands taken during the power-on survey. -/
def Obligations.NoticesLatchUntilRead : Prop :=
  (∀ n : Notice, n.bit = match n with
    | .restart => 0 | .claim => 1 | .hold => 2 | .holdMissed => 3 | .holdExpired => 4 | .note => 5 | .guard => 6 | .probe => 7 | .contention => 8
    | .targetReset => 9 | .power => 10 | .traceMark => 11 | .traceStopped => 12 | .jobEnded => 13 | .surveyDone => 14) ∧
  (∀ (n : Notice) (s : State), s.noticed n = s.link.pending.getLsbD n.bit) ∧
  (∀ (n : Notice) (s : State), (s.latch n).noticed n = true ∧ (∀ m, s.noticed m = true → (s.latch n).noticed m = true) ∧
    (∀ m, m ≠ n → (s.latch n).noticed m = s.noticed m) ∧
    s.latch n = { s with link := { s.link with pending := (s.latch n).link.pending } }) ∧
  (∀ s t : State, s.takesFrame .readNotices t →
    exec .readNotices s =
      .next (({ t with link := { t.link with pending := 0 } } : State).respond .ok 0x02 (.notices t.link.pending t.link.mask))) ∧
  (∀ pending mask : BitVec 15, (Answer.notices pending mask).payload = leBytes 2 pending.toNat ++ leBytes 2 mask.toNat) ∧
  (∀ (n : Notice) (s t : State), (s.latch n).takesFrame .readNotices t →
    ∃ u pending mask, exec .readNotices (s.latch n) = .next u ∧ u.link.sent = some { status := .ok, code := 0x02, answer := .notices pending mask } ∧
      pending.getLsbD n.bit = true ∧ u.noticed n = false ∧ (u.latch n).noticed n = true) ∧
  (∀ (supply : Nat) (probes : BitVec 4) (boardReset : Bool) (s : State),
    ∃ t, exec (.powerOn supply probes boardReset) s = .next t ∧ ∀ n, t.noticed n = true ↔ n = .restart) ∧
  (∀ (c : Instr) (s : State), s.endsReset c → ∃ t, exec c s = .next t ∧ ∀ n, t.noticed n = true ↔ n = .restart) ∧
  (∀ (c : Instr) (s t : State), benchCommand c = true → s.takesFrame c t → s.overlay.survey = .powerOn →
    (c ≠ .identify ∧ c ≠ .readNotices → exec c s = .next (t.respond .wrongState (Instr.code c) .empty)) ∧
    (c = .identify ∨ c = .readNotices → ∃ u a, exec c s = .next u ∧ u.link.sent = some { status := .ok, code := Instr.code c, answer := a }))

/-- R190, whole: the mask enables all 15 flags after either reset; SET NOTICE MASK replaces it, bit 15 ignored; it does not affect latching or READ NOTICES; ATTN is
asserted exactly while some flag is both pending and enabled, not while the part is held in reset, and again when the reset ends. -/
def Obligations.NoticeMaskDrivesAttn : Prop :=
  (∀ (supply : Nat) (probes : BitVec 4) (boardReset : Bool) (s : State),
    ∃ t, exec (.powerOn supply probes boardReset) s = .next t ∧ t.link.mask = BitVec.allOnes 15 ∧ t.attn = true) ∧
  (∀ (c : Instr) (s : State), s.endsReset c → ∃ t, exec c s = .next t ∧ t.link.mask = BitVec.allOnes 15 ∧ t.attn = true) ∧
  (∀ (mask : BitVec 16) (s t : State), s.takes (.setNoticeMask mask) t →
    ∃ m : BitVec 15, (∀ i, i < 15 → m.getLsbD i = mask.getLsbD i) ∧
      exec (.setNoticeMask mask) s = .next (({ t with link := { t.link with mask := m } } : State).respond .ok 0x03 .empty)) ∧
  (∀ (n : Notice) (s : State), (s.latch n).noticed n = true ∧ (s.latch n).link.mask = s.link.mask) ∧
  (∀ s t : State, s.takesFrame .readNotices t → ∃ u, exec .readNotices s = .next u ∧
    u.link.sent = some { status := .ok, code := 0x02, answer := .notices s.link.pending s.link.mask }) ∧
  (∀ s : State, s.attn = true ↔ s.port.prst = false ∧ ∃ n : Notice, s.noticed n = true ∧ s.link.mask.getLsbD n.bit = true)

/-! ### The Window Table, the float byte, resolution -/

/-- SET WINDOW: the refusals in their order, or the record written in one piece, normalised (R35 to R38). An overlay kind with an absent origin is refused NO_ROOM:
the model's choice (log 33). The codes of a lane selector and of a kind (R188). -/
def Obligations.SetWindowWritesOrRefuses : Prop :=
  (∀ n : Nat, LaneSel.ofCode n = if h : n < 4 then some (.lane ⟨n, h⟩) else if n = 8 then some .any else none) ∧
  (∀ n : Nat, Route.ofCode n = match n with
    | 0 => some .pass | 1 => some .overlay | 2 => some .overlayRo | 3 => some .shadow | 4 => some .guard | 5 => some .float | _ => none) ∧
  ∀ (index : Nat) (w : WindowFields) (s t : State), s.takes (.setWindow index w) t →
    (15 < index ∨ 4095 < w.firstPage ∨ 4095 < w.lastPage ∨ w.lastPage < w.firstPage ∨ (3 < w.lane ∧ w.lane ≠ 8) ∨ 5 < w.kind ∨
        (w.kind = 4 ∧ ∃ l, w.guardLevel = some l ∧ 7 < l) →
      exec (.setWindow index w) s = .next (t.respond .badValue 0x10 .empty)) ∧
    (∀ (lane : LaneSel) (kind : Route) (inRange : index < 16), LaneSel.ofCode w.lane = some lane → Route.ofCode w.kind = some kind →
      w.firstPage ≤ w.lastPage → w.lastPage ≤ 4095 → (kind = .guard → ∀ l, w.guardLevel = some l → l ≤ 7) →
      (kind.isOverlay = true → t.overlay.survey = .commanded →
        exec (.setWindow index w) s = .next (t.respond .overlayBusy 0x10 .empty)) ∧
      (kind.isOverlay = true → t.overlay.survey ≠ .commanded → (∀ o, w.origin = some o → t.overlay.capacity ≤ o + (w.lastPage - w.firstPage)) →
        exec (.setWindow index w) s = .next (t.respond .noRoom 0x10 .empty)) ∧
      (kind.isOverlay = false ∨ (t.overlay.survey ≠ .commanded ∧ ∃ o, w.origin = some o ∧ o + (w.lastPage - w.firstPage) < t.overlay.capacity) →
        exec (.setWindow index w) s =
          .next (({ t with windows := (t.windows.set index
                      { enabled := w.enabled, lane := lane, firstPage := w.firstPage, lastPage := w.lastPage, kind := kind,
                        origin := if kind.isOverlay then w.origin else none, capture := w.capture,
                        guardLevel := if kind = .guard then w.guardLevel else none } inRange) } : State).respond .ok 0x10 .empty)))

/-- R39, whole: CLEAR WINDOW sets the record's enabled field to no and keeps every other field and everything else, a GUARD claim and the cycle in flight among it;
on a disabled record it changes nothing; an index above 15 is refused BAD_VALUE; a survey started by SURVEY OVERLAY does not stand in its way. -/
def Obligations.ClearWindowDisablesRecord : Prop :=
  ∀ (index : Nat) (s t : State), s.takes (.clearWindow index) t →
    (∀ inRange : index < 16,
      exec (.clearWindow index) s =
        .next (({ t with windows := t.windows.set index { t.windows[index] with enabled := false } inRange } : State).respond .ok 0x11 .empty) ∧
      (t.windows[index].enabled = false → exec (.clearWindow index) s = .next (t.respond .ok 0x11 .empty))) ∧
    (15 < index → exec (.clearWindow index) s = .next (t.respond .badValue 0x11 .empty))

/-- READ WINDOW answers the record and changes nothing (R40); SET FLOAT makes its byte the float byte (R33). -/
def Obligations.ReadWindowAndSetFloat : Prop :=
  (∀ (index : Nat) (s t : State), s.takes (.readWindow index) t →
    (∀ inRange : index < 16, exec (.readWindow index) s = .next (t.respond .ok 0x12 (.window t.windows[index]))) ∧
    (15 < index → exec (.readWindow index) s = .next (t.respond .badValue 0x12 .empty))) ∧
  (∀ (byte : Byte) (s t : State), s.takes (.setFloat byte) t →
    exec (.setFloat byte) s = .next (({ t with floatByte := byte } : State).respond .ok 0x13 .empty))

/-- Resolution takes the lowest-indexed enabled record whose span holds the page and whose lane matches, and gives its route, overlay location, capture setting and
guard level; a cycle that no record matches is resolved to DEFAULT (R26 to R31). -/
def Obligations.ResolutionTakesLowestWindow : Prop :=
  ∀ (ws : Vector Window 16) (address : Nat) (lane : Lane),
    (∀ w : Window, w.covers (address / 256) lane = true ↔
      w.enabled = true ∧ w.firstPage ≤ address / 256 ∧ address / 256 ≤ w.lastPage ∧ (w.lane = .any ∨ ∃ n, w.lane = .lane n ∧ lane = some n)) ∧
    ((∀ i : Fin 16, ws[i].covers (address / 256) lane = false) →
      resolve ws address lane = { window := none, route := .pass, location := none, capture := true, guardLevel := none }) ∧
    (∀ i : Fin 16, ws[i].covers (address / 256) lane = true → (∀ j : Fin 16, j < i → ws[j].covers (address / 256) lane = false) →
      (resolve ws address lane).window = some i ∧ (resolve ws address lane).route = ws[i].kind ∧ (resolve ws address lane).capture = ws[i].capture ∧
      (resolve ws address lane).guardLevel = ws[i].guardLevel ∧
      (ws[i].kind = .overlay ∨ ws[i].kind = .overlayRo ∨ ws[i].kind = .shadow → ∀ o, ws[i].origin = some o →
        (resolve ws address lane).location = some { page := o + (address / 256 - ws[i].firstPage), offset := address % 256 }) ∧
      (ws[i].kind = .pass ∨ ws[i].kind = .guard ∨ ws[i].kind = .float → (resolve ws address lane).location = none))

/-- What presentation fills in for a target cycle: the kind from the strobes and the fetch-status wiring, the lane and the contention field from the enabled selects,
the window and route from resolution, the probe levels, the gate result (R1, R2, R3, R6, R79, R91). -/
def Obligations.PresentationFillsCycle : Prop :=
  ∀ (s : State) (address : BitVec 20) (write : Option Byte) (fetch : Bool) (selects : BitVec 4),
    let c := s.targetCycle address write fetch selects
    c.address = address.toNat ∧ c.injected = false ∧ c.phase = .arriving ∧ c.held = false ∧ c.stretched = false ∧ c.substituted = false ∧
    c.matched = 0 ∧ c.fired = 0 ∧ c.readData = none ∧
    (∀ d, write = some d → c.kind = .write ∧ c.writeData = some d) ∧
    (write = none → c.writeData = none ∧ (c.kind = .fetch ↔ s.port.fetchWired = true ∧ fetch = true) ∧ (c.kind = .read ↔ ¬(s.port.fetchWired = true ∧ fetch = true))) ∧
    (∀ n : Fin 4, c.lane = some n ↔
      (selects &&& s.port.selectEnables).getLsbD n.val = true ∧ ∀ m : Fin 4, m < n → (selects &&& s.port.selectEnables).getLsbD m.val = false) ∧
    (c.contention = true ↔ ∃ m n : Fin 4, m ≠ n ∧ (selects &&& s.port.selectEnables).getLsbD m.val = true ∧
      (selects &&& s.port.selectEnables).getLsbD n.val = true) ∧
    c.window = (resolve s.windows c.address c.lane).window ∧ c.route = (resolve s.windows c.address c.lane).route ∧
    c.location = (resolve s.windows c.address c.lane).location ∧ c.capture = (resolve s.windows c.address c.lane).capture ∧
    (∀ i : Fin 4, c.probes.getLsbD i.val = s.probes[i].level) ∧
    (c.gate = true ↔ ∀ i : Fin 4, s.watch[i].mode = .gate → s.watch[i].gateQualifies = some true → s.watch[i].state = .opened)

/-! ### Overlay memory -/

/-- SURVEY OVERLAY: OVERLAY_BUSY, WINDOWS_LIVE, or a survey starts (R52). READ REPAIR MAP answers the list and capacity in force and whether a commanded survey runs
(R55). -/
def Obligations.OverlaySurveyCommands : Prop :=
  (∀ s t : State, s.takes .surveyOverlay t →
    (t.overlay.survey = .commanded → exec .surveyOverlay s = .next (t.respond .overlayBusy 0x18 .empty)) ∧
    (t.overlay.survey ≠ .commanded →
      (∃ i : Fin 16, t.windows[i].enabled = true ∧ t.windows[i].kind.isOverlay = true) ∨ (∃ c, t.port.inFlight = some c ∧ c.route.isOverlay = true) →
      exec .surveyOverlay s = .next (t.respond .windowsLive 0x18 .empty)) ∧
    (t.overlay.survey ≠ .commanded → (∀ i : Fin 16, t.windows[i].enabled = true → t.windows[i].kind.isOverlay = false) →
      (∀ c, t.port.inFlight = some c → c.route.isOverlay = false) →
      exec .surveyOverlay s = .next (({ t with overlay := { t.overlay with survey := .commanded } } : State).respond .ok 0x18 .empty))) ∧
  (∀ s t : State, s.takes .readRepairMap t →
    exec .readRepairMap s =
      .next (t.respond .ok 0x19 (.repairMap t.overlay.repairList t.overlay.capacity (decide (t.overlay.survey = .commanded)))))

/-- WRITE OVERLAY stores its bytes at consecutive offsets of the logical page's physical page and leaves every other byte and the rest of the part; READ OVERLAY
answers the bytes and changes nothing; both refuse in the order of R56 and R57 and touch nothing then. A command given as its row with the receive queue empty makes
its bytes in that step; one that the link takes from its receive queue makes one byte a step, in ascending offset order, so that accesses of the target can come
between them, and is answered after the last (R58; the model's choice, log 38). -/
def Obligations.OverlayBytesWrittenAndRead : Prop :=
  let byte : Nat → Nat → Option Byte → TransferByte := fun page offset write =>
    { address := page * 256 + offset, write := write, route := .overlay, location := some { page := page, offset := offset } }
  (∀ (page offset : Nat) (data : List Byte) (s t : State), s.takes (.writeOverlay page offset data) t → t.memoryWf →
    (t.overlay.survey = .commanded → exec (.writeOverlay page offset data) s = .next (t.respond .overlayBusy 0x1A .empty)) ∧
    (t.overlay.survey ≠ .commanded → data.length = 0 ∨ 256 < data.length →
      exec (.writeOverlay page offset data) s = .next (t.respond .badLength 0x1A .empty)) ∧
    (t.overlay.survey ≠ .commanded → 1 ≤ data.length → data.length ≤ 256 → t.overlay.capacity ≤ page ∨ 256 < offset + data.length →
      exec (.writeOverlay page offset data) s = .next (t.respond .badValue 0x1A .empty)) ∧
    (t.overlay.survey ≠ .commanded → 1 ≤ data.length → page < t.overlay.capacity → offset + data.length ≤ 256 →
      (s.link.queue = [] →
        ∃ physical cells, t.overlay.physicalPage page = some physical ∧
          exec (.writeOverlay page offset data) s =
            .next (({ t with overlay := { t.overlay with cells := cells } } : State).respond .ok 0x1A .empty) ∧
          ∀ a, Mem.read cells a =
            if physical * 256 + offset ≤ a ∧ a < physical * 256 + offset + data.length then data.getD (a - (physical * 256 + offset)) 0
            else Mem.read t.overlay.cells a) ∧
      (s.link.queue ≠ [] →
        exec (.writeOverlay page offset data) s =
          .next (t.occupy (.transfer { form := .writeOverlay, bytewise := true, todo := data.mapIdx (fun i d => byte page (offset + i) (some d)),
                                       made := [], count := 0 }))))) ∧
  (∀ (page offset count : Nat) (s t : State), s.takes (.readOverlay page offset count) t →
    (t.overlay.survey = .commanded → exec (.readOverlay page offset count) s = .next (t.respond .overlayBusy 0x1B .empty)) ∧
    (t.overlay.survey ≠ .commanded → count = 0 ∨ 256 < count ∨ t.overlay.capacity ≤ page ∨ 256 < offset + count →
      exec (.readOverlay page offset count) s = .next (t.respond .badValue 0x1B .empty)) ∧
    (t.overlay.survey ≠ .commanded → 1 ≤ count → page < t.overlay.capacity → offset + count ≤ 256 →
      (s.link.queue = [] →
        ∃ physical, t.overlay.physicalPage page = some physical ∧
          exec (.readOverlay page offset count) s =
            .next (t.respond .ok 0x1B (.bytes ((List.range count).map (fun i => Mem.read t.overlay.cells (physical * 256 + offset + i)))))) ∧
      (s.link.queue ≠ [] →
        exec (.readOverlay page offset count) s =
          .next (t.occupy (.transfer { form := .readOverlay, bytewise := true, todo := (List.range count).map (fun i => byte page (offset + i) none),
                                       made := [], count := 0 }))))) ∧
  (∀ (page offset count : Nat) (write : Option Byte) (rest : List TransferByte) (made : List Byte) (s : State),
    let tr : Transfer := { form := if write.isSome then .writeOverlay else .readOverlay, bytewise := true, todo := byte page offset write :: rest,
                           made := made, count := count }
    let stored := match write with
      | some d => s.overlay.writeByte { page := page, offset := offset } d
      | none => s.overlay
    let read := if write.isSome then made else made ++ [s.overlay.readByte { page := page, offset := offset }]
    s.pending = [] → s.port.prst = false → s.link.activity = .transfer tr → s.transferMapped = true → (∀ b ∈ rest, b.route = .overlay) →
      (rest = [] →
        step s = .next (State.settle (({ s with overlay := stored } : State).respond .ok (if write.isSome then 0x1A else 0x1B)
          (if write.isSome then .empty else .bytes read)))) ∧
      (rest ≠ [] →
        step s = .next (State.settle (({ s with overlay := stored } : State).occupy (.transfer { tr with todo := rest, made := read, count := count + 1 })))))

/-- The capacity is the smaller of 256 and the number of pages not listed; logical page k is the k-th page not on the list, and there is none at or above the
capacity (R47, R48); a location is mapped where its page is below the capacity. -/
def Obligations.LogicalPagesSkipListed : Prop :=
  ∀ o : Overlay,
    (∀ l : Location, o.maps l = true ↔ l.page < o.capacity) ∧
    o.capacity = min 256 ((List.range 272).filter (fun p => decide (p ∉ o.repairList))).length ∧
    (∀ k, o.physicalPage k = none ↔ o.capacity ≤ k) ∧
    (∀ k p, o.physicalPage k = some p →
      p < 272 ∧ p ∉ o.repairList ∧ ((List.range p).filter (fun q => decide (q ∉ o.repairList))).length = k) ∧
    (∀ (l : Location) p, o.physicalPage l.page = some p →
      o.cellOf l = some (p * 256 + l.offset) ∧ o.readByte l = Mem.read o.cells (p * 256 + l.offset) ∧
      ∀ b, o.writeByte l b = { o with cells := Mem.write o.cells (p * 256 + l.offset) b })

/-! ### Watch units and probe lines -/

/-- SET WATCH: BAD_VALUE under the conditions of R81, or the unit's record replaced, normalised, with its state and remaining count (R80). Bits of the action set
that R60 does not name are ignored: the model's choice (log 32). READ WATCH answers the record and changes nothing (R83). The codes of the mode (R188). -/
def Obligations.WatchCommands : Prop :=
  (∀ n : Nat, WatchMode.ofCode n = match n with | 0 => some .off | 1 => some .once | 2 => some .every | 3 => some .gate | _ => none) ∧
  (∀ (unit : Nat) (w : WatchFields) (s t : State), s.takes (.setWatch unit w) t →
    let refused := 3 < unit ∨ 3 < w.mode ∨ (w.mode ≠ 0 ∧
      ((3 < w.lane ∧ w.lane ≠ 8) ∨ 0xFFFFF < w.firstAddress ∨ 0xFFFFF < w.lastAddress ∨ w.lastAddress < w.firstAddress ∨ w.kinds = 0 ∨ 8 ≤ w.kinds.toNat ∨
       (∃ line level, w.probe = some (line, level) ∧ (3 < line ∨ 1 < level)) ∨ w.countA = 0 ∨ (w.mode = 3 ∧ w.countB = 0) ∨
       (w.chained = true ∧ unit = 0) ∨ (w.mode ≠ 3 ∧ w.actions.getLsbD 0 = true ∧ 7 < w.holdLevel)))
    (refused → exec (.setWatch unit w) s = .next (t.respond .badValue 0x20 .empty)) ∧
    (∀ inRange : unit < 4, w.mode = 0 →
      exec (.setWatch unit w) s = .next (({ t with watch := (t.watch.set unit
        { mode := .off, lane := .any, firstAddress := 0, lastAddress := 0, kinds := 0, dataValue := 0, dataMask := 0, probe := none,
          countA := 1, countB := none, chained := false, actions := { hold := none, note := false, traceStart := false, traceStop := false },
          gateQualifies := none, state := .off, remaining := 0, pendingData := false } inRange) } : State).respond .ok 0x20 .empty)) ∧
    (∀ (inRange : unit < 4) (mode : WatchMode) (lane : LaneSel), ¬refused → WatchMode.ofCode w.mode = some mode → mode ≠ .off →
      LaneSel.ofCode w.lane = some lane →
      exec (.setWatch unit w) s = .next (({ t with watch := (t.watch.set unit
        { mode := mode, lane := lane, firstAddress := w.firstAddress, lastAddress := w.lastAddress, kinds := w.kinds.setWidth 3,
          dataValue := w.dataValue, dataMask := w.dataMask, probe := w.probe.map (fun p => (Fin.ofNat 4 p.1, decide (p.2 = 0))),
          countA := w.countA, countB := if mode = .gate then some w.countB else none, chained := w.chained,
          actions := if mode = .gate then { hold := none, note := false, traceStart := false, traceStop := false }
            else { hold := if w.actions.getLsbD 0 then some w.holdLevel else none, note := w.actions.getLsbD 1,
                   traceStart := w.actions.getLsbD 2, traceStop := w.actions.getLsbD 3 },
          gateQualifies := if mode = .gate then some w.gateQualifies else none,
          state := if w.chained then .dormant else if mode = .gate then .opened else .armed, remaining := w.countA,
          pendingData := false } inRange) } : State).respond .ok 0x20 .empty))) ∧
  (∀ (unit : Nat) (s t : State), s.takes (.readWatch unit) t →
    (∀ inRange : unit < 4, exec (.readWatch unit) s = .next (t.respond .ok 0x21 (.watch t.watch[unit]))) ∧
    (3 < unit → exec (.readWatch unit) s = .next (t.respond .badValue 0x21 .empty)))

/-- What a unit makes of a cycle: nothing unless its state is ARMED, OPEN or SHUT and the lane, address, kind and probe parts are met; then a match, or for data a
comparison now for a WRITE and a pending decision for a READ or FETCH (R62 to R65, R69). What a match does to a unit and whether it fires, by its mode (R66, R67,
R68); and what a firing does to the unit behind: a chained DORMANT one is armed, any other is left as it is (R77, R78). -/
def Obligations.WatchJudgesAndCounts : Prop :=
  (∀ (u : WatchUnit) (c : Cycle),
     (u.meets c = true ↔
       (u.lane = .any ∨ ∃ n, u.lane = .lane n ∧ c.lane = some n) ∧ u.firstAddress ≤ c.address ∧ c.address ≤ u.lastAddress ∧
       u.kinds.getLsbD (match c.kind with | .read => 0 | .fetch => 1 | .write => 2) = true ∧
       (∀ line level, u.probe = some (line, level) → c.probes.getLsbD line.val = level)) ∧
     (u.state = .off ∨ u.state = .dormant ∨ u.state = .spent → u.verdict c = .ignored) ∧
     (u.meets c = false → u.verdict c = .ignored) ∧
     (u.state = .armed ∨ u.state = .opened ∨ u.state = .shut → u.meets c = true →
       (u.dataMask = 0 → u.verdict c = .matched) ∧
       (u.dataMask ≠ 0 → c.kind ≠ .write → u.verdict c = .deferred) ∧
       (∀ d, u.dataMask ≠ 0 → c.kind = .write → c.writeData = some d →
         u.verdict c = if d &&& u.dataMask = u.dataValue &&& u.dataMask then .matched else .ignored))) ∧
  ((∀ u : WatchUnit,
     (1 < u.remaining → u.afterMatch = ({ u with remaining := u.remaining - 1 }, false)) ∧
     (u.remaining = 1 →
       (u.mode = .once → u.afterMatch = ({ u with remaining := 0, state := .spent }, true)) ∧
       (u.mode = .every → u.afterMatch = ({ u with remaining := u.countA }, true)) ∧
       (u.mode = .gate → u.state = .opened → ∀ b, u.countB = some b → u.afterMatch = ({ u with remaining := b, state := .shut }, false)) ∧
       (u.mode = .gate → u.state = .shut → u.afterMatch = ({ u with remaining := u.countA, state := .opened }, false)))) ∧
   (∀ u : WatchUnit,
     (u.chained = true → u.state = .dormant → u.mode ≠ .gate → u.armed = { u with state := .armed, remaining := u.countA }) ∧
     (u.chained = true → u.state = .dormant → u.mode = .gate → u.armed = { u with state := .opened, remaining := u.countA }) ∧
     (u.chained = false ∨ u.state ≠ .dormant → u.armed = u)) ∧
   (∀ units : Vector WatchUnit 4,
     armSuccessor 0 units = units.set 1 units[1].armed ∧ armSuccessor 1 units = units.set 2 units[2].armed ∧
     armSuccessor 2 units = units.set 3 units[3].armed ∧ armSuccessor 3 units = units))

/-- At watch evaluation the four units judge the cycle together, each with the record it holds when the evaluation begins; the matched and fired sets receive those
that matched and fired (R69). A firing enters the unit's HOLD claim, which is of the cycle's own evaluation and acts at its hold decision, latches NOTE, hands over
TRACE_START, leaves a TRACE_STOP to the cycle's record, and arms the unit behind (R73 to R76). At read-data evaluation a unit with a pending decision compares the
delivered byte; its firing's claim is acted on as one that no arriving cycle raised, and its trace actions follow the read's record (R71, R76, R122, R123), the
start before the stop: the model's choice (log 47). A presented cycle goes through contention, GUARD, watch evaluation and hold decision in one step (R6, R7, R32;
that it is one step is the model's choice, log 10). What `recordMatch`, `enterClaim`, `actOnClaim` and `holdDecision` do is in WatchJudgesAndCounts,
RaisedClaimIsEntered and ArmedHoldTakesCycle. -/
def Obligations.WatchEvaluationSetsUnits : Prop :=
  (∀ (c : Cycle) (s : State) (i : Fin 4), c.matched = 0 → c.fired = 0 →
    ((watchEvaluate c s).1.matched.getLsbD i.val = true ↔ s.watch[i].verdict c = .matched) ∧
    ((watchEvaluate c s).1.fired.getLsbD i.val = true ↔ s.watch[i].verdict c = .matched ∧ s.watch[i].afterMatch.2 = true) ∧
    (s.watch[i].verdict c = .matched → (watchEvaluate c s).2.watch[i] = s.watch[i].afterMatch.1) ∧
    (s.watch[i].verdict c = .deferred → (watchEvaluate c s).2.watch[i] = { s.watch[i] with pendingData := true })) ∧
  (∀ (c : Cycle) (s : State),
    let fires : Fin 4 → Bool := fun i => decide (s.watch[i].verdict c = .matched) && s.watch[i].afterMatch.2
    let acts : Fin 4 → Actions := fun i => s.watch[i].actions
    let r := watchEvaluate c s
    r.1 = { c with matched := r.1.matched, fired := r.1.fired,
                   raised := c.raised ++ ([(0 : Fin 4), 1, 2, 3].filter (fun i => fires i && (acts i).hold.isSome)).map Source.watch,
                   stopAfter := c.stopAfter || [(0 : Fin 4), 1, 2, 3].any (fun i => fires i && (acts i).traceStop) } ∧
    r.2 = { s with
      watch := r.2.watch
      run := { s.run with claims := r.2.run.claims }
      trace := { s.trace with capture := if s.trace.capture = .waiting ∧ ∃ i, fires i = true ∧ (acts i).traceStart = true then .recording else s.trace.capture }
      link := { s.link with pending := r.2.link.pending } } ∧
    (∀ n : Notice, r.2.noticed n = true ↔ s.noticed n = true ∨ (n = .note ∧ ∃ i, fires i = true ∧ (acts i).note = true) ∨
      (n = .claim ∧ ∃ i, fires i = true ∧ (acts i).hold.isSome = true)) ∧
    (∀ (i : Fin 4) (level : Nat), s.run.hold ≠ .holding → fires i = true → (acts i).hold = some level →
      r.2.run.claimOf (.watch i) = some (match s.run.claimOf (.watch i) with
        | none => { source := .watch i, level := some level, stamp := s.timeBase, address := some c.address, window := none, repeats := 1, step := none }
        | some k => { source := .watch i, level := some level, stamp := k.stamp, address := some c.address, window := none,
                      repeats := min 255 (k.repeats + 1), step := none })) ∧
    (∀ source : Source, (∀ i, source = .watch i → fires i = true → (acts i).hold = none) → r.2.run.claimOf source = s.run.claimOf source) ∧
    (∀ i : Fin 4, s.watch[i].verdict c = .ignored →
      ((∃ k : Fin 4, k.val + 1 = i.val ∧ fires k = true) → r.2.watch[i] = s.watch[i].armed) ∧
      ((∀ k : Fin 4, k.val + 1 = i.val → fires k = false) → r.2.watch[i] = s.watch[i]))) ∧
  (∀ (data : Byte) (address : Nat) (i : Fin 4) (e : Evaluation) (s : State),
    let u := s.watch[i]
    let judged : Vector WatchUnit 4 := s.watch.set i { u with pendingData := false }
    let r := recordMatch i judged
    let claimed := match u.actions.hold with
      | some level => (({ s with watch := r.1 } : State).enterClaim
          { source := .watch i, level := some level, address := some address, window := none, step := none }).actOnClaim (.watch i)
      | none => { s with watch := r.1 }
    (u.pendingData = false → deliverUnit data address (e, s) i = (e, s)) ∧
    (u.pendingData = true → data &&& u.dataMask ≠ u.dataValue &&& u.dataMask → deliverUnit data address (e, s) i = (e, { s with watch := judged })) ∧
    (u.pendingData = true → data &&& u.dataMask = u.dataValue &&& u.dataMask →
      r.2 = ({ u with pendingData := false } : WatchUnit).afterMatch.2 ∧
      (r.2 = false →
        r.1 = judged.set i ({ u with pendingData := false } : WatchUnit).afterMatch.1 ∧
        deliverUnit data address (e, s) i = ({ e with matched := e.matched ||| bitOf i }, { s with watch := r.1 })) ∧
      (r.2 = true →
        r.1 = armSuccessor i (judged.set i ({ u with pendingData := false } : WatchUnit).afterMatch.1) ∧
        deliverUnit data address (e, s) i =
          ({ matched := e.matched ||| bitOf i, fired := e.fired ||| bitOf i,
             raised := e.raised ++ (if u.actions.hold.isSome then [Source.watch i] else []), start := e.start || u.actions.traceStart,
             stop := e.stop || u.actions.traceStop },
           if u.actions.note then claimed.latch .note else claimed)))) ∧
  (∀ (data : Byte) (address : Nat) (s : State),
    let d := fun p i => deliverUnit data address p i
    let p := d (d (d (d ({ matched := 0, fired := 0, raised := [], start := false, stop := false }, s) 0) 1) 2) 3
    let started := if p.1.start = true ∧ p.2.trace.capture = .waiting then { p.2 with trace := { p.2.trace with capture := .recording } } else p.2
    readDataEvaluate data address s = (p.1, if p.1.stop then started.traceStop else started) ∧
    ((∀ i : Fin 4, s.watch[i].pendingData = false) →
      readDataEvaluate data address s = ({ matched := 0, fired := 0, raised := [], start := false, stop := false }, s))) ∧
  (∀ s : State,
    (s.trace.capture ≠ .recording → s.traceStop = s) ∧
    (s.trace.capture = .recording → s.trace.setup.postCount = 0 →
      s.traceStop = ({ s with trace := { s.trace with capture := .stopped } } : State).latch .traceStopped) ∧
    (s.trace.capture = .recording → s.trace.setup.postCount ≠ 0 →
      s.traceStop = { s with trace := { s.trace with capture := .tailing, tail := s.trace.setup.postCount } })) ∧
  (∀ (address : BitVec 20) (write : Option Byte) (fetch : Bool) (selects : BitVec 4) (s : State),
    let c := s.targetCycle address write fetch selects
    let s1 := if c.contention then s.latch .contention else s
    let judged : Cycle → State → Result := fun k u => .next (State.settle ((watchEvaluate k u).2.holdDecision (watchEvaluate k u).1))
    s.mayPresent = true → c.location.all s.overlay.maps = true →
      (c.route ≠ .guard ∨ write = none → exec (.cyclePresented address write fetch selects) s = judged c s1) ∧
      (c.route = .guard → write.isSome = true → (resolve s.windows c.address c.lane).guardLevel = none →
        exec (.cyclePresented address write fetch selects) s = judged c (s1.latch .guard)) ∧
      (∀ level, c.route = .guard → write.isSome = true → (resolve s.windows c.address c.lane).guardLevel = some level →
        exec (.cyclePresented address write fetch selects) s =
          judged { c with raised := [.guard] }
            ((s1.latch .guard).enterClaim { source := .guard, level := some level, address := some c.address, window := c.window, step := none })))

/-- SET PROBE replaces the five configured fields and nothing else, or is refused BAD_VALUE (R92). READ PROBE answers the line as it stands with the Time Base
reading and clears both kept flags (R93). -/
def Obligations.ProbeCommands : Prop :=
  (∀ n : Nat, Sense.ofCode n = match n with | 0 => some .off | 1 => some .rise | 2 => some .fall | 3 => some .both | _ => none) ∧
  (∀ (line : Nat) (p : ProbeFields) (s t : State), s.takes (.setProbe line p) t →
    (3 < line ∨ 3 < p.sense ∨ (∃ l, p.holdLevel = some l ∧ 7 < l) → exec (.setProbe line p) s = .next (t.respond .badValue 0x24 .empty)) ∧
    (∀ (inRange : line < 4) (sense : Sense), Sense.ofCode p.sense = some sense → (∀ l, p.holdLevel = some l → l ≤ 7) →
      exec (.setProbe line p) s = .next (({ t with probes := (t.probes.set line
        { t.probes[line] with sense := sense, record := p.record, note := p.note, holdLevel := p.holdLevel, holdFirst := p.holdFirst }
        inRange) } : State).respond .ok 0x24 .empty))) ∧
  (∀ (line : Nat) (s t : State), s.takes (.readProbe line) t →
    (∀ inRange : line < 4,
      exec (.readProbe line) s = .next (({ t with probes := (t.probes.set line
        { t.probes[line] with riseKept := false, fallKept := false } inRange) } : State).respond .ok 0x25 (.probe t.probes[line] t.timeBase))) ∧
    (3 < line → exec (.readProbe line) s = .next (t.respond .badValue 0x25 .empty)))

/-- An edge changes the line's level; a sensed one is stamped, unless hold-first protects a kept stamp, and carries out its record, its note and its hold (R87 to
R90). An edge to the level the line has is none (log 5). The claim is entered and acted on as RaisedClaimIsEntered says; where it ends a hold, the EDGE record comes
before the HOLD_END marker, the model's choice (log 39). -/
def Obligations.ProbeEdgeStampsAndActs : Prop :=
  ∀ (line : Fin 4) (rising : Bool) (s : State), s.port.prst = false →
    let p := s.probes[line]
    let sensed := p.sense = .both ∨ (p.sense = .rise ∧ rising = true) ∨ (p.sense = .fall ∧ rising = false)
    let stamped : ProbeLine :=
      if rising then
        if p.holdFirst = true ∧ p.riseKept = true then { p with level := true }
        else { p with level := true, riseStamp := s.timeBase, riseKept := true }
      else
        if p.holdFirst = true ∧ p.fallKept = true then { p with level := false }
        else { p with level := false, fallStamp := s.timeBase, fallKept := true }
    let s1 : State := { s with probes := s.probes.set line stamped }
    let s2 := if p.record then s1.offer (.edge line rising) true s.timeBase else s1
    let s3 := if p.note then s2.latch .probe else s2
    (p.level = rising → exec (.probeEdge line rising) s = .next s) ∧
    (p.level ≠ rising → ¬sensed →
      exec (.probeEdge line rising) s = .next { s with probes := s.probes.set line { p with level := rising } }) ∧
    (p.level ≠ rising → sensed → p.holdLevel = none → exec (.probeEdge line rising) s = .next s3) ∧
    (∀ level, p.level ≠ rising → sensed → p.holdLevel = some level → s.cycleMapped = true →
      exec (.probeEdge line rising) s =
        .next (s3.raiseClaim { source := .probe line, level := some level, address := none, window := none, step := none }).settle)

/-! ### Cycles -/

/-- A target cycle served inside the part, where no watch unit tests it and the state is RUNNING: it completes at once, its record is handed to the Trace Store, and
the routes do what R10, R12 and R13 say: FLOAT and the overlay routes read inside, and their byte is driven to the target (R14; that the port keeps the byte it drove
last is the model's, log 37), OVERLAY writes its byte, OVERLAY_RO, GUARD and FLOAT drop the write. A cycle is not presented while another is in flight or the target
is in reset or unpowered (log 5; with wait wired and a cycle from before a reset still in flight the model's choice, log 45); a lost cycle leaves nothing (R17, R18,
R19, R22). That the whole course of such a cycle is one step is the model's choice (log 10). -/
def Obligations.CycleServedInside : Prop :=
  ∀ (address : BitVec 20) (write : Option Byte) (fetch : Bool) (selects : BitVec 4) (s : State),
    let c := s.targetCycle address write fetch selects
    let s1 := if c.contention then s.latch .contention else s
    let done : State → Byte → State := fun t d =>
      (t.offer (.cycle { address := c.address, lane := c.lane, data := d, window := c.window, route := c.route, kind := c.kind, held := false,
                         substituted := false, stretched := false, contention := c.contention, abandoned := false, injected := false,
                         matched := 0, fired := 0 }) (c.capture && c.gate) s.timeBase).settle
    let read : Byte → Result := fun d => .next (done { s1 with port := { s.port with driven := some d } } d)
    exec .lostCycle s = .next s ∧
    (s.mayPresent = false → exec (.cyclePresented address write fetch selects) s = .next s) ∧
    (s.mayPresent = true ↔ s.port.prst = false ∧ s.port.powered = true ∧ s.netAsserted = false ∧ s.port.inFlight = none) ∧
    (s.mayPresent = true → (∀ i : Fin 4, s.watch[i].matching = false ∧ s.watch[i].pendingData = false) → s.run.hold = .running →
      (c.route = .float → write = none → exec (.cyclePresented address write fetch selects) s = read s.floatByte) ∧
      (∀ d, c.route = .float ∨ c.route = .overlayRo → write = some d → c.location.all s.overlay.maps = true →
        exec (.cyclePresented address write fetch selects) s = .next (done s1 d)) ∧
      (∀ l, c.route = .overlay ∨ c.route = .overlayRo ∨ c.route = .shadow → write = none → c.location = some l → s.overlay.maps l = true →
        exec (.cyclePresented address write fetch selects) s = read (s.overlay.readByte l)) ∧
      (∀ d l, c.route = .overlay → write = some d → c.location = some l → s.overlay.maps l = true →
        exec (.cyclePresented address write fetch selects) s = .next (done { s1 with overlay := s.overlay.writeByte l d } d)) ∧
      (∀ d, c.route = .guard → write = some d → (resolve s.windows c.address c.lane).guardLevel = none →
        exec (.cyclePresented address write fetch selects) s = .next (done (s1.latch .guard) d)))

/-- A board-bound target cycle, where no watch unit tests it and the state is RUNNING: a SHADOW write writes its overlay byte, the TARGET request is placed, and it
is granted at once when the bus is FREE and no aged request waits; otherwise the cycle is stretched, with WAIT where it is wired (R9, R11, R16, R17, R139, R140). The
WAIT output: asserted while the cycle in flight is held or stretched with WAIT wired (`waiting`, set as the cycle is held or stretched), but in high impedance, or
with the part held in reset and its last access ended (R5, R8, R14, R16, R22, R192; a cycle that has it, stretched or held before, when the wiring is
taken away keeps it, the model's choice, log 43). -/
def Obligations.CycleSentToBoard : Prop :=
  (∀ s : State, (s.wait = true ↔ s.highImpedance = false ∧ ∃ c, s.port.inFlight = some c ∧ c.waiting = true) ∧
    (s.highImpedance = true ↔ (s.port.powered = false ∨ s.port.prst = true) ∧ s.bus.owner = .free)) ∧
  ∀ (address : BitVec 20) (write : Option Byte) (fetch : Bool) (selects : BitVec 4) (s : State),
    let c := s.targetCycle address write fetch selects
    let s1 := if c.contention then s.latch .contention else s
    let sent : State → Prop := fun s2 =>
      (s.bus.owner = .free → s.busKept = true ∨ (s.bus.bench ≠ some 4 ∧ ∀ r, s.bus.engine = some r → r.aging ≠ 4) →
        exec (.cyclePresented address write fetch selects) s =
          .next (State.settle { s2 with port := { s.port with inFlight := some { c with phase := .performing } },
                                        bus := { s.bus with owner := .target, target := false,
                                                            bench := if s.busKept then s.bus.bench else s.bus.bench.map (fun n => min 4 (n + 1)),
                                                            engine := if s.busKept then s.bus.engine
                                                              else s.bus.engine.map (fun r => { r with aging := min 4 (r.aging + 1) }) } })) ∧
      (s.bus.owner = .bench ∨ (∃ w, s.bus.owner = .engine w) ∨ (∃ lane a, s.bus.owner = .ended lane a) →
        exec (.cyclePresented address write fetch selects) s =
          .next (State.settle { s2 with port := { s.port with inFlight := some { c with phase := .performing, stretched := true, waiting := s.port.waitWired } },
                                        bus := { s.bus with target := true } })) ∧
      (s.bus.owner = .free → s.busKept = false → s.bus.bench = some 4 →
        exec (.cyclePresented address write fetch selects) s =
          .next (State.settle { s2 with port := { s.port with inFlight := some { c with phase := .performing, stretched := true, waiting := s.port.waitWired } },
                                        bus := { s.bus with owner := .bench, bench := none, target := true } })) ∧
      (∀ r, s.bus.owner = .free → s.busKept = false → s.bus.bench ≠ some 4 → s.bus.engine = some r → r.aging = 4 →
        exec (.cyclePresented address write fetch selects) s =
          .next (State.settle { s2 with port := { s.port with inFlight := some { c with phase := .performing, stretched := true, waiting := s.port.waitWired } },
                                        bus := { s.bus with owner := .engine r.work, engine := none, target := true } }))
    s.mayPresent = true → (∀ i : Fin 4, s.watch[i].matching = false) → s.run.hold = .running →
      (c.route = .pass ∨ (c.route = .guard ∧ write = none) → sent s1) ∧
      (∀ d l, c.route = .shadow → write = some d → c.location = some l → s.overlay.maps l = true →
        sent { s1 with overlay := s.overlay.writeByte l d })

/-- A write on a GUARD window with a guard level, no claim standing before, no watch unit testing it, in RUNNING: it is held when the level is below the floor and
wait is wired, with the claim, the notices, the hold origin, the HOLD_BEGIN marker and the timer of R32, R98 and R100; a quiet claim holds nothing; a live one that
cannot hold latches HOLD_MISSED; the write is dropped in every case (R12). -/
def Obligations.GuardedWriteIsHeld : Prop :=
  ∀ (address : BitVec 20) (d : Byte) (fetch : Bool) (selects : BitVec 4) (level : Nat) (s : State),
    let c := s.targetCycle address (some d) fetch selects
    let claim : Claim := { source := .guard, level := some level, stamp := s.timeBase, address := some c.address, window := c.window, repeats := 1, step := none }
    let record : CycleRecord :=
      { address := c.address, lane := c.lane, data := d, window := c.window, route := .guard, kind := .write, held := false, substituted := false,
        stretched := false, contention := c.contention, abandoned := false, injected := false, matched := 0, fired := 0 }
    s.mayPresent = true → (∀ i : Fin 4, s.watch[i].matching = false) → s.run.hold = .running → s.run.rehearsal = false → s.run.claims = [] →
    c.route = .guard → (resolve s.windows c.address c.lane).guardLevel = some level →
      ∃ t, exec (.cyclePresented address (some d) fetch selects) s = .next t ∧ s.sameTables t ∧ t.noticed .guard = true ∧ t.noticed .claim = true ∧
        (level < s.run.floor → s.port.waitWired = true →
          t.run = { s.run with hold := .holding, claims := [claim], origin := some { source := .guard, level := some level },
                               timer := if s.run.holdLimit = 0 then none else some { start := s.timeBase, limit := s.run.holdLimit } } ∧
          t.port = { s.port with inFlight := some { c with raised := [.guard], phase := .held, held := true, waiting := true } } ∧
          t.trace = (s.offer (.holdBegin { source := .guard, level := some level }) true s.timeBase).trace ∧ t.noticed .hold = true ∧ t.wait = true) ∧
        (s.run.floor ≤ level ∨ s.port.waitWired = false →
          t.run = { s.run with claims := [claim] } ∧ t.port = s.port ∧ t.trace = (s.offer (.cycle record) (c.capture && c.gate) s.timeBase).trace ∧
          t.wait = false ∧ (level < s.run.floor → t.noticed .holdMissed = true))

/-- In HOLD_ARMED a presented cycle, where no watch unit tests it and it raises no claim, is held when a holding claim stands or a waiting step admits it; the step
is then satisfied; the hold origin is the most urgent holding claim (R97, R99, R100). With neither, and a claim still live, a FLOAT read goes on and the state stays
HOLD_ARMED (R99). The hold decision of every cycle and hold state: in RUNNING a live claim of the cycle's own evaluation holds it, or is missed where holding is not
possible; an arming that a repeat left without a live claim ends first (R98, R104). What `performCycle` does is in HoldEndsBeforeCycleGoesOn. -/
def Obligations.ArmedHoldTakesCycle : Prop :=
  (∀ (address : BitVec 20) (write : Option Byte) (fetch : Bool) (selects : BitVec 4) (s : State),
    let c := s.targetCycle address write fetch selects
    s.mayPresent = true → (∀ i : Fin 4, s.watch[i].matching = false ∧ s.watch[i].pendingData = false) → s.run.hold = .holdArmed →
    c.location.all s.overlay.maps = true → ¬(c.route = .guard ∧ write.isSome = true) → s.run.anyLive = true →
      (s.run.anyHolding = true ∨ s.run.stepAdmits c.kind = true →
        ∃ t o claim, exec (.cyclePresented address write fetch selects) s = .next t ∧ s.sameTables t ∧ t.run.hold = .holding ∧ t.noticed .hold = true ∧
          t.port = { s.port with inFlight := some { c with phase := .held, held := true, waiting := true } } ∧
          t.run.claims = s.run.claims.map (fun k => if k.step.any (fun p => !p.satisfied && p.kind.admits c.kind)
            then { k with step := k.step.map (fun p => { p with satisfied := true }), address := some c.address } else k) ∧
          t.run.origin = some o ∧ claim ∈ t.run.claims ∧ claim.holding t.run.floor = true ∧ o = { source := claim.source, level := claim.level } ∧
          (∀ k ∈ t.run.claims, k.holding t.run.floor = true → claim.before k = true) ∧
          t.run.timer = (if s.run.holdLimit = 0 then none else some { start := s.timeBase, limit := s.run.holdLimit }) ∧
          t.trace = (s.offer (.holdBegin o) true s.timeBase).trace ∧ t.wait = true) ∧
      (s.run.anyHolding = false → s.run.stepAdmits c.kind = false → c.route = .float → write = none →
        ∃ t, exec (.cyclePresented address write fetch selects) s = .next t ∧ t.run = s.run ∧ t.port = { s.port with driven := some s.floatByte } ∧
          t.trace = (s.offer (.cycle { address := c.address, lane := c.lane, data := s.floatByte, window := c.window, route := c.route, kind := c.kind, held := false,
                                        substituted := false, stretched := false, contention := c.contention, abandoned := false, injected := false,
                                        matched := 0, fired := 0 }) (c.capture && c.gate) s.timeBase).trace)) ∧
  (∀ (c : Cycle) (s : State),
    let claims := s.run.claims.map (fun k => if k.step.any (fun p => !p.satisfied && p.kind.admits c.kind)
      then { k with step := k.step.map (fun p => { p with satisfied := true }), address := some c.address } else k)
    (∃ k ∈ claims, k.holding s.run.floor = true) →
      ∃ k ∈ claims, k.holding s.run.floor = true ∧ (∀ k2 ∈ claims, k2.holding s.run.floor = true → k.before k2 = true) ∧
        s.holdCycle c = State.offer (.holdBegin { source := k.source, level := k.level }) true s.timeBase (State.latch .hold { s with
          run := { s.run with hold := .holding, claims := claims, origin := some { source := k.source, level := k.level },
                              timer := if s.run.holdLimit = 0 then none else some { start := s.timeBase, limit := s.run.holdLimit } }
          port := { s.port with inFlight := some { c with phase := .held, held := true, waiting := !c.injected } } })) ∧
  (∀ (c : Cycle) (s : State),
    let ownLive := ∃ source ∈ c.raised, ∃ k, s.run.claimOf source = some k ∧ k.live s.run.floor = true
    let possible := s.run.rehearsal = true ∨ s.port.waitWired = true
    (s.run.hold = .running → ownLive → possible → s.holdDecision c = s.holdCycle c) ∧
    (s.run.hold = .running → ownLive → ¬possible → s.holdDecision c = (s.latch .holdMissed).performCycle c) ∧
    (s.run.hold = .running → ¬ownLive → s.holdDecision c = s.performCycle c) ∧
    (s.run.hold = .holdArmed → s.run.anyLive = true → s.run.anyHolding = true ∨ s.run.stepAdmits c.kind = true → s.holdDecision c = s.holdCycle c) ∧
    (s.run.hold = .holdArmed → s.run.anyLive = true → s.run.anyHolding = false → s.run.stepAdmits c.kind = false → s.holdDecision c = s.performCycle c) ∧
    (s.run.hold = .holdArmed → s.run.anyLive = false → s.holdDecision c = (s.setHold .running).performCycle c) ∧
    (s.run.hold = .holding ∨ s.run.hold = .resetHeld ∨ s.run.hold = .unpowered → s.holdDecision c = s.performCycle c))

/-- The end of a board access (R138): the target's cycle completes (R14), a PEEK or POKE byte is made (R143), an engine access hands over its ENGINE record and,
within a run, the next access follows under the same grant (R138, R170); the row ends one access, with the board's byte (log 8). An access let end after its job is
gone hands over its record and clears no flag of its lane (deduced, log 25). A free bus and a line survey have no access to end (log 5). The completion of every
cycle: its record and a waiting TRACE_STOP, the byte driven to the target (R14; that the port keeps it is the model's, log 37), read-data evaluation (R15, R71), and
the answer of the command that waits for an injected cycle (R108, R116). A SHADOW POKE byte is written to overlay memory as its board access ends (log 18). What
`readDataEvaluate` does is in WatchEvaluationSetsUnits, `engineAccessEnd` in StartRuleAndPolls, `runTransfer` in PeekAndPoke. -/
def Obligations.BoardAccessEnds : Prop :=
  (∀ (c : Cycle) (data : Byte) (s : State),
    let record : CycleRecord :=
      { address := c.address, lane := c.lane, data := if c.kind = .write then c.writeData.getD 0 else data, window := c.window,
        route := c.route, kind := c.kind, held := c.held, substituted := c.substituted, stretched := c.stretched, contention := c.contention,
        abandoned := false, injected := c.injected, matched := c.matched, fired := c.fired }
    let recorded := s.offer (.cycle record) (c.capture && c.gate) s.timeBase
    let stopped := if c.stopAfter then recorded.traceStop else recorded
    let gone : State := { stopped with
      port := { s.port with inFlight := none, driven := if c.kind = .write ∨ c.injected = true then s.port.driven else some data } }
    let q : Evaluation × State := if c.kind = .write then ({ matched := 0, fired := 0, raised := [], start := false, stop := false }, gone)
      else readDataEvaluate data c.address gone
    let delivery : Delivery :=
      { abandoned := false, byte := if c.kind = .write then none else some data, matched := q.1.matched, fired := q.1.fired, raised := q.1.raised,
        seq := if s.trace.appends (c.capture && c.gate) (.cycle record) then some s.trace.next else none }
    (c.injected = false → s.completeCycle c data = q.2) ∧
    (c.injected = true → s.link.activity = .inject →
      s.completeCycle c data =
        q.2.respond .ok 0x37 (.inject c.window c.route c.matched c.fired c.raised c.held false q.2.run.hold (some delivery))) ∧
    (c.injected = true → s.link.activity = .release →
      s.completeCycle c data = q.2.respond .ok 0x33 (.release q.2.run.hold (byUrgency q.2.run.claims) q.2.run.floor (some delivery))) ∧
    (c.injected = true → s.link.activity = .floor → s.completeCycle c data = q.2.respond .ok 0x31 (.floor (some delivery))) ∧
    (c.injected = true → s.link.activity ≠ .inject → s.link.activity ≠ .release → s.link.activity ≠ .floor → s.completeCycle c data = q.2)) ∧
  ∀ (data : Byte) (s : State), s.port.prst = false →
    let freed : State := { s with bus := { s.bus with owner := .free } }
    (∀ c, s.bus.owner = .target → s.port.inFlight = some c → exec (.boardAccessEnd data) s = .next (freed.completeCycle c data).settle) ∧
    (∀ lane a b rest, s.bus.owner = .engine (.accesses lane (a :: b :: rest)) →
      exec (.boardAccessEnd data) s =
        .next (({ s with bus := { s.bus with owner := .engine (.accesses lane (b :: rest)) } } : State).offer
          (.engine a.address lane (a.write.getD data) a.write.isSome) true s.timeBase)) ∧
    (∀ lane a, s.bus.owner = .engine (.accesses lane [a]) →
      exec (.boardAccessEnd data) s =
        .next ((freed.offer (.engine a.address lane (a.write.getD data) a.write.isSome) true s.timeBase).engineAccessEnd data).settle) ∧
    (∀ lane a, s.bus.owner = .ended lane a →
      exec (.boardAccessEnd data) s = .next (freed.offer (.engine a.address lane (a.write.getD data) a.write.isSome) true s.timeBase).settle) ∧
    (∀ (tr : Transfer) (b : TransferByte) (rest : List TransferByte), s.bus.owner = .bench → s.link.activity = .transfer tr → tr.todo = b :: rest →
      s.transferMapped = true →
      let written := match b.write, b.location with
        | some d, some l => { freed with overlay := s.overlay.writeByte l d }
        | _, _ => freed
      let made := if b.write.isSome then tr.made else tr.made ++ [data]
      (rest = [] → tr.form = .peek → exec (.boardAccessEnd data) s = .next (written.respond .ok 0x50 (.peeked made (tr.count + 1))).settle) ∧
      (rest = [] → tr.form = .poke → exec (.boardAccessEnd data) s = .next (written.respond .ok 0x51 (.poked (tr.count + 1))).settle) ∧
      (∀ b2 rest2, rest = b2 :: rest2 → b2.boardBound = true →
        exec (.boardAccessEnd data) s =
          .next ((written.occupy (.transfer { tr with todo := rest, made := made, count := tr.count + 1 })).requestBench).settle) ∧
      exec (.boardAccessEnd data) s = .next (written.runTransfer rest { tr with made := made, count := tr.count + 1 }).settle) ∧
    (s.bus.owner = .free ∨ s.bus.owner = .engine .lineSurvey → exec (.boardAccessEnd data) s = .next s)

/-! ### Run control -/

/-- A raise enters a claim with repeat count 1 and the present stamp, or takes the place of the source's claim with its stamp kept and its repeat count up by 1,
stopping at 255; it latches CLAIM and touches no other claim (R95). While HOLDING under a write-class job, a repeat that would leave no holding claim keeps the
standing level, and one beside which another holding claim stands replaces it (R104). How run control then acts on a claim that no arriving cycle raised, by the
table of R98: RUNNING arms a live claim, or misses it; HOLD_ARMED ends with no live claim left; a repeat that leaves no holding claim in HOLDING ends the hold as a
SET FLOOR would (R104; that its cause is FLOOR is deduced, log 20). -/
def Obligations.RaisedClaimIsEntered : Prop :=
  (∀ (r : Raise) (s : State),
    let t := s.enterClaim r
    let step := r.step.map (fun k => { kind := k, satisfied := false : StepPart })
    t = { s with run := { s.run with claims := t.run.claims }, link := { s.link with pending := t.link.pending } } ∧ t.noticed .claim = true ∧
    (∀ source, source ≠ r.source → t.run.claimOf source = s.run.claimOf source) ∧
    (s.run.claimOf r.source = none →
      t.run.claimOf r.source = some { source := r.source, level := r.level, stamp := s.timeBase, address := r.address, window := r.window, repeats := 1, step := step }) ∧
    (∀ k, s.run.claimOf r.source = some k →
      let again : Claim := { source := r.source, level := r.level, stamp := k.stamp, address := r.address, window := r.window, repeats := min 255 (k.repeats + 1), step := step }
      (¬(s.run.hold = .holding ∧ s.writeActive = true) → t.run.claimOf r.source = some again) ∧
      (s.run.hold = .holding → s.writeActive = true → again.holding s.run.floor = true → t.run.claimOf r.source = some again) ∧
      (s.run.hold = .holding → s.writeActive = true → (∃ k2 ∈ s.run.claims, k2.source ≠ r.source ∧ k2.holding s.run.floor = true) →
        t.run.claimOf r.source = some again) ∧
      (s.run.claimsFormed → s.run.hold = .holding → s.writeActive = true → again.holding s.run.floor = false →
        (∀ k2 ∈ s.run.claims, k2.source ≠ r.source → k2.holding s.run.floor = false) →
        t.run.claimOf r.source = some { k with repeats := min 255 (k.repeats + 1), address := r.address }))) ∧
  (∀ (source : Source) (s : State),
    let live := ∃ k, s.run.claimOf source = some k ∧ k.live s.run.floor = true
    let possible := s.run.rehearsal = true ∨ s.port.waitWired = true
    (s.run.hold = .running → live → possible → s.actOnClaim source = { s with run := { s.run with hold := .holdArmed } }) ∧
    (s.run.hold = .running → live → ¬possible → s.actOnClaim source = s.latch .holdMissed) ∧
    (s.run.hold = .running → ¬live → s.actOnClaim source = s) ∧
    (s.run.hold = .holdArmed → s.run.anyLive = true → s.actOnClaim source = s) ∧
    (s.run.hold = .holdArmed → s.run.anyLive = false → s.actOnClaim source = { s with run := { s.run with hold := .running } }) ∧
    (s.run.hold = .holding ∨ s.run.hold = .resetHeld ∨ s.run.hold = .unpowered → s.actOnClaim source = s)) ∧
  (∀ (r : Raise) (s : State),
    let t := s.enterClaim r
    (s.run.hold = .holding → t.run.anyHolding = false → s.raiseClaim r = t.endHoldByFloor) ∧
    (s.run.hold ≠ .holding ∨ t.run.anyHolding = true → s.raiseClaim r = t.actOnClaim r.source))

/-- HALT raises its claim and answers the hold state that results, by the table of R98 (R103); a level above 7 is refused BAD_VALUE. A repeat above the floor ends an
arming that has no other live claim, and ends a hold that has no other holding claim as a SET FLOOR would (R104; its cause: log 20); under a write-class job the hold
stays, and so does the standing claim's level (R104). Where the hold that such a repeat ends is that of an injected cycle, HALT's response is the same and carries
nothing of the cycle: the model's choice, not the manual's (log 44). -/
def Obligations.HaltRaisesClaim : Prop :=
  ∀ (level : Nat) (s t : State), s.takes (.halt level) t →
    (7 < level → exec (.halt level) s = .next (t.respond .badValue 0x32 .empty)) ∧
    (level ≤ 7 → t.cycleMapped = true →
      ∃ u, exec (.halt level) s = .next (u.respond .ok 0x32 (.hold u.run.hold)) ∧
        u = (t.raiseClaim { source := .halt, level := some level, address := none, window := none, step := none }).settle ∧ u.noticed .claim = true ∧
        (t.run.hold = .running → level < t.run.floor → t.run.rehearsal = true ∨ t.port.waitWired = true → u.run.hold = .holdArmed) ∧
        (t.run.hold = .running → level < t.run.floor → t.run.rehearsal = false → t.port.waitWired = false →
          u.run.hold = .running ∧ u.noticed .holdMissed = true) ∧
        (t.run.hold = .running → t.run.floor ≤ level → u.run.hold = .running) ∧
        (t.run.hold = .holdArmed → level < t.run.floor → u.run.hold = .holdArmed) ∧
        (t.run.hold = .holding → level < t.run.floor → u.run.hold = .holding ∧ u.port = t.port) ∧
        (t.run.hold = .holdArmed → t.run.floor ≤ level → (∀ k ∈ t.run.claims, k.source ≠ .halt → k.live t.run.floor = false) → t.run.claimsFormed →
          u.run.hold = .running) ∧
        (t.run.hold = .holdArmed → (∃ k ∈ t.run.claims, k.source ≠ .halt ∧ k.live t.run.floor = true) → u.run.hold = .holdArmed) ∧
        (t.run.hold = .holding → (∃ k ∈ t.run.claims, k.source ≠ .halt ∧ k.holding t.run.floor = true) → u.run.hold = .holding ∧ u.port = t.port) ∧
        (t.run.hold = .holding → t.run.floor ≤ level → (∀ k ∈ t.run.claims, k.source ≠ .halt → k.holding t.run.floor = false) → t.run.claimsFormed →
          (t.writeActive = false →
            u = ((t.enterClaim { source := .halt, level := some level, address := none, window := none, step := none }).endHoldByFloor).settle) ∧
          (∀ k, t.writeActive = true → t.run.claimOf .halt = some k → k.holding t.run.floor = true →
            u.run.hold = .holding ∧ u.port = t.port ∧ u.run.claimOf .halt = some { k with repeats := min 255 (k.repeats + 1), address := none })) ∧
        (t.run.hold = .resetHeld → u.run.hold = .resetHeld) ∧ (t.run.hold = .unpowered → u.run.hold = .unpowered))

/-- SET HOLD OPTIONS: its two refusals in order; else every option is replaced, a changed wait wiring acts at once on the hold state, and a changed threshold index
has the supply judged anew (R21, R102). Where both change, the order is open (log 14). A supply judged anew does what SUPPLY_LOST and SUPPLY_RETURNED do at the level
it has (SupplyLostAndReturned). -/
def Obligations.HoldOptionsReplaced : Prop :=
  ∀ (f : HoldFields) (s t : State), s.takes (.setHoldOptions f) t →
    (60000 < f.holdLimit ∨ 3 < f.threshold → exec (.setHoldOptions f) s = .next (t.respond .badValue 0x30 .empty)) ∧
    (∀ threshold : Fin 4, f.threshold = threshold.val → f.holdLimit ≤ 60000 →
      let barred := (t.run.hold = .holding ∧ f.waitWired ≠ t.port.waitWired) ∨
        (t.port.fetchWired = true ∧ f.fetchWired = false ∧ t.run.rehearsal = false ∧
          ∃ k ∈ t.run.claims, k.step = some { kind := .fetch, satisfied := false })
      let set : State := { t with port := { t.port with waitWired := f.waitWired, fetchWired := f.fetchWired, selectEnables := f.selectEnables }
                                  run := { t.run with holdLimit := f.holdLimit, powerUpHold := f.powerUpHold, threshold := threshold } }
      (barred → exec (.setHoldOptions f) s = .next (t.respond .wrongState 0x30 .empty)) ∧
      (¬barred → threshold = t.run.threshold →
        (f.waitWired = t.port.waitWired ∨ t.run.rehearsal = true → exec (.setHoldOptions f) s = .next (set.settle.respond .ok 0x30 .empty)) ∧
        (f.waitWired = false → t.port.waitWired = true → t.run.rehearsal = false →
          exec (.setHoldOptions f) s =
            .next ((if t.run.hold = .holdArmed then (set.setHold .running).latch .holdMissed else set).settle.respond .ok 0x30 .empty)) ∧
        (f.waitWired = true → t.port.waitWired = false → t.run.rehearsal = false →
          exec (.setHoldOptions f) s =
            .next ((if t.run.hold = .running ∧ t.run.anyLive = true then set.setHold .holdArmed else set).settle.respond .ok 0x30 .empty))) ∧
      (¬barred → threshold ≠ t.run.threshold →
        let rewired : State → State := fun x =>
          if x.run.rehearsal = true then x
          else if f.waitWired = true then (if x.run.hold = .running ∧ x.run.anyLive = true then x.setHold .holdArmed else x)
          else if x.run.hold = .holdArmed then (x.setHold .running).latch .holdMissed else x
        let drawn : State := { set with freeIndex := t.freeIndex + 1 }
        (f.waitWired = t.port.waitWired →
          ∃ v, exec (.supplyLost t.port.supply) set = .next v ∧ exec (.setHoldOptions f) s = .next (v.settle.respond .ok 0x30 .empty)) ∧
        (f.waitWired ≠ t.port.waitWired →
          ∃ v w, exec (.supplyLost t.port.supply) (rewired drawn) = .next v ∧ exec (.supplyLost t.port.supply) drawn = .next w ∧
            (exec (.setHoldOptions f) s = .next (v.settle.respond .ok 0x30 .empty) ∨ exec (.setHoldOptions f) s = .next ((rewired w).settle.respond .ok 0x30 .empty))) ∧
        ∃ u, exec (.setHoldOptions f) s = .next u ∧ u.link.sent = some { status := .ok, code := 0x30, answer := .empty } ∧
          u.port.waitWired = f.waitWired ∧ u.port.fetchWired = f.fetchWired ∧ u.port.selectEnables = f.selectEnables ∧
          u.run.holdLimit = f.holdLimit ∧ u.run.powerUpHold = f.powerUpHold ∧ u.run.threshold = threshold ∧
          (u.port.powered = true ↔ if t.port.powered = true then Config.lossLevel threshold ≤ t.port.supply else Config.returnLevel threshold ≤ t.port.supply)))

/-- SET FLOOR: the refusals; the floor replaced and run control's reaction by its state (R102, R104). The hold it ends on a target cycle is answered at once; on an
injected cycle the answer waits for that cycle (R108). -/
def Obligations.FloorJudgesClaims : Prop :=
  ∀ (floor : Nat) (s t : State), s.takes (.setFloor floor) t →
    let set : State := { t with run := { t.run with floor := floor } }
    (8 < floor → exec (.setFloor floor) s = .next (t.respond .badValue 0x31 .empty)) ∧
    (floor ≤ 8 →
      (t.run.hold = .resetHeld ∨ t.run.hold = .unpowered ∨ (t.run.hold = .holding ∧ set.run.anyHolding = true) ∨
          (t.run.hold = .holdArmed ∧ set.run.anyLive = true) ∨ (t.run.hold = .running ∧ ∀ k ∈ t.run.claims, k.live floor = true → k.live t.run.floor = true) →
        exec (.setFloor floor) s = .next (set.settle.respond .ok 0x31 (.floor none))) ∧
      (t.run.hold = .holdArmed → set.run.anyLive = false →
        exec (.setFloor floor) s = .next ((set.setHold .running).settle.respond .ok 0x31 (.floor none))) ∧
      (t.run.hold = .running → (∃ k ∈ t.run.claims, k.live floor = true ∧ k.live t.run.floor = false) →
        (t.run.rehearsal = true ∨ t.port.waitWired = true →
          exec (.setFloor floor) s = .next ((set.setHold .holdArmed).settle.respond .ok 0x31 (.floor none))) ∧
        (t.run.rehearsal = false → t.port.waitWired = false →
          exec (.setFloor floor) s = .next ((set.latch .holdMissed).settle.respond .ok 0x31 (.floor none)))) ∧
      (t.run.hold = .holding → set.run.anyHolding = false →
        (t.writeActive = true → exec (.setFloor floor) s = .next (t.respond .engineActive 0x31 .empty)) ∧
        (t.writeActive = false → t.cycleMapped = true → (∀ c, t.port.inFlight = some c → c.injected = false) →
          exec (.setFloor floor) s = .next (set.endHoldByFloor.settle.respond .ok 0x31 (.floor none))) ∧
        (∀ c, t.writeActive = false → t.cycleMapped = true → t.port.inFlight = some c → c.injected = true →
          exec (.setFloor floor) s = .next (set.occupy .floor).endHoldByFloor.settle)))

/-- How a hold ends by which the held cycle goes on: the HOLD_END marker first, the timer stopped and the origin forgotten, HOLD_ARMED where a waiting step stands,
else RUNNING, and then the held cycle's performance (R101, R102, R106). A held target FLOAT read delivers the float byte as it then stands, a waiting TRACE_STOP
acting after its record, and a held PASS cycle asks for the bus (R8, R33, R42). The performance of every cycle by its route: at the board, at overlay memory, from
the float byte, or the write dropped (R9 to R13, R16, R17). What `completeCycle` does is in BoardAccessEnds, what `arbitrate` does in ArbiterGrantsByRule. -/
def Obligations.HoldEndsBeforeCycleGoesOn : Prop :=
  (∀ (c : Cycle) (o : HoldOrigin) (s : State), s.port.inFlight = some c → s.run.origin = some o →
    let ended : State := { s.offer (.holdEnd o .floor) true s.timeBase with
      run := { s.run with hold := if s.run.claims.any (fun k => k.step.any (fun p => !p.satisfied)) then .holdArmed else .running, origin := none, timer := none } }
    (s.endHoldByFloor = ended.performCycle c) ∧
    (c.injected = false → c.route = .float → c.kind ≠ .write → (∀ i : Fin 4, s.watch[i].pendingData = false) →
      let recorded := ended.offer (.cycle {
        address := c.address, lane := c.lane, data := s.floatByte, window := c.window, route := .float, kind := c.kind, held := c.held,
        substituted := c.substituted, stretched := c.stretched, contention := c.contention, abandoned := false, injected := false, matched := c.matched,
        fired := c.fired }) (c.capture && c.gate) s.timeBase
      s.endHoldByFloor = { (if c.stopAfter then recorded.traceStop else recorded) with port := { s.port with inFlight := none, driven := some s.floatByte } } ∧ s.endHoldByFloor.wait = false) ∧
    (c.injected = false → c.route = .pass → s.bus.owner ≠ .free → s.bus.owner ≠ .target →
      s.endHoldByFloor = { ended with bus := { s.bus with target := true },
                                      port := { s.port with inFlight := some { c with phase := .performing, stretched := true, waiting := c.waiting || s.port.waitWired } } } ∧
      s.endHoldByFloor.wait = (!s.highImpedance && (c.waiting || s.port.waitWired)))) ∧
  (∀ (c : Cycle) (s : State),
    let asked := State.arbitrate { s with port := { s.port with inFlight := some { c with phase := .performing } }, bus := { s.bus with target := true } }
    (asked.bus.owner = .target ∨ c.injected = true → s.performAtBoard c = asked) ∧
    (asked.bus.owner ≠ .target → c.injected = false →
      s.performAtBoard c = { asked with
        port := { s.port with inFlight := some { c with phase := .performing, stretched := true, waiting := c.waiting || s.port.waitWired } } })) ∧
  (∀ (c : Cycle) (s : State),
    (c.route = .pass ∨ (c.route = .guard ∧ c.kind ≠ .write) → s.performCycle c = s.performAtBoard c) ∧
    (c.route = .float → c.kind ≠ .write → s.performCycle c = s.completeCycle c s.floatByte) ∧
    (c.route = .guard ∨ c.route = .float ∨ c.route = .overlayRo → c.kind = .write → s.performCycle c = s.completeCycle c 0) ∧
    (∀ l, c.route = .overlay ∨ c.route = .overlayRo ∨ c.route = .shadow → c.location = some l → c.kind ≠ .write →
      s.performCycle c = s.completeCycle c (s.overlay.readByte l)) ∧
    (∀ l d, c.location = some l → c.kind = .write → c.writeData = some d →
      (c.route = .overlay → s.performCycle c = State.completeCycle c 0 { s with overlay := s.overlay.writeByte l d }) ∧
      (c.route = .shadow → s.performCycle c = State.performAtBoard c { s with overlay := s.overlay.writeByte l d })))

/-- RELEASE: the refusals in the order of R105 (a SUBSTITUTE without its byte is BAD_VALUE by the model's choice, log 30); else the named claims go, and the hold
state follows (R106); the answer carries the state and the claims that stand afterwards (R107). How a hold then ends: the HOLD_END marker first; PROCEED performs the
held cycle, SUBSTITUTE completes it with the byte and without performance, STEP enters its claim, arms the hold and performs the cycle (R101, R106). A byte or step
kind that the mode does not use is ignored (log 41). -/
def Obligations.ReleaseRemovesClaims : Prop :=
  (∀ (source mode : Nat) (byte : Option Byte) (stepKind : Option Nat) (s t : State), s.takes (.release source mode byte stepKind) t →
    let reject : Status → Prop := fun status => exec (.release source mode byte stepKind) s = .next (t.respond status 0x33 .empty)
    let badField := (10 < source ∧ source ≠ 255) ∨ 2 < mode ∨ (mode = 1 ∧ byte = none) ∨ (mode = 2 ∧ stepKind ≠ some 0 ∧ stepKind ≠ some 1)
    let badFetch := mode = 2 ∧ stepKind = some 1 ∧ t.port.fetchWired = false ∧ t.run.rehearsal = false
    let notHolding := mode ≠ 0 ∧ t.run.hold ≠ .holding
    let left := if source = 255 then [] else t.run.claims.filter (fun k => decide (k.source.code ≠ source))
    let noClaim := if source = 255 then t.run.claims = [] else ∀ k ∈ t.run.claims, k.source.code ≠ source
    let removed : State := { t with run := { t.run with claims := left } }
    let answer : State → Result := fun u => .next (u.respond .ok 0x33 (.release u.run.hold (byUrgency u.run.claims) u.run.floor none))
    (badField → reject .badValue) ∧
    (¬badField → badFetch → reject .badValue) ∧
    (¬badField → ¬badFetch → notHolding → reject .notHolding) ∧
    (¬badField → ¬badFetch → ¬notHolding → noClaim → reject .noClaim) ∧
    (¬badField → ¬badFetch → ¬notHolding → ¬noClaim →
      (t.run.hold = .holding → removed.run.anyHolding = false → t.writeActive = true → reject .engineActive) ∧
      (t.run.hold = .holding → removed.run.anyHolding = true → exec (.release source mode byte stepKind) s = answer removed.settle) ∧
      (t.run.hold = .holdArmed → exec (.release source mode byte stepKind) s =
        answer (if removed.run.anyLive then removed else removed.setHold .running).settle) ∧
      (t.run.hold = .running ∨ t.run.hold = .resetHeld ∨ t.run.hold = .unpowered → exec (.release source mode byte stepKind) s = answer removed.settle) ∧
      (t.run.hold = .holding → removed.run.anyHolding = false → t.writeActive = false → t.cycleMapped = true →
        ∀ m, releaseMode mode byte stepKind = some m →
        ((∀ c, t.port.inFlight = some c → c.injected = false) → exec (.release source mode byte stepKind) s = answer (removed.releaseHold m).settle) ∧
        (∀ c, t.port.inFlight = some c → c.injected = true →
          exec (.release source mode byte stepKind) s = .next ((removed.occupy .release).releaseHold m).settle)))) ∧
  (∀ (byte : Option Byte) (stepKind : Option Nat) (d : Byte),
    releaseMode 0 byte stepKind = some .proceed ∧ releaseMode 1 (some d) stepKind = some (.substitute d) ∧
    releaseMode 2 byte (some 0) = some (.step .any) ∧ releaseMode 2 byte (some 1) = some (.step .fetch)) ∧
  (∀ (c : Cycle) (o : HoldOrigin) (s : State), s.port.inFlight = some c → s.run.origin = some o →
    let ended : HoldState → State := fun h =>
      { s.offer (.holdEnd o .release) true s.timeBase with run := { s.run with hold := h, origin := none, timer := none } }
    let next := if s.run.claims.any (fun k => k.step.any (fun p => !p.satisfied)) then HoldState.holdArmed else .running
    s.releaseHold .proceed = (ended next).performCycle c ∧
    (∀ d, s.releaseHold (.substitute d) = (ended next).completeCycle { c with substituted := true } d) ∧
    (∀ kind, s.releaseHold (.step kind) =
      (((ended s.run.hold).enterClaim { source := .step, level := none, address := some c.address, window := none, step := some kind }).setHold
        .holdArmed).performCycle c))

/-- What RESET TARGET and the hold-limit expiry do to run control and the target (R101, R109, R111): RESET_HELD, no claim, no rehearsal, no hold; the cycle that has
not begun performance is abandoned; the markers in their order. Reaching the limit moves the Time Base to it (log 4). The cutting off of every cycle: the hold's end
and its marker, the claims and the rehearsal flag, the abandonment, the marker of the reset (R18, R101). An abandoned cycle leaves the record, its TARGET request is
withdrawn, its pending decisions are dropped (R70), its record carries ABANDONED, a waiting TRACE_STOP acts, and the INJECT, RELEASE or SET FLOOR that waits for it
is answered (R108, R116); a cycle that has begun performance stays. -/
def Obligations.TargetResetCutsOff : Prop :=
  (∀ s : State,
    (s.port.inFlight = none → s.abandonCycle = s) ∧
    (∀ c, s.port.inFlight = some c →
      (c.phase = .performing → s.bus.target = false → s.abandonCycle = s) ∧
      (c.phase ≠ .performing ∨ s.bus.target = true →
        let record : CycleRecord :=
          { address := c.address, lane := c.lane, data := if c.kind = .write then c.writeData.getD 0 else 0, window := c.window, route := c.route, kind := c.kind,
            held := c.held, substituted := c.substituted, stretched := c.stretched, contention := c.contention, abandoned := true, injected := c.injected,
            matched := c.matched, fired := c.fired }
        let recorded := s.offer (.cycle record) (c.capture && c.gate) s.timeBase
        let stopped := if c.stopAfter then recorded.traceStop else recorded
        let gone : State := { stopped with
          port := { s.port with inFlight := none }, bus := { s.bus with target := false }, watch := s.watch.map (fun u => { u with pendingData := false }) }
        let delivery : Delivery := {
          abandoned := true, byte := none, matched := 0, fired := 0, raised := [],
          seq := if s.trace.appends (c.capture && c.gate) (.cycle record) then some s.trace.next else none }
        (c.injected = false → s.abandonCycle = gone) ∧
        (c.injected = true →
          (s.link.activity = .inject →
            s.abandonCycle = gone.respond .ok 0x37 (.inject c.window c.route c.matched c.fired c.raised c.held true s.run.hold none)) ∧
          (s.link.activity = .release →
            s.abandonCycle = gone.respond .ok 0x33 (.release s.run.hold (byUrgency s.run.claims) s.run.floor (some delivery))) ∧
          (s.link.activity = .floor → s.abandonCycle = gone.respond .ok 0x31 (.floor (some delivery))) ∧
          (s.link.activity ≠ .inject → s.link.activity ≠ .release → s.link.activity ≠ .floor → s.abandonCycle = gone))))) ∧
  (∀ (cause : EndCause) (after : HoldState) (marker : RecordBody) (s : State),
    let cleared : State → State := fun u => { u with run := { u.run with hold := after, claims := [], rehearsal := false } }
    (s.run.hold ≠ .holding → s.cutOff cause after marker = State.offer marker true s.timeBase (cleared s).abandonCycle) ∧
    (∀ o, s.run.hold = .holding → s.run.origin = some o →
      s.cutOff cause after marker = State.offer marker true s.timeBase (State.abandonCycle
        (cleared { s.offer (.holdEnd o cause) true s.timeBase with run := { s.run with origin := none, timer := none } })))) ∧
  (∀ s t : State, s.takes .resetTarget t →
    (t.run.hold = .unpowered → exec .resetTarget s = .next (t.respond .unpowered 0x34 .empty)) ∧
    (t.run.hold ≠ .unpowered → ∃ u, exec .resetTarget s = .next u ∧
      u = (t.cutOff .benchReset .resetHeld (.targetReset .bench)).settle.respond .ok 0x34 .empty ∧ u.targetReset = t.port.powered ∧
      u.link.sent = some { status := .ok, code := 0x34, answer := .empty } ∧
      u.run.hold = .resetHeld ∧ u.run.claims = [] ∧ u.run.rehearsal = false ∧ u.run.floor = t.run.floor ∧
      (t.run.hold = .holding → u.run.origin = none ∧ u.run.timer = none) ∧ u.windows = t.windows ∧ u.overlay = t.overlay ∧ u.probes = t.probes ∧ u.timeBase = t.timeBase ∧
      (∀ c, t.port.inFlight = some c → c.phase ≠ .performing ∨ t.bus.target = true → u.port.inFlight = none) ∧
      (t.port.inFlight = none → t.run.hold ≠ .holding → u.trace = (t.offer (.targetReset .bench) true t.timeBase).trace) ∧
      (∀ c o, t.port.inFlight = some c → c.phase = .held → c.stopAfter = false → t.run.hold = .holding → t.run.origin = some o →
        u.trace = (((t.offer (.holdEnd o .benchReset) true t.timeBase).offer (.cycle (c.record true)) (c.capture && c.gate) t.timeBase).offer
          (.targetReset .bench) true t.timeBase).trace))) ∧
  (∀ s : State,
    (∀ timer, s.run.timer = some timer → s.run.hold = .holding → s.port.prst = false →
      (∃ now : State, now = { s with timeBase := now.timeBase } ∧ timer.limit * 1000 % 4294967296 ≤ now.elapsed timer.start ∧
        exec .holdLimitExpiry s = .next (((now.cutOff .expiry .resetHeld (.targetReset .expiry)).latch .holdExpired).settle).takeDue) ∧
      ∃ u, exec .holdLimitExpiry s = .next u ∧ u.targetReset = s.port.powered ∧ timer.limit * 1000 % 4294967296 ≤ u.elapsed timer.start ∧
        u.noticed .holdExpired = true ∧ u.run.hold = .resetHeld ∧ u.run.claims = [] ∧
        u.run.rehearsal = false ∧ u.run.origin = none ∧ u.run.timer = none ∧ u.windows = s.windows ∧ u.overlay = s.overlay ∧ u.probes = s.probes ∧
        (∀ c o, s.port.inFlight = some c → c.phase = .held → c.stopAfter = false → s.run.origin = some o →
          u.port.inFlight = none ∧
          u.trace = (((s.offer (.holdEnd o .expiry) true u.timeBase).offer (.cycle (c.record true)) (c.capture && c.gate) u.timeBase).offer
            (.targetReset .expiry) true u.timeBase).trace)) ∧
    (s.run.timer = none ∨ s.run.hold ≠ .holding ∨ s.port.prst = true → exec .holdLimitExpiry s = .next s))

/-- RESUME, REHEARSE and END REHEARSAL: their refusals in order, and the standing claims taken up (R104, R111, R115); that REHEARSE and END REHEARSAL answer with an
empty payload is the model's choice (log 23). A RESUME that is taken releases the target reset output; where the supply is present and the board does not assert the
net, the net is then released, and the sense of board reset is enabled, else it stays as it was (R20, log 16). The target reset output and the board's reset net in
every state (R19, R20, R22, R192; the fence is RESET_HELD). -/
def Obligations.ResumeAndRehearse : Prop :=
  (∀ s : State,
    (s.targetReset = true ↔ s.port.powered = true ∧
      (s.run.hold = .resetHeld ∨ s.run.rehearsal = true ∨ s.overlay.survey = .powerOn ∨ (s.port.prst = true ∧ s.bus.owner = .free))) ∧
    (s.netAsserted = true ↔ s.port.boardReset = true ∨ s.targetReset = true) ∧
    (s.port.powered = true → s.netAsserted = false → s.senseNet = { s with port := { s.port with resetSense := true } }) ∧
    (s.port.powered = false ∨ s.netAsserted = true → s.senseNet = s)) ∧
  (∀ s t : State, s.takes .resume t →
    let freed : HoldState → State := fun h =>
      { t with run := { t.run with hold := h }, port := { t.port with resetSense := t.port.resetSense || (t.port.powered && !t.port.boardReset) } }
    (t.writeActive = true → exec .resume s = .next (t.respond .engineActive 0x35 .empty)) ∧
    (t.writeActive = false → ¬(t.run.hold = .resetHeld ∧ t.run.rehearsal = false) → exec .resume s = .next (t.respond .wrongState 0x35 .empty)) ∧
    (t.writeActive = false → t.run.hold = .resetHeld → t.run.rehearsal = false →
      (∃ u, exec .resume s = .next u ∧ u.targetReset = false) ∧
      (t.run.anyLive = false → exec .resume s = .next ((freed .running).settle.respond .ok 0x35 (.hold .running))) ∧
      (t.run.anyLive = true → t.port.waitWired = true →
        exec .resume s = .next ((freed .holdArmed).settle.respond .ok 0x35 (.hold .holdArmed))) ∧
      (t.run.anyLive = true → t.port.waitWired = false →
        exec .resume s = .next (((freed .running).latch .holdMissed).settle.respond .ok 0x35 (.hold .running))))) ∧
  (∀ s t : State, s.takes .rehearse t →
    (t.writeActive = true → exec .rehearse s = .next (t.respond .engineActive 0x36 .empty)) ∧
    (t.writeActive = false → t.run.hold ≠ .resetHeld → exec .rehearse s = .next (t.respond .wrongState 0x36 .empty)) ∧
    (t.writeActive = false → t.run.hold = .resetHeld →
      (∃ u, exec .rehearse s = .next u ∧ u.targetReset = t.port.powered) ∧
      exec .rehearse s =
        .next (State.settle { t with run := { t.run with rehearsal := true, hold := if t.run.anyLive then .holdArmed else .running } } |>.respond .ok 0x36 .empty))) ∧
  (∀ s t : State, s.takes .endRehearsal t →
    (t.run.rehearsal = false → exec .endRehearsal s = .next (t.respond .wrongState 0x38 .empty)) ∧
    (t.run.rehearsal = true → t.run.hold = .holding → exec .endRehearsal s = .next (t.respond .cycleHeld 0x38 .empty)) ∧
    (t.run.rehearsal = true → t.run.hold ≠ .holding →
      (∃ u, exec .endRehearsal s = .next u ∧ u.targetReset = t.port.powered) ∧
      exec .endRehearsal s =
        .next (State.settle { t with run := { t.run with rehearsal := false, claims := [], hold := .resetHeld } } |>.respond .ok 0x38 .empty)))

/-- INJECT: the refusals in the order of R116; else it presents its cycle and answers, once the cycle is held or completed, with what R116 and R108 give. An injected
FLOAT read that no watch unit tests delivers the float byte; in HOLD_ARMED the cycle is held where R99 admits it. While a cycle that is not held is in flight the
frame of one that no check of R116 refuses waits (log 17); one that a check refuses is refused at once. A byte carried by a READ or FETCH is ignored (log 41). In
every state that admits the command its cycle goes through GUARD, watch evaluation and hold decision as a target's does (R4; WatchEvaluationSetsUnits), and a held
one is answered with its claims. -/
def Obligations.InjectPresentsCycle : Prop :=
  (∀ (address lane kind : Nat) (data : Option Byte) (s : State),
    Instr.mustWait (.inject address lane kind data) s = true ↔
      (address ≤ 0xFFFFF ∧ (lane < 4 ∨ lane = 7) ∧ (kind < 2 ∨ (kind = 2 ∧ data ≠ none))) ∧ s.run.rehearsal = true ∧ s.run.hold ≠ .holding ∧
        s.port.inFlight ≠ none) ∧
  ∀ (address lane kind : Nat) (data : Option Byte) (s t : State), s.takes (.inject address lane kind data) t →
    let bad := 0xFFFFF < address ∨ (3 < lane ∧ lane ≠ 7) ∨ 2 < kind ∨ (kind = 2 ∧ data = none)
    (Kind.ofCode kind = match kind with | 0 => some .read | 1 => some .fetch | 2 => some .write | _ => none) ∧
    (cycleLaneOfCode lane = if h : lane < 4 then some (some ⟨lane, h⟩) else if lane = 7 then some none else none) ∧
    (bad → exec (.inject address lane kind data) s = .next (t.respond .badValue 0x37 .empty)) ∧
    (¬bad → t.run.rehearsal = false → exec (.inject address lane kind data) s = .next (t.respond .wrongState 0x37 .empty)) ∧
    (¬bad → t.run.rehearsal = true → t.run.hold = .holding → exec (.inject address lane kind data) s = .next (t.respond .cycleHeld 0x37 .empty)) ∧
    (∀ (l : Lane) (k : Kind), ¬bad → t.run.rehearsal = true → t.run.hold ≠ .holding → cycleLaneOfCode lane = some l → Kind.ofCode kind = some k →
      let c := t.present address l k data false true
      let record : CycleRecord :=
        { address := address, lane := l, data := t.floatByte, window := c.window, route := .float, kind := k, held := false, substituted := false, stretched := false,
          contention := false, abandoned := false, injected := true, matched := 0, fired := 0 }
      let ended : Delivery :=
        { abandoned := false, byte := some t.floatByte, matched := 0, fired := 0, raised := [],
          seq := if t.trace.appends (c.capture && c.gate) (.cycle record) then some t.trace.next else none }
      let answered : Cycle → State → Result := fun k2 v =>
        let u := State.settle ((watchEvaluate k2 v).2.holdDecision (watchEvaluate k2 v).1)
        .next (match u.port.inFlight with
          | some h => if h.phase = .held
              then u.respond .ok 0x37 (.inject h.window h.route h.matched h.fired h.raised h.held false u.run.hold none) else u
          | none => u)
      let taken := t.occupy .inject
      (c.location.all t.overlay.maps = true → ∃ u, exec (.inject address lane kind data) s = .next u) ∧
      (c.location.all t.overlay.maps = true →
        (c.route ≠ .guard ∨ k ≠ .write → exec (.inject address lane kind data) s = answered c taken) ∧
        (c.route = .guard → k = .write → (resolve t.windows address l).guardLevel = none →
          exec (.inject address lane kind data) s = answered c (taken.latch .guard)) ∧
        (∀ level, c.route = .guard → k = .write → (resolve t.windows address l).guardLevel = some level →
          exec (.inject address lane kind data) s = answered { c with raised := [.guard] }
            ((taken.latch .guard).enterClaim { source := .guard, level := some level, address := some address, window := c.window, step := none }))) ∧
      (c.location.all t.overlay.maps = false → exec (.inject address lane kind data) s = .fault .noOverlayPage) ∧
      ((∀ i : Fin 4, t.watch[i].matching = false ∧ t.watch[i].pendingData = false) → t.run.hold = .running → c.route = .float → k ≠ .write →
        ∃ u, exec (.inject address lane kind data) s = .next u ∧ t.sameTables u ∧ u.run = t.run ∧ u.port = t.port ∧ u.link.activity = .sending ∧
          u.trace = (t.offer (.cycle record) (c.capture && c.gate) t.timeBase).trace ∧
          u.link.sent = some { status := .ok, code := 0x37, answer := .inject c.window .float 0 0 [] false false .running (some ended) }) ∧
      ((∀ i : Fin 4, t.watch[i].matching = false) → t.run.hold = .holdArmed → t.run.anyLive = true →
        t.run.anyHolding = true ∨ t.run.stepAdmits k = true → ¬(c.route = .guard ∧ k = .write) → c.location.all t.overlay.maps = true →
        ∃ u, exec (.inject address lane kind data) s = .next u ∧ t.sameTables u ∧ u.run.hold = .holding ∧ u.noticed .hold = true ∧
          u.port = { t.port with inFlight := some { c with phase := .held, held := true } } ∧ u.link.activity = .sending ∧
          u.link.sent = some { status := .ok, code := 0x37, answer := .inject c.window c.route 0 0 [] true false .holding none }))

/-- LIST CLAIMS answers every claim, the most urgent first, with the floor, the hold state and the rehearsal flag, and changes nothing (R117): a satisfied STEP
first, then the claims with a level, lower level before higher and of one level the lower source code first, a waiting step last (R97). The bytes of a claim entry
and of the answer (11.6; the order of the answer's fields is that of R117). -/
def Obligations.ListClaimsByUrgency : Prop :=
  (∀ s t : State, s.takes .listClaims t →
    ∃ l : List Claim, exec .listClaims s = .next (t.respond .ok 0x39 (.claims l t.run.floor t.run.hold t.run.rehearsal)) ∧
      l.Perm t.run.claims ∧ l.Pairwise (fun a b => a.before b = true)) ∧
  (∀ a b : Claim, a.before b = true →
    (∀ p, b.step = some p → p.satisfied = true → ∃ q, a.step = some q ∧ q.satisfied = true) ∧
    (a.step = none → b.step = none → ∀ m n, a.level = some m → b.level = some n → m < n ∨ (m = n ∧ a.source.code ≤ b.source.code)) ∧
    (∀ q, a.step = some q → q.satisfied = false → ∃ p, b.step = some p ∧ p.satisfied = false)) ∧
  (∀ (floor : Nat) (k : Claim), k.live floor = true ↔ k.level = none ∨ ∃ n, k.level = some n ∧ n < floor) ∧
  (∀ (claims : List Claim) (floor : Nat) (hold : HoldState) (rehearsal : Bool), claims.length ≤ 255 →
    (Answer.claims claims floor hold rehearsal).payload = [BitVec.ofNat 8 claims.length] ++ claims.flatMap (Claim.bytes floor) ++
      [BitVec.ofNat 8 floor, match hold with | .running => 0 | .holdArmed => 1 | .holding => 2 | .resetHeld => 3 | .unpowered => 4, if rehearsal then 1 else 0]) ∧
  (∀ (floor : Nat) (k : Claim), Claim.bytes floor k =
    [BitVec.ofNat 8 (match k.source with | .watch i => i.val | .probe i => 4 + i.val | .guard => 8 | .halt => 9 | .step => 10),
     BitVec.ofNat 8 (k.level.getD 255), BitVec.ofNat 8 k.repeats,
     BitVec.ofNat 8 ((if k.live floor then 1 else 0) + (if k.step.any StepPart.satisfied then 2 else 0) + (if k.step.any (fun p => decide (p.kind = .fetch)) then 4 else 0))] ++
    leBytes 4 k.stamp.toNat ++ leBytes 3 (k.address.getD 0xFFFFFF) ++ [match k.window with | some w => BitVec.ofNat 8 w.val | none => 0xFF])

/-- The board's reset source (R20, R112): seen where the net goes from released to asserted, sensing is enabled and the supply is present, it empties the claims,
ends a hold, abandons the cycle that has not begun, latches TARGET_RESET, hands over its markers in order, and leaves RUNNING, or RESET_HELD by the fence under a
write-class job, with the target reset output asserted (R19). Otherwise only the line's level moves. What `cutOff` does is in TargetResetCutsOff. -/
def Obligations.BoardResetSeenAndReleased : Prop :=
  ∀ s : State,
    (s.port.prst = false → s.port.powered = true → s.port.resetSense = true → s.netAsserted = false →
      ∃ u, exec .boardResetSeen s = .next u ∧
        u = ((State.cutOff .boardReset (if s.writeActive then .resetHeld else .running) (.targetReset .board)
          { s with port := { s.port with boardReset := true } }).latch .targetReset).settle ∧
        u.targetReset = s.writeActive ∧ u.port.boardReset = true ∧ u.noticed .targetReset = true ∧
        u.run.hold = (if s.writeActive then .resetHeld else .running) ∧ u.run.claims = [] ∧ u.run.rehearsal = false ∧ u.run.floor = s.run.floor ∧
        (s.run.hold = .holding → u.run.origin = none ∧ u.run.timer = none) ∧ u.windows = s.windows ∧ u.floatByte = s.floatByte ∧ u.overlay = s.overlay ∧
        u.probes = s.probes ∧ u.timeBase = s.timeBase ∧ u.pending = s.pending ∧
        (∀ c, s.port.inFlight = some c → c.phase ≠ .performing ∨ s.bus.target = true → u.port.inFlight = none) ∧
        (s.port.inFlight = none → s.run.hold ≠ .holding → u.watch = s.watch ∧ u.trace = (s.offer (.targetReset .board) true s.timeBase).trace) ∧
        (∀ c o, s.port.inFlight = some c → c.phase = .held → c.stopAfter = false → s.run.hold = .holding → s.run.origin = some o →
          u.trace = (((s.offer (.holdEnd o .boardReset) true s.timeBase).offer (.cycle (c.record true)) (c.capture && c.gate) s.timeBase).offer
            (.targetReset .board) true s.timeBase).trace)) ∧
    (s.port.prst = true ∨ s.port.powered = false ∨ s.port.resetSense = false ∨ s.netAsserted = true →
      exec .boardResetSeen s = .next { s with port := { s.port with boardReset := true } }) ∧
    (s.port.prst = true ∨ s.port.powered = false ∨ s.targetReset = true →
      exec .boardResetReleased s = .next { s with port := { s.port with boardReset := false } }) ∧
    (s.port.prst = false → s.port.powered = true → s.targetReset = false →
      exec .boardResetReleased s = .next { s with port := { s.port with boardReset := false, resetSense := true } })

/-- The supply (R21, R22, R23, R113, R114, R164, R182): below the loss level of the threshold index it is lost, at the return level it has returned, and between them
only the level moves. The rows carry the level that the pin reaches (log 15). A PEEK or POKE is cut short at its first board-bound byte that had not been granted:
with a byte granted that byte is let end, with none left the command is answered (R146). Only the board access in progress is finished: an engine run is left with
that access, which no job waits for any more, and a line survey frees the bus (R22, R150, R182). QUEUED and WAITING entries stay, but where ABORT ENGINE waits they
end CANCELLED after the ACTIVE job, and it is answered with their number plus one (R181; log 36). The CRC of a SUM so ended is that of the bytes it has read, the
model's deduction (R178, log 46). A supply that returns waits for the net's release before board
reset is sensed (R20, log 16). While the supply is absent the target reset output does not drive the net, and once the access in progress has ended every pin of the
two faces, WAIT among them, is in high impedance (R19, R22). What `cutOff` does is in TargetResetCutsOff. -/
def Obligations.SupplyLostAndReturned : Prop :=
  ∀ (level : Nat) (c : Instr) (s : State), c = .supplyLost level ∨ c = .supplyReturned level → s.port.prst = false →
    let loss := match s.run.threshold with | 0 => 1500 | 1 => 2500 | 2 => 3000 | 3 => 4200
    let back := match s.run.threshold with | 0 => 1600 | 1 => 2600 | 2 => 3100 | 3 => 4300
    let moved : State := { s with port := { s.port with supply := level } }
    let lastAccess := match s.bus.owner with
      | .engine (.accesses lane (a :: _)) => .ended lane a
      | .engine _ => .free
      | o => o
    let waits : Job → Bool := fun k => decide (k.state = .queued ∨ k.state = .waiting)
    let endedAs : Job → JobOutcome → Option Nat → Nat × Nat → Crc → Stamp → Completion := fun k outcome reached counts crc elapsed =>
      { outcome := outcome, reached := reached, expected := none, read := none, counts := if k.op.policy.isSome then some counts else none,
        crc := if k.op = .sum then some crc else none, elapsed := elapsed }
    (s.port.powered = true → loss ≤ level → exec c s = .next moved) ∧
    (s.port.powered = false → level < back → exec c s = .next moved) ∧
    (s.port.powered = true → level < loss → s.jobTable →
      ∃ u, exec c s = .next u ∧ u.port.powered = false ∧ u.port.supply = level ∧ u.noticed .power = true ∧ u.run.hold = .unpowered ∧ u.run.claims = [] ∧
        u.run.rehearsal = false ∧ (s.run.hold = .holding → u.run.origin = none ∧ u.run.timer = none) ∧
        (∀ k, s.port.inFlight = some k → k.phase ≠ .performing ∨ s.bus.target = true → u.port.inFlight = none) ∧
        (∀ tr b rest, s.link.activity = .transfer tr → tr.todo = b :: rest →
          (s.bus.owner = .bench ∨ b.boardBound = false → u.bus.owner = s.bus.owner.lastAccess ∧
            u.link.activity = .transfer { tr with todo := b :: rest.takeWhile (fun x => !x.boardBound) } ∧ u.link.sent = s.link.sent) ∧
          (s.bus.owner ≠ .bench → b.boardBound = true → u.bus.bench = none ∧ u.link.activity = .sending ∧
            (tr.form = .peek → u.link.sent = some { status := .ok, code := 0x50, answer := .peeked tr.made tr.count }) ∧
            (tr.form = .poke → u.link.sent = some { status := .ok, code := 0x51, answer := .poked tr.count }))) ∧
        (let cut := State.cutOff .power .unpowered (.power true) { s with port := { s.port with supply := level, powered := false } }
         u.port = cut.port ∧ u.run = cut.run ∧ u.watch = cut.watch ∧ u.trace = cut.trace ∧ u.bus.target = cut.bus.target ∧
           (s.link.activity = .inject ∨ s.link.activity = .release ∨ s.link.activity = .floor → u.link.activity = cut.link.activity ∧ u.link.sent = cut.link.sent)) ∧
        u.targetReset = false ∧ (lastAccess = .free → u.highImpedance = true ∧ u.wait = false) ∧
        u.bus.owner = lastAccess ∧ u.bus.engine = none ∧ u.bus.survey = false ∧ u.bus.lineMap = s.bus.lineMap ∧ u.activeJob = none ∧
        (∀ j a, j ∈ s.engine.jobs → j.state = .active a →
          { j with state := .ended (endedAs j .powerLost (some a.current) (a.mismatches, a.unsteady) (~~~a.crc) (s.timeBase - a.start)) } ∈ u.engine.jobs) ∧
        (s.link.activity ≠ .abort → ∀ k ∈ s.engine.jobs, waits k = true → k ∈ u.engine.jobs ∨ { k with state := .waiting } ∈ u.engine.jobs) ∧
        (∀ j a, s.link.activity = .abort → s.activeJob = some j → j.state = .active a →
          u.link.activity = .sending ∧
          u.link.sent = some { status := .ok, code := 0x74, answer := .ended ((s.engine.jobs.filter waits).length + 1) } ∧
          u.engine = { jobs := s.engine.jobs.map (fun k =>
                         if waits k then { k with state := .ended (endedAs k .cancelled none (0, 0) 0 0) }
                         else if k.number = j.number then { k with state := .ended (endedAs j .powerLost (some a.current) (a.mismatches, a.unsteady) (~~~a.crc) (s.timeBase - a.start)) }
                         else k),
                       endOrder := s.engine.endOrder ++ j.number :: (s.engine.jobs.filter waits).map Job.number, nextNumber := s.engine.nextNumber }) ∧
        (∀ i : Fin 4, u.lanes[i] = if s.lanes[i].profile.any (fun p => decide (p.cls = .flash)) then { s.lanes[i] with owed := true } else s.lanes[i]) ∧
        u.windows = s.windows ∧ u.floatByte = s.floatByte ∧ u.probes = s.probes ∧ u.timeBase = s.timeBase ∧ u.overlay = s.overlay ∧ u.pending = s.pending ∧
        (s.port.inFlight = none → s.run.hold ≠ .holding → u.watch = s.watch ∧ u.trace = (s.offer (.power true) true s.timeBase).trace) ∧
        (∀ k o, s.port.inFlight = some k → k.phase = .held → k.stopAfter = false → s.run.hold = .holding → s.run.origin = some o →
          u.trace = (((s.offer (.holdEnd o .power) true s.timeBase).offer (.cycle (k.record true)) (k.capture && k.gate) s.timeBase).offer
            (.power true) true s.timeBase).trace)) ∧
    (s.port.powered = false → back ≤ level →
      ∃ u, exec c s = .next u ∧ s.sameTables u ∧ u.port = { s.port with supply := level, powered := true, resetSense := false } ∧
        u.highImpedance = false ∧ u.noticed .power = true ∧
        u.run = { s.run with hold := if s.run.powerUpHold then .resetHeld
                                      else if s.run.anyLive && (s.run.rehearsal || s.port.waitWired) then .holdArmed else .running } ∧
        (s.run.powerUpHold = false → s.run.anyLive = true → s.run.rehearsal = false → s.port.waitWired = false → u.noticed .holdMissed = true) ∧
        u.trace = (s.offer (.power false) true s.timeBase).trace)

/-! ### The Trace Store -/

/-- TRACE SETUP, TRACE ARM, TRACE HALT, TRACE STATUS and DRAIN: their refusals in order, what they write, what they answer (R121, R125, R126, R131, R132, R134,
R136). The 16 bytes of a trace record (11.6). -/
def Obligations.TraceCommands : Prop :=
  (∀ (f : TraceFields) (s t : State), s.takes (.traceSetup f) t →
    let bad := 1 < f.fillMode ∨ 4095 < f.postCount ∨ f.watermark = 0 ∨ 4096 < f.watermark
    (bad → exec (.traceSetup f) s = .next (t.respond .badValue 0x40 .empty)) ∧
    (¬bad → t.trace.capture ≠ .idle → t.trace.capture ≠ .stopped → exec (.traceSetup f) s = .next (t.respond .wrongState 0x40 .empty)) ∧
    (¬bad → t.trace.capture = .idle ∨ t.trace.capture = .stopped →
      exec (.traceSetup f) s =
        .next (({ t with trace := { t.trace with
                    setup := { fillMode := if f.fillMode = 0 then .ring else .fillStop, postCount := f.postCount, watermark := f.watermark,
                               engineCycles := f.engineCycles, edges := f.edges, markers := f.markers },
                    markLatch := decide (f.watermark ≤ t.trace.records.length) } } : State).respond .ok 0x40 .empty))) ∧
  (∀ (mode : Nat) (s t : State), s.takes (.traceArm mode) t →
    (1 < mode → exec (.traceArm mode) s = .next (t.respond .badValue 0x41 .empty)) ∧
    (mode ≤ 1 → t.trace.capture ≠ .idle → t.trace.capture ≠ .stopped → exec (.traceArm mode) s = .next (t.respond .wrongState 0x41 .empty)) ∧
    (mode ≤ 1 → t.trace.capture = .idle ∨ t.trace.capture = .stopped →
      exec (.traceArm mode) s =
        .next (({ t with trace := { t.trace with capture := if mode = 0 then .recording else .waiting, tail := 0 } } : State).respond .ok 0x41 .empty))) ∧
  (∀ s t : State, s.takes .traceHalt t →
    (t.trace.capture = .stopped → exec .traceHalt s = .next (t.respond .ok 0x42 .empty)) ∧
    (t.trace.capture ≠ .stopped →
      exec .traceHalt s = .next ((({ t with trace := { t.trace with capture := .stopped } } : State).latch .traceStopped).respond .ok 0x42 .empty))) ∧
  (∀ s t : State, s.takes .traceStatus t →
    ∃ oldest, exec .traceStatus s =
        .next (t.respond .ok 0x44 (.traceStatus t.trace.capture t.trace.records.length oldest t.trace.next t.trace.tail t.trace.setup)) ∧
      (t.trace.records = [] → oldest = t.trace.next) ∧ (∀ r rest, t.trace.records = r :: rest → oldest = r.seq) ∧
      (t.traceConsecutive → BitVec.ofNat 32 t.trace.records.length = t.trace.next - oldest)) ∧
  (∀ (count : Nat) (s t : State), s.takes (.drain count) t →
    (count = 0 ∨ 64 < count → exec (.drain count) s = .next (t.respond .badValue 0x45 .empty)) ∧
    (1 ≤ count → count ≤ 64 →
      exec (.drain count) s =
        .next (({ t with trace := { t.trace with
                    records := t.trace.records.drop count,
                    markLatch := t.trace.markLatch && decide (t.trace.setup.watermark ≤ t.trace.records.length - count) } } : State).respond .ok 0x45
          (.records (t.trace.records.take count))))) ∧
  (∀ l : List TraceRecord, l.length ≤ 255 → (Answer.records l).payload = [BitVec.ofNat 8 l.length] ++ l.flatMap TraceRecord.bytes) ∧
  (∀ r : TraceRecord, r.bytes.length = 16 ∧
    r.bytes = leBytes 4 r.seq.toNat ++ leBytes 4 r.stamp.toNat ++
      [match r.body with
       | .cycle _ => 0 | .engine _ _ _ _ => 1 | .edge _ _ => 2 | .holdBegin _ => 3 | .holdEnd _ _ => 4 | .targetReset _ => 5 | .power _ => 6] ++ r.body.bytes) ∧
  (∀ c : CycleRecord, c.address < 0x100000 → (RecordBody.cycle c).bytes =
    leBytes 3 (c.address + 0x100000 * (match c.lane with | some n => n.val | none => 7)) ++
    [c.data,
     BitVec.ofNat 8 ((match c.window with | some w => w.val | none => 128) +
       16 * (match c.route with | .pass => 0 | .overlay => 1 | .overlayRo => 2 | .shadow => 3 | .guard => 4 | .float => 5)),
     BitVec.ofNat 8 ((if c.held then 1 else 0) + (if c.substituted then 2 else 0) + (if c.stretched then 4 else 0) + (if c.contention then 8 else 0) +
       (if c.abandoned then 16 else 0) + (if c.injected then 32 else 0) + 64 * (match c.kind with | .read => 0 | .fetch => 1 | .write => 2)),
     BitVec.ofNat 8 (c.matched.toNat + 16 * c.fired.toNat)]) ∧
  (∀ (address : Nat) (lane : Fin 4) (data : Byte) (write : Bool), address < 0x100000 → (RecordBody.engine address lane data write).bytes =
    leBytes 3 (address + 0x100000 * lane.val) ++ [data, 0, if write then 0x80 else 0, 0]) ∧
  (∀ (line : Fin 4) (rising : Bool), (RecordBody.edge line rising).bytes = [BitVec.ofNat 8 line.val, if rising then 0 else 1, 0, 0, 0, 0, 0]) ∧
  (∀ (o : HoldOrigin) (cause : EndCause),
    let source : Byte := BitVec.ofNat 8 (match o.source with | .watch i => i.val | .probe i => 4 + i.val | .guard => 8 | .halt => 9 | .step => 10)
    (RecordBody.holdBegin o).bytes = [source, BitVec.ofNat 8 (o.level.getD 255), 0, 0, 0, 0, 0] ∧
    (RecordBody.holdEnd o cause).bytes = [source, BitVec.ofNat 8 (o.level.getD 255),
      match cause with | .release => 0 | .floor => 1 | .expiry => 2 | .boardReset => 3 | .benchReset => 4 | .power => 5, 0, 0, 0, 0]) ∧
  (∀ origin : ResetOrigin, (RecordBody.targetReset origin).bytes = [match origin with | .board => 0 | .bench => 1 | .expiry => 2, 0, 0, 0, 0, 0, 0]) ∧
  (∀ lost : Bool, (RecordBody.power lost).bytes = [if lost then 0 else 1, 0, 0, 0, 0, 0, 0])

/-- R135, whole: TRACE CLEAR empties the store, leaves IDLE, tail 0 and the mark latch clear, keeps the next sequence number and the setup, latches nothing and
touches nothing else; the oldest number then equals the next; a start or a record that comes after has no effect; a record taken before is emptied with the rest but
has used its number. -/
def Obligations.TraceClearEmptiesStore : Prop :=
  ∀ s t : State, s.takes .traceClear t →
    ∃ u : State, exec .traceClear s = .next u ∧
      u = ({ t with trace := { t.trace with records := [], capture := .idle, tail := 0, markLatch := false } } : State).respond .ok 0x43 .empty ∧
      u.trace.next = t.trace.next ∧ u.trace.setup = t.trace.setup ∧ u.link.pending = t.link.pending ∧ u.watch = t.watch ∧ u.trace.oldest = u.trace.next ∧
      u.traceStart = u ∧ (∀ b sent stamp, u.offer b sent stamp = u) ∧
      (∀ b sent stamp, t.trace.appends sent b = true → (t.offer b sent stamp).trace.next = t.trace.next + 1)

/-- A record handed to the Trace Store: discarded without a sign unless capture is RECORDING or TAILING and its kind qualifies (R120, R128); else appended with the
next sequence number and its stamp (R127), in RING mode over the oldest when the store is full (R129), counted in the tail (R124) and against the watermark (R131);
or, with a full store in FILL_STOP mode, not appended and the capture STOPPED (R130). -/
def Obligations.OfferAppendsOrDiscards : Prop :=
  ∀ (b : RecordBody) (sent : Bool) (stamp : Stamp) (s : State),
    let qualifies := match b with
      | .cycle _ => sent
      | .engine _ _ _ _ => s.trace.setup.engineCycles
      | .edge _ _ => s.trace.setup.edges
      | .holdBegin _ => s.trace.setup.markers
      | .holdEnd _ _ => s.trace.setup.markers
      | .targetReset _ => s.trace.setup.markers
      | .power _ => s.trace.setup.markers
    let capturing := s.trace.capture = .recording ∨ s.trace.capture = .tailing
    let t := s.offer b sent stamp
    let kept := if 4096 ≤ s.trace.records.length then s.trace.records.drop 1 else s.trace.records
    (¬capturing ∨ qualifies = false → t = s) ∧
    (capturing → qualifies = true → s.trace.records.length < 4096 ∨ s.trace.setup.fillMode = .ring →
      t = { s with trace := t.trace, link := { s.link with pending := t.link.pending } } ∧
      t.trace.records = kept ++ [{ seq := s.trace.next, stamp := stamp, body := b }] ∧ t.trace.next = s.trace.next + 1 ∧ t.trace.setup = s.trace.setup ∧
      t.trace.markLatch = (s.trace.markLatch || decide (s.trace.setup.watermark ≤ kept.length + 1)) ∧
      (s.trace.setup.watermark ≤ kept.length + 1 → s.trace.markLatch = false → t.noticed .traceMark = true) ∧
      (s.trace.markLatch = true ∨ kept.length + 1 < s.trace.setup.watermark → t.noticed .traceMark = s.noticed .traceMark) ∧
      (s.trace.capture = .recording → t.trace.capture = .recording ∧ t.trace.tail = s.trace.tail ∧ t.noticed .traceStopped = s.noticed .traceStopped) ∧
      (s.trace.capture = .tailing → t.trace.tail = s.trace.tail - 1 ∧ t.trace.capture = (if s.trace.tail ≤ 1 then .stopped else .tailing) ∧
        t.noticed .traceStopped = (s.noticed .traceStopped || decide (s.trace.tail ≤ 1)))) ∧
    (capturing → qualifies = true → 4096 ≤ s.trace.records.length → s.trace.setup.fillMode = .fillStop →
      t = ({ s with trace := { s.trace with capture := .stopped } } : State).latch .traceStopped)

/-! ### The board bus -/

/-- The grant rule (R139 to R141): nothing while the bus is owned, the supply absent or the part held in reset; only TARGET while the bus is kept for it, without
aging; else an aged BENCH, an aged ENGINE, TARGET with one more aging for each that waits, BENCH, ENGINE. -/
def Obligations.ArbiterGrantsByRule : Prop :=
  ∀ s : State,
    (s.busKept = true ↔ (s.run.hold = .running ∨ s.run.hold = .holdArmed) ∧ s.run.rehearsal = false ∧ s.port.powered = true ∧ s.port.waitWired = false) ∧
    (s.bus.owner ≠ .free ∨ s.port.powered = false ∨ s.port.prst = true → s.arbitrate = s) ∧
    (s.bus.owner = .free → s.port.powered = true → s.port.prst = false →
      (s.busKept = true → s.bus.target = true → s.arbitrate = { s with bus := { s.bus with owner := .target, target := false } }) ∧
      (s.busKept = true → s.bus.target = false → s.arbitrate = s) ∧
      (s.busKept = false →
        (s.bus.bench = some 4 → s.arbitrate = { s with bus := { s.bus with owner := .bench, bench := none } }) ∧
        (∀ w, s.bus.bench ≠ some 4 → s.bus.engine = some { aging := 4, work := w } →
          s.arbitrate = { s with bus := { s.bus with owner := .engine w, engine := none } }) ∧
        (s.bus.bench ≠ some 4 → (∀ r, s.bus.engine = some r → r.aging ≠ 4) →
          (s.bus.target = true →
            s.arbitrate = { s with bus := { s.bus with owner := .target, target := false, bench := s.bus.bench.map (fun n => min 4 (n + 1)),
                                                       engine := s.bus.engine.map (fun r => { r with aging := min 4 (r.aging + 1) }) } }) ∧
          (∀ n, s.bus.target = false → s.bus.bench = some n → s.arbitrate = { s with bus := { s.bus with owner := .bench, bench := none } }) ∧
          (∀ r, s.bus.target = false → s.bus.bench = none → s.bus.engine = some r →
            s.arbitrate = { s with bus := { s.bus with owner := .engine r.work, engine := none } }) ∧
          (s.bus.target = false → s.bus.bench = none → s.bus.engine = none → s.arbitrate = s))))

/-- PEEK and POKE: the refusals in the order of R144; each byte of the TARGET_VIEW path is resolved as a cycle of the view lane, those of the BOARD path go to the
board, and the bytes are made one by one (R43, R44, R143). On the BOARD path the first one asks for the bus; a command with no board-bound byte that is given with
the receive queue empty is made and answered at once, reading overlay and float bytes, writing overlay bytes through OVERLAY and OVERLAY_RO, dropping the writes on
GUARD and FLOAT. How the bytes follow one another: a board-bound byte places its request, another one is made at once, or in a step of its own where the command came
from the receive queue (R58; log 38); after the last the command is answered. How a command is cut short (R145, R146): a granted byte is finished, the bytes before
the cut are made, and with none left the request is withdrawn and the command answered with its count. What makes a cut is in SupplyLostAndReturned and
StartRuleAndPolls; a granted SHADOW byte writes its overlay byte as its board access ends (log 18; BoardAccessEnds). -/
def Obligations.PeekAndPoke : Prop :=
  let viewed : State → Nat → Option Lane → Nat → Option Byte → TransferByte := fun t path l address write =>
    if path = 0 then { address := address, write := write, route := .pass, location := none }
    else { address := address, write := write, route := (resolve t.windows address (l.getD none)).route,
           location := (resolve t.windows address (l.getD none)).location }
  let laneOf : Nat → Option Lane := fun lane => if lane = 7 then some none else if h : lane < 4 then some (some ⟨lane, h⟩) else none
  let busy : State → List TransferByte → Prop := fun t bytes =>
    ∃ j p b, t.activeJob = some j ∧ j.op.writeClass = true ∧ t.lanes[j.lane].profile = some p ∧ b ∈ bytes ∧ b.boardBound = true ∧ p.base ≤ b.address ∧
      b.address < p.base + p.size
  let overlays : State → Nat → List TransferByte → Prop := fun t path bytes =>
    path = 1 ∧ t.overlay.survey = .commanded ∧ ∃ b ∈ bytes, b.route = .overlay ∨ b.route = .overlayRo ∨ b.route = .shadow
  let barred : State → Nat → List TransferByte → Prop := fun t path bytes =>
    overlays t path bytes ∨ ((∃ b ∈ bytes, b.boardBound = true) ∧ (t.port.powered = false ∨ t.busKept = true ∨ busy t bytes))
  (∀ b : TransferByte, b.boardBound = true ↔
    b.route = .pass ∨ (b.route = .guard ∧ b.write = none) ∨ (b.route = .shadow ∧ b.write.isSome = true)) ∧
  (∀ (path address count lane : Nat) (s t : State), s.takes (.peek path address count lane) t →
    let bad := 1 < path ∨ (path = 1 ∧ 3 < lane ∧ lane ≠ 7) ∨ 0xFFFFF < address ∨ count = 0 ∨ 256 < count ∨ 0x100000 < address + count
    let bytes := (List.range count).map (fun i => viewed t path (laneOf lane) (address + i) none)
    let bound := ∃ b ∈ bytes, b.boardBound = true
    let answered : Status → Prop := fun status => exec (.peek path address count lane) s = .next (t.respond status 0x50 .empty)
    (bad → answered .badValue) ∧
    (¬bad → overlays t path bytes → answered .overlayBusy) ∧
    (¬bad → ¬overlays t path bytes → bound → t.port.powered = false → answered .unpowered) ∧
    (¬bad → ¬overlays t path bytes → bound → t.port.powered = true → t.busKept = true → answered .targetRunning) ∧
    (¬bad → ¬overlays t path bytes → bound → t.port.powered = true → t.busKept = false → busy t bytes → answered .laneBusy) ∧
    (¬bad → ¬barred t path bytes → (∀ b ∈ bytes, ∀ l, b.location = some l → t.overlay.maps l = true) →
      let tr : Transfer := { form := .peek, bytewise := !s.link.queue.isEmpty, todo := bytes, made := [], count := 0 }
      exec (.peek path address count lane) s = .next (t.runTransfer bytes tr).settle ∧
      (path = 0 → exec (.peek path address count lane) s = .next ((t.occupy (.transfer tr)).requestBench).settle) ∧
      (¬bound → s.link.queue = [] →
        exec (.peek path address count lane) s =
          .next (t.respond .ok 0x50 (.peeked (bytes.map (fun b => match b.location with
            | some l => t.overlay.readByte l
            | none => t.floatByte)) count)).settle))) ∧
  (∀ (path address : Nat) (data : List Byte) (lane : Nat) (s t : State), s.takes (.poke path address data lane) t →
    let bad := 1 < path ∨ (path = 1 ∧ 3 < lane ∧ lane ≠ 7) ∨ 0xFFFFF < address ∨ 0x100000 < address + data.length
    let short := data.length = 0 ∨ 256 < data.length
    let bytes := data.mapIdx (fun i d => viewed t path (laneOf lane) (address + i) (some d))
    let bound := ∃ b ∈ bytes, b.boardBound = true
    let stored := bytes.foldl (fun o b => match b.location with
      | some l => o.writeByte l (b.write.getD 0)
      | none => o) t.overlay
    let answered : Status → Prop := fun status => exec (.poke path address data lane) s = .next (t.respond status 0x51 .empty)
    (bad → answered .badValue) ∧
    (¬bad → short → answered .badLength) ∧
    (¬bad → ¬short → overlays t path bytes → answered .overlayBusy) ∧
    (¬bad → ¬short → ¬overlays t path bytes → bound → t.port.powered = false → answered .unpowered) ∧
    (¬bad → ¬short → ¬overlays t path bytes → bound → t.port.powered = true → t.busKept = true → answered .targetRunning) ∧
    (¬bad → ¬short → ¬overlays t path bytes → bound → t.port.powered = true → t.busKept = false → busy t bytes → answered .laneBusy) ∧
    (¬bad → ¬short → ¬barred t path bytes → (∀ b ∈ bytes, ∀ l, b.location = some l → t.overlay.maps l = true) →
      let tr : Transfer := { form := .poke, bytewise := !s.link.queue.isEmpty, todo := bytes, made := [], count := 0 }
      exec (.poke path address data lane) s = .next (t.runTransfer bytes tr).settle ∧
      (path = 0 → exec (.poke path address data lane) s = .next ((t.occupy (.transfer tr)).requestBench).settle) ∧
      (¬bound → s.link.queue = [] →
        exec (.poke path address data lane) s =
          .next (({ t with overlay := stored } : State).respond .ok 0x51 (.poked data.length)).settle))) ∧
  (∀ (b : TransferByte) (rest : List TransferByte) (tr : Transfer) (s : State),
    let written := match b.write, b.location with
      | some d, some l => { s with overlay := s.overlay.writeByte l d }
      | _, _ => s
    let read := match b.location with
      | some l => s.overlay.readByte l
      | none => s.floatByte
    (tr.form = .peek → s.runTransfer [] tr = s.respond .ok 0x50 (.peeked tr.made tr.count)) ∧
    (tr.form = .poke → s.runTransfer [] tr = s.respond .ok 0x51 (.poked tr.count)) ∧
    (b.boardBound = true →
      s.runTransfer (b :: rest) tr =
        { s with link := { s.link with activity := .transfer { tr with todo := b :: rest } }, bus := { s.bus with bench := some 0 } }) ∧
    (b.boardBound = false → tr.bytewise = true →
      s.runTransfer (b :: rest) tr = { s with link := { s.link with activity := .transfer { tr with todo := b :: rest } } }) ∧
    (b.boardBound = false → tr.bytewise = false →
      s.runTransfer (b :: rest) tr =
        written.runTransfer rest { tr with made := if b.write.isSome then tr.made else tr.made ++ [read], count := tr.count + 1 })) ∧
  (∀ (cut : TransferByte → Bool) (tr : Transfer) (b : TransferByte) (rest : List TransferByte) (s : State), tr.todo = b :: rest →
    ((∀ tr2, s.link.activity ≠ .transfer tr2) → s.cutTransfer cut = s) ∧
    (s.link.activity = .transfer tr →
      (s.bus.owner = .bench → s.cutTransfer cut = s.occupy (.transfer { tr with todo := b :: rest.takeWhile (fun x => !cut x) })) ∧
      (s.bus.owner ≠ .bench → cut b = false → s.cutTransfer cut = s.occupy (.transfer { tr with todo := b :: rest.takeWhile (fun x => !cut x) })) ∧
      (s.bus.owner ≠ .bench → cut b = true → tr.form = .peek →
        s.cutTransfer cut = ({ s with bus := { s.bus with bench := none } } : State).respond .ok 0x50 (.peeked tr.made tr.count)) ∧
      (s.bus.owner ≠ .bench → cut b = true → tr.form = .poke →
        s.cutTransfer cut = ({ s with bus := { s.bus with bench := none } } : State).respond .ok 0x51 (.poked tr.count))))

/-- The line survey: SURVEY LINES and its refusals in order (R147), READ LINE MAP and CLEAR LINE MAP (R151), and its end, when each line is judged from its readings,
first stuck low, then stuck high, then bridged with the lowest line it followed, else good (R149, R150). The readings come with the row (log 35). With no line survey
owning the bus, or with PRST asserted, LINE_SURVEY_END changes nothing (log 5). -/
def Obligations.LineSurveyAndMap : Prop :=
  (∀ s t : State, s.takes .surveyLines t →
    let admitted := t.run.hold = .resetHeld ∨ (t.run.rehearsal = true ∧ (t.run.hold = .running ∨ t.run.hold = .holdArmed))
    (t.bus.survey = true ∨ ¬admitted → exec .surveyLines s = .next (t.respond .wrongState 0x52 .empty)) ∧
    (t.bus.survey = false → admitted → t.activeJob.isSome = true → exec .surveyLines s = .next (t.respond .engineActive 0x52 .empty)) ∧
    (t.bus.survey = false → admitted → t.activeJob = none →
      exec .surveyLines s =
        .next ((State.settle { t with bus := { t.bus with survey := true, engine := some { aging := 0, work := .lineSurvey } } }).respond .ok 0x52 .empty))) ∧
  (∀ s t : State, s.takes .readLineMap t → exec .readLineMap s = .next (t.respond .ok 0x53 (.lineMap t.bus.lineMap.toList t.bus.survey))) ∧
  (∀ s t : State, s.takes .clearLineMap t →
    (t.bus.survey = true → exec .clearLineMap s = .next (t.respond .wrongState 0x54 .empty)) ∧
    (t.bus.survey = false →
      exec .clearLineMap s = .next (({ t with bus := { t.bus with lineMap := Vector.replicate 28 .untested } } : State).respond .ok 0x54 .empty))) ∧
  (∀ (high low : List (BitVec 28)) (s : State),
    let highRead : Fin 28 → Fin 28 → Bool := fun m l => (high.getD m.val 0).getLsbD l.val
    let lowRead : Fin 28 → Fin 28 → Bool := fun m l => (low.getD m.val 0).getLsbD l.val
    (s.bus.owner = .engine .lineSurvey → s.port.prst = false →
      ∃ map : Vector LineEntry 28,
        exec (.lineSurveyEnd high low) s =
          .next ((({ s with bus := { s.bus with owner := .free, lineMap := map, survey := false } } : State).latch .surveyDone).settle) ∧
        ∀ l : Fin 28,
          (highRead l l = false → map[l] = .stuckLow) ∧
          (highRead l l = true → lowRead l l = true → map[l] = .stuckHigh) ∧
          (∀ m, highRead l l = true → lowRead l l = false → m ≠ l → highRead m l = true → lowRead m l = false →
            (∀ k, k < m → k ≠ l → ¬(highRead k l = true ∧ lowRead k l = false)) → map[l] = .bridged m) ∧
          (highRead l l = true → lowRead l l = false → (∀ m, m ≠ l → ¬(highRead m l = true ∧ lowRead m l = false)) → map[l] = .good)) ∧
    (s.bus.owner ≠ .engine .lineSurvey ∨ s.port.prst = true → exec (.lineSurveyEnd high low) s = .next s))

/-! ### Staging slots, lane profiles, the engine -/

/-- LOAD SLOT, SEAL SLOT, FREE SLOT and SLOT STATUS: their refusals in order, what they write, what they answer (R153 to R156); the CRC-32 of "123456789" is
0xCBF43926 (R154). -/
def Obligations.SlotCommands : Prop :=
  (∀ (slot : Nat) (data : List Byte) (s t : State), s.takes (.loadSlot slot data) t →
    (3 < slot → exec (.loadSlot slot data) s = .next (t.respond .badValue 0x60 .empty)) ∧
    (∀ inRange : slot < 4,
      let old := t.slots[slot]
      (data.length = 0 ∨ 1024 < data.length → exec (.loadSlot slot data) s = .next (t.respond .badLength 0x60 .empty)) ∧
      (1 ≤ data.length → data.length ≤ 1024 → old.state.isSealed = true → exec (.loadSlot slot data) s = .next (t.respond .wrongState 0x60 .empty)) ∧
      (1 ≤ data.length → data.length ≤ 1024 → old.state = .empty ∨ old.state = .filling →
        (4096 < old.contents.length + data.length → exec (.loadSlot slot data) s = .next (t.respond .badLength 0x60 .empty)) ∧
        (old.contents.length + data.length ≤ 4096 →
          exec (.loadSlot slot data) s =
            .next (({ t with slots := t.slots.set slot { old with state := .filling, contents := old.contents ++ data } inRange } : State).respond .ok 0x60
              (.fillLength (old.contents.length + data.length))))))) ∧
  (∀ (slot : Nat) (s t : State), s.takes (.sealSlot slot) t →
    (3 < slot → exec (.sealSlot slot) s = .next (t.respond .badValue 0x61 .empty)) ∧
    (∀ inRange : slot < 4,
      let old := t.slots[slot]
      (old.state ≠ .filling → exec (.sealSlot slot) s = .next (t.respond .wrongState 0x61 .empty)) ∧
      (old.state = .filling →
        exec (.sealSlot slot) s =
          .next (({ t with slots := t.slots.set slot { old with state := .sealed (crc32 old.contents) } inRange } : State).respond .ok 0x61
            (.sealed (crc32 old.contents) old.contents.length))))) ∧
  (∀ (slot : Nat) (s t : State), s.takes (.freeSlot slot) t →
    (3 < slot → exec (.freeSlot slot) s = .next (t.respond .badValue 0x62 .empty)) ∧
    (∀ inRange : slot < 4,
      (0 < t.slots[slot].binds → exec (.freeSlot slot) s = .next (t.respond .slotBound 0x62 .empty)) ∧
      (t.slots[slot].binds = 0 →
        exec (.freeSlot slot) s =
          .next (({ t with slots := t.slots.set slot { state := .empty, contents := [], binds := 0 } inRange } : State).respond .ok 0x62 .empty)))) ∧
  (∀ (slot : Nat) (s t : State), s.takes (.slotStatus slot) t →
    (3 < slot → exec (.slotStatus slot) s = .next (t.respond .badValue 0x63 .empty)) ∧
    (∀ inRange : slot < 4, exec (.slotStatus slot) s = .next (t.respond .ok 0x63 (.slot t.slots[slot])))) ∧
  crc32 [0x31, 0x32, 0x33, 0x34, 0x35, 0x36, 0x37, 0x38, 0x39] = 0xCBF43926#32

/-- SET PROFILE, READ PROFILE and CLEAR PROFILE: the checks of R160 and R161, ENGINE_ACTIVE while an unfinished job names the lane, the profile stored with the
FLASH fields for class FLASH alone, and the reset-owed flag (R162 to R164). The sector runs lay the sectors end to end from the base upward; a lane that is not
FLASH has none (R159). -/
def Obligations.ProfileCommands : Prop :=
  (∀ p : Profile,
    (p.flash = none → p.sectors = []) ∧
    (∀ f, p.flash = some f →
      p.sectors.map Prod.snd = f.sectors.flatMap (fun r => List.replicate r.count r.size) ∧
      ∀ k q, p.sectors[k]? = some q → q.1 = p.base + ((p.sectors.take k).map Prod.snd).sum)) ∧
  (∀ n : Nat, LaneClass.ofCode n = match n with | 0 => some .romOnly | 1 => some .flash | 2 => some .ram | _ => none) ∧
  (∀ n : Nat, PollMethod.ofCode n = match n with | 0 => some .toggle | 1 => some .data | 2 => some .readyLine | _ => none) ∧
  (∀ (lane : Nat) (f : ProfileFields) (s t : State), s.takes (.setProfile lane f) t →
    let badFlash := f.cls = 1 ∧
      (4 < f.unlock.length ∨ 6 < f.sectorErase.length ∨ 6 < f.laneErase.length ∨
       (∃ q ∈ f.program :: f.resetPair :: (f.unlock ++ f.sectorErase ++ f.laneErase), f.size ≤ q.offset) ∨ 2 < f.pollMethod ∨ 7 < f.pollBit ∨
       f.programTimeout = 0 ∨ 65535 < f.programTimeout ∨ f.sectorTimeout = 0 ∨ 65535 < f.sectorTimeout ∨ f.laneTimeout = 0 ∨ 65535 < f.laneTimeout ∨
       f.sectors.length = 0 ∨ 8 < f.sectors.length ∨ (∃ r ∈ f.sectors, (¬∃ k, r.size = 256 * 2 ^ k) ∨ r.count = 0) ∨
       (f.sectors.map (fun r => r.size * r.count)).sum ≠ f.size)
    let bad := 3 < lane ∨ 2 < f.cls ∨ f.base % 256 ≠ 0 ∨ 0xFFF00 < f.base ∨ (¬∃ k, k ≤ 10 ∧ f.size = 1024 * 2 ^ k) ∨ 0x100000 < f.base + f.size ∨ badFlash
    let named := ∃ j ∈ t.engine.jobs, j.unfinished = true ∧ j.lane.val = lane
    (bad → exec (.setProfile lane f) s = .next (t.respond .badValue 0x68 .empty)) ∧
    (¬bad → named → exec (.setProfile lane f) s = .next (t.respond .engineActive 0x68 .empty)) ∧
    (∀ (inRange : lane < 4) (cls : LaneClass) (method : PollMethod), ¬bad → ¬named → LaneClass.ofCode f.cls = some cls →
      (cls = .flash → PollMethod.ofCode f.pollMethod = some method) →
      exec (.setProfile lane f) s =
        .next (({ t with lanes := (t.lanes.set lane
          { profile := some
              { cls := cls, base := f.base, size := f.size, erased := f.erased,
                flash := if cls = .flash then some
                    { unlock := f.unlock, program := f.program, sectorErase := f.sectorErase, sectorCommand := f.sectorCommand, laneErase := f.laneErase,
                      resetPair := f.resetPair, pollMethod := method, pollBit := f.pollBit, programTimeout := f.programTimeout,
                      sectorTimeout := f.sectorTimeout, laneTimeout := f.laneTimeout, sectors := f.sectors }
                  else none },
            owed := decide (cls = .flash) } inRange) } : State).respond .ok 0x68 .empty))) ∧
  (∀ (lane : Nat) (s t : State), s.takes (.readProfile lane) t →
    (3 < lane → exec (.readProfile lane) s = .next (t.respond .badValue 0x69 .empty)) ∧
    (∀ inRange : lane < 4, exec (.readProfile lane) s = .next (t.respond .ok 0x69 (.profile t.lanes[lane].profile t.lanes[lane].owed)))) ∧
  (∀ (lane : Nat) (s t : State), s.takes (.clearProfile lane) t →
    let named := ∃ j ∈ t.engine.jobs, j.unfinished = true ∧ j.lane.val = lane
    (3 < lane → exec (.clearProfile lane) s = .next (t.respond .badValue 0x6A .empty)) ∧
    (∀ inRange : lane < 4,
      (named → exec (.clearProfile lane) s = .next (t.respond .engineActive 0x6A .empty)) ∧
      (¬named → exec (.clearProfile lane) s =
        .next (({ t with lanes := t.lanes.set lane { profile := none, owed := false } inRange } : State).respond .ok 0x6A .empty))))

/-- SUBMIT: the refusals in the order of R166; else a QUEUED entry with the next free job number joins the table at its newest end, its slot is bound (R157, R165,
R167), the start rule is judged (R168), and the answer carries the number and the state that stands then. -/
def Obligations.SubmitEntersJob : Prop :=
  (∀ f : SubmitFields, submitOperation f =
    match f.operation with
    | 0 => some .eraseSector
    | 1 => some .eraseLane
    | 2 => if h : f.slot < 4 then (if f.slotOffset ≤ 4095 then some (.program ⟨f.slot, h⟩ f.slotOffset f.precheck f.verifyAfter) else none) else none
    | 3 => if h : f.slot < 4 then
        (match f.policy with
         | 0 => if f.slotOffset ≤ 4095 then some (.verify ⟨f.slot, h⟩ f.slotOffset .first) else none
         | 1 => if f.slotOffset ≤ 4095 then some (.verify ⟨f.slot, h⟩ f.slotOffset .count) else none
         | 2 => if f.slotOffset ≤ 4095 then some (.verify ⟨f.slot, h⟩ f.slotOffset .retry) else none
         | _ => none)
      else none
    | 4 => some .blankCheck
    | 5 => some .sum
    | _ => none) ∧
  (∀ op : Operation, op.slot = match op with
    | .program slot offset _ _ => some (slot, offset)
    | .verify slot offset _ => some (slot, offset)
    | _ => none) ∧
  ∀ (f : SubmitFields) (s t : State), s.takes (.submit f) t →
    let refused : Status → Prop := fun status => exec (.submit f) s = .next (t.respond status 0x70 .empty)
    (5 < f.operation ∨ 3 < f.lane ∨ ((f.operation = 2 ∨ f.operation = 3) ∧ (3 < f.slot ∨ 4095 < f.slotOffset)) ∨ (f.operation = 3 ∧ 2 < f.policy) → refused .badValue) ∧
    (∀ (op : Operation) (lane : Fin 4), submitOperation f = some op → f.lane = lane.val →
      (8 ≤ t.engine.jobs.length → refused .queueFull) ∧
      (t.engine.jobs.length < 8 → t.lanes[lane].profile = none → refused .noProfile) ∧
      (∀ p, t.engine.jobs.length < 8 → t.lanes[lane].profile = some p →
        let admitted := p.cls = .flash ∨ f.operation = 3 ∨ f.operation = 4 ∨ f.operation = 5 ∨ (p.cls = .ram ∧ f.operation = 2)
        let outside := if f.operation = 0 then f.address < p.base ∨ p.base + p.size ≤ f.address
          else if f.operation = 1 then False
          else f.length = 0 ∨ f.address < p.base ∨ p.base + p.size < f.address + f.length
        (¬admitted → refused .badValue) ∧
        (admitted → outside → refused .badValue) ∧
        (admitted → ¬outside → f.operation = 0 → (∀ q ∈ p.sectors, q.1 ≠ f.address) → refused .badAlign) ∧
        (∀ slot offset, admitted → ¬outside → op.slot = some (slot, offset) →
          t.slots[slot].state.isSealed = false ∨ t.slots[slot].contents.length < offset + f.length → refused .slotNotReady) ∧
        (∀ address length, admitted → ¬outside →
          (f.operation = 0 → address = f.address ∧ p.sectors.find? (fun q => decide (q.1 = f.address)) = some (f.address, length)) →
          (f.operation = 1 → address = p.base ∧ length = p.size) →
          (2 ≤ f.operation → address = f.address ∧ length = f.length) →
          (∀ slot offset, op.slot = some (slot, offset) → t.slots[slot].state.isSealed = true ∧ offset + f.length ≤ t.slots[slot].contents.length) →
          ∃ (number : Nat) (k : Nat), number = (t.engine.nextNumber + k) % 256 ∧ (∀ j ∈ t.engine.jobs, j.number ≠ number) ∧
            (∀ i, i < k → ∃ j ∈ t.engine.jobs, j.number = (t.engine.nextNumber + i) % 256) ∧
            let u : State := { t with
              engine := { jobs := t.engine.jobs ++ [{ number := number, op := op, lane := lane, address := address, length := length, state := .queued }],
                          endOrder := t.engine.endOrder, nextNumber := (number + 1) % 256 }
              slots := match op.slot with
                | some (slot, _) => t.slots.set slot { t.slots[slot] with binds := t.slots[slot].binds + 1 }
                | none => t.slots }
            exec (.submit f) s = .next (u.settle.respond .ok 0x70 (.submitted number (u.settle.engine.stateOf number))))))

/-- COLLECT, JOB STATUS, CANCEL JOB and ABORT ENGINE, and what ending a job does (R178 to R181): its completion written, its slot unbound, JOB_ENDED latched. The
cancellations of one ABORT ENGINE end every QUEUED and WAITING entry CANCELLED, in submission order, after the ABORTED end (R181). An aborted FLASH lane gets its
reset pair, or owes it where the bus is kept for the target or comes to be kept while the pair waits (R164, R181); what ends of the job's own work meanwhile is not
judged (deduced, log 19), but a byte it has read counts toward the CRC of a SUM, which every completion of a SUM has: that of the bytes read, of none where it is
CANCELLED (R178; the value is deduced, log 46). The 28 bytes of a completion record (11.6). -/
def Obligations.JobTableCommands : Prop :=
  (∀ (j : Job) (c : Completion), (Completion.bytes j c).length = 28 ∧ (Answer.completion j c).payload = Completion.bytes j c ∧
    Completion.bytes j c =
      [BitVec.ofNat 8 j.number,
       match j.op with | .eraseSector => 0 | .eraseLane => 1 | .program _ _ _ _ => 2 | .verify _ _ _ => 3 | .blankCheck => 4 | .sum => 5,
       BitVec.ofNat 8 j.lane.val,
       match c.outcome with
       | .done => 0 | .mismatch => 1 | .unsteady => 2 | .notBlank => 3 | .notErased => 4 | .programFault => 5 | .timeout => 6 | .lineFault => 7 | .powerLost => 8
       | .aborted => 9 | .cancelled => 10] ++
      leBytes 4 (c.reached.getD 0xFFFFFFFF) ++
      [c.expected.getD 0, c.read.getD 0,
       BitVec.ofNat 8 ((if c.expected.isSome then 1 else 0) + (if c.read.isSome then 2 else 0) + (if c.crc.isSome then 4 else 0)), 0] ++
      leBytes 4 (c.counts.getD (0, 0)).1 ++ leBytes 4 (c.counts.getD (0, 0)).2 ++ leBytes 4 (c.crc.getD 0).toNat ++ leBytes 4 c.elapsed.toNat) ∧
  (∀ (j : Job) (c : Completion) (s : State),
    s.endJob j c = ({ s with
      engine := { s.engine with jobs := s.engine.jobs.map (fun k => if k.number = j.number then { k with state := .ended c } else k),
                                endOrder := s.engine.endOrder ++ [j.number] }
      slots := match j.op.slot with
        | some (slot, _) => s.slots.set slot { s.slots[slot] with binds := s.slots[slot].binds - 1 }
        | none => s.slots } : State).latch .jobEnded) ∧
  (∀ s : State, s.jobTable →
    let waiting : Job → Bool := fun k => decide (k.state = .queued ∨ k.state = .waiting)
    let cancelled : Job → Completion := fun k =>
      { outcome := .cancelled, reached := none, expected := none, read := none, counts := if k.op.policy.isSome then some (0, 0) else none,
        crc := if k.op = .sum then some 0 else none, elapsed := 0 }
    let u := s.cancelAll
    u = { s with engine := u.engine, slots := u.slots, link := { s.link with pending := u.link.pending } } ∧
    u.engine = { jobs := s.engine.jobs.map (fun k => if waiting k then { k with state := .ended (cancelled k) } else k),
                 endOrder := s.engine.endOrder ++ (s.engine.jobs.filter waiting).map Job.number, nextNumber := s.engine.nextNumber } ∧
    (∀ i : Fin 4, u.slots[i] = { s.slots[i] with
      binds := s.slots[i].binds - (s.engine.jobs.filter (fun k => waiting k && k.op.slot.any (fun q => decide (q.1 = i)))).length }) ∧
    ((∃ k ∈ s.engine.jobs, waiting k = true) → u = ({ u with link := s.link } : State).latch .jobEnded) ∧
    ((∀ k ∈ s.engine.jobs, waiting k = false) → u = s)) ∧
  (∀ (j : Job) (a : Active) (s : State),
    s.finishAbort j a =
      ((s.endJob j { outcome := .aborted, reached := some a.current, expected := none, read := none,
                     counts := if j.op.policy.isSome then some (a.mismatches, a.unsteady) else none,
                     crc := if j.op = .sum then some (~~~a.crc) else none, elapsed := s.timeBase - a.start }).cancelAll).respond .ok 0x74
        (.ended ((s.engine.jobs.filter (fun k => decide (k.state = .queued ∨ k.state = .waiting))).length + 1))) ∧
  (∀ (j : Job) (a : Active) (p : Profile) (data : Byte) (s : State), s.activeJob = some j → j.state = .active a → s.lanes[j.lane].profile = some p →
    let owes : Bool → State := fun b => { s with lanes := s.lanes.set j.lane { s.lanes[j.lane] with owed := b } }
    let written := if a.phase = .owedReset ∨ a.phase = .timeoutReset then owes false else s
    let b : Active := if a.phase = .reading then { a with crc := crcByte a.crc data } else a
    (a.aborting = true → a.phase ≠ .abortReset →
      (∀ f, p.flash = some f → s.busKept = false → s.engineAccessEnd data =
        written.askBoard j { b with phase := .abortReset, aborting := true } [{ address := p.base + f.resetPair.offset, write := some f.resetPair.byte }]) ∧
      (p.flash.isSome = true → s.busKept = true → s.engineAccessEnd data = (owes true).finishAbort j b) ∧
      (p.flash = none → s.engineAccessEnd data = written.finishAbort j b)) ∧
    (a.phase = .abortReset → p.flash.isSome = true → s.engineAccessEnd data = (owes false).finishAbort j a) ∧
    (a.phase = .abortReset → s.bus.engine.isSome = true → s.busKept = true →
      s.settleAbort = ({ owes true with bus := { s.bus with engine := none } } : State).finishAbort j a) ∧
    (a.phase ≠ .abortReset ∨ s.bus.engine = none ∨ s.busKept = false → s.settleAbort = s)) ∧
  (∀ s t : State, s.takes .collect t → t.jobTable → t.endsListed →
    (t.engine.endOrder = [] → exec .collect s = .next (t.respond .notFound 0x71 .empty)) ∧
    (∀ n rest, t.engine.endOrder = n :: rest →
      ∃ j c, j ∈ t.engine.jobs ∧ j.number = n ∧ j.state = .ended c ∧
        exec .collect s =
          .next (({ t with engine := { t.engine with jobs := t.engine.jobs.filter (fun k => decide (k.number ≠ n)), endOrder := rest } } : State).respond .ok 0x71
            (.completion j c)))) ∧
  (∀ s t : State, s.takes .jobStatus t → exec .jobStatus s = .next (t.respond .ok 0x72 (.jobs t.engine.jobs t.timeBase))) ∧
  (∀ (number : Nat) (s t : State), s.takes (.cancelJob number) t → t.jobTable →
    ((∀ j ∈ t.engine.jobs, j.number ≠ number) → exec (.cancelJob number) s = .next (t.respond .notFound 0x73 .empty)) ∧
    (∀ j ∈ t.engine.jobs, j.number = number →
      ((∃ c, j.state = .ended c) → exec (.cancelJob number) s = .next (t.respond .notFound 0x73 .empty)) ∧
      ((∃ a, j.state = .active a) → exec (.cancelJob number) s = .next (t.respond .engineActive 0x73 .empty)) ∧
      (j.state = .queued ∨ j.state = .waiting →
        ∃ counts, exec (.cancelJob number) s =
          .next ((t.endJob j { outcome := .cancelled, reached := none, expected := none, read := none, counts := counts,
                               crc := if j.op = .sum then some 0 else none, elapsed := 0 }).settle.respond .ok 0x73 .empty) ∧ (j.op.policy = none → counts = none) ∧ (j.op.policy.isSome = true → counts = some (0, 0))))) ∧
  (∀ s t : State, s.takes .abortEngine t →
    let waiting := (t.engine.jobs.filter (fun j => decide (j.state = .queued ∨ j.state = .waiting))).length
    (t.activeJob = none →
      exec .abortEngine s = .next (t.cancelAll.settle.respond .ok 0x74 (.ended waiting)) ∧
      (∀ j ∈ t.cancelAll.engine.jobs, j.state ≠ .queued ∧ j.state ≠ .waiting)) ∧
    (∀ j a, t.activeJob = some j → j.state = .active a →
      ((∃ w, t.bus.owner = .engine w) →
        exec .abortEngine s = .next ((t.occupy .abort).setJob j.number (.active { a with aborting := true }))) ∧
      (∀ p f, (∀ w, t.bus.owner ≠ .engine w) → t.lanes[j.lane].profile = some p → p.flash = some f → t.busKept = false →
        exec .abortEngine s =
          .next (State.askBoard j { a with phase := .abortReset, aborting := true } [{ address := p.base + f.resetPair.offset, write := some f.resetPair.byte }]
            ({ t with bus := { t.bus with engine := none }, link := { t.link with activity := .abort } } : State)).settle) ∧
      (t.jobTable → (∀ w, t.bus.owner ≠ .engine w) → (∀ p, t.lanes[j.lane].profile = some p → p.flash = none ∨ t.busKept = true) →
        ∃ u counts, exec .abortEngine s = .next u ∧
          u = (State.finishAbort j a { t with bus := { t.bus with engine := none }, link := { t.link with activity := .abort }, lanes := u.lanes }).settle ∧
          u.link.sent = some { status := .ok, code := 0x74, answer := .ended (waiting + 1) } ∧ u.link.activity = .sending ∧
          u.noticed .jobEnded = true ∧ u.bus.engine = none ∧
          u.lanes = (if t.lanes[j.lane].profile.any (fun p => p.flash.isSome) then t.lanes.set j.lane { t.lanes[j.lane] with owed := true } else t.lanes) ∧
          { j with state := .ended { outcome := .aborted, reached := some a.current, expected := none, read := none, counts := counts,
                                     crc := if j.op = .sum then some (~~~a.crc) else none, elapsed := t.timeBase - a.start } } ∈ u.engine.jobs ∧
          ∀ k ∈ u.engine.jobs, k.unfinished = false)))

/-- The start rule (R168), the start of a job (R169) and the course of its work (R170 to R177). JOB_START judges the rule, as every step does where a condition
changes (log 28); the oldest QUEUED or WAITING entry starts when its conditions hold, else it is WAITING. A job that starts cuts a PEEK or POKE in its lane short if
it is write-class (R145; log 31 for LINE_FAULT), ends LINE_FAULT on a faulty line, writes an owed reset pair, and begins its own work. As each access or run ends,
the job goes on to its next one or ends: the program step and its poll, the erase and its poll, the RAM step, the verify pass, and the reads of VERIFY, BLANK_CHECK
and SUM. READY_LINE_ASSERTED ends a READY_LINE poll done; POLL_TIMEOUT ends it with the reset pair as a run, and for TOGGLE and DATA only moves the Time Base to the
limit, the timeout being judged as the read in progress ends (log 4), and what other limits have been reached then is taken. A row for which no poll waits changes
nothing (log 5); the ready input is an event, so READY_LINE_ASSERTED in another kind of poll changes nothing (log 24). A PROGRAM whose bytes all equal the erased
byte makes no access and ends as it starts (log 42). What the judgements touch is the engine, the arbiter, the slots, the lanes and the link alone. `settle` judges
the start rule until nothing more starts (a job that ends as it starts lets the next one be judged), settles a waiting abort and lets the arbiter choose. `endJob`
and `settleAbort` are spelled in JobTableCommands, `cutTransfer` in PeekAndPoke, `arbitrate` in ArbiterGrantsByRule. -/
def Obligations.StartRuleAndPolls : Prop :=
  let ask : Job → Active → List Access → State → State := fun j b accesses u =>
    { u with engine := { u.engine with jobs := u.engine.jobs.map (fun k => if k.number = j.number then { k with state := .active b } else k) }
             bus := { u.bus with engine := some { aging := 0, work := .accesses j.lane accesses } } }
  let ends : Job → Active → JobOutcome → Option Nat → Option Byte → Option Byte → Option Crc → State → State := fun j b outcome reached expected read crc u =>
    u.endJob j { outcome := outcome, reached := reached, expected := expected, read := read,
                 counts := if j.op.policy.isSome then some (b.mismatches, b.unsteady) else none, crc := crc, elapsed := u.timeBase - b.start }
  let written : Profile → List Pair → List Access := fun p l => l.map (fun q => { address := p.base + q.offset, write := some q.byte })
  let reads : Nat → List Access := fun n => [{ address := n, write := none }]
  let stepRun : Profile → FlashPart → Nat → Byte → List Access := fun p f n d => written p f.unlock ++ written p [f.program] ++ [{ address := n, write := some d }]
  let eraseRun : Profile → FlashPart → Nat → List Access := fun p f n => written p f.sectorErase ++ [{ address := n, write := some f.sectorCommand }]
  let limitOf : Operation → FlashPart → Nat := fun op f => match op with
    | .eraseSector => f.sectorTimeout * 1000
    | .eraseLane => if f.laneErase = [] then f.sectorTimeout * 1000 else f.laneTimeout * 1000
    | _ => f.programTimeout
  let slotByte : Job → Nat → State → Byte := fun j n u => match j.op.slot with
    | some (slot, offset) => u.slots[slot].contents.getD (offset + (n - j.address)) 0
    | none => 0
  (∀ s : State, (s.port.prst = false → exec .jobStart s = .next s.settle) ∧ (s.port.prst = true → exec .jobStart s = .next s) ∧ s.engineOnly s.settle ∧
    s.settle = (s.judgeTimes 9).settleAbort.arbitrate ∧ s.judgeTimes 0 = s ∧ (∀ n, s.judgeTimes (n + 1) = s.judgeOnce.judgeTimes n) ∧
    (s.jobTable → (s.judgeTimes 9).judgeOnce = s.judgeTimes 9) ∧
    (∀ n state, s.setJob n state = { s with engine := { s.engine with jobs := s.engine.jobs.map (fun k => if k.number = n then { k with state := state } else k) } })) ∧
  (∀ (j : Job) (s : State), s.activeJob = none → s.engine.jobs.find? (fun k => decide (k.state = .queued ∨ k.state = .waiting)) = some j →
    (s.mayStart j = true ↔ s.port.powered = true ∧ s.bus.survey = false ∧
      (j.op.writeClass = true → (s.run.hold = .holding ∨ s.run.hold = .resetHeld) ∧ s.run.rehearsal = false) ∧
      (j.op.writeClass = false → s.run.hold ≠ .unpowered ∧ s.busKept = false)) ∧
    (s.mayStart j = true → s.judgeOnce = s.startJob j) ∧ (s.mayStart j = false → s.judgeOnce = s.setJob j.number .waiting)) ∧
  (∀ (j : Job) (s : State), s.activeJob = some j → s.judgeOnce = s) ∧
  (∀ s : State, s.activeJob = none → (∀ k ∈ s.engine.jobs, k.state ≠ .queued ∧ k.state ≠ .waiting) → s.judgeOnce = s) ∧
  -- the start of a job
  (∀ (j : Job) (p : Profile) (s : State), s.lanes[j.lane].profile = some p →
    let a : Active :=
      { start := s.timeBase, current := j.address, phase := .reading, crc := 0xFFFFFFFF#32, mismatches := 0, unsteady := 0, firstBad := none,
        firstUnsteady := none, aborting := false }
    let entered := s.setJob j.number (.active a)
    let cut := if j.op.writeClass then entered.cutTransfer (fun b => b.boardBound && decide (p.base ≤ b.address) && decide (b.address < p.base + p.size))
      else entered
    let fault := j.op.writeClass = true ∧ ∃ i : Fin 28, (20 ≤ i.val ∨ 2 ^ i.val < p.size ∨ p.base.testBit i.val = true) ∧
      s.bus.lineMap[i] ≠ .untested ∧ s.bus.lineMap[i] ≠ .good
    (fault → s.startJob j = ends j a .lineFault (some j.address) none none none cut) ∧
    (∀ f, ¬fault → p.flash = some f → s.lanes[j.lane].owed = true →
      s.startJob j = ask j { a with phase := .owedReset } (written p [f.resetPair]) cut) ∧
    (¬fault → p.flash = none ∨ s.lanes[j.lane].owed = false → s.startJob j = cut.beginWork j a p)) ∧
  (∀ (j : Job) (a : Active) (p : Profile) (s : State),
    (∀ f, j.op = .eraseSector → p.flash = some f → s.beginWork j a p = ask j { a with phase := .eraseRun } (eraseRun p f a.current) s) ∧
    (∀ f, j.op = .eraseLane → p.flash = some f →
      s.beginWork j a p = ask j { a with phase := .eraseRun } (if f.laneErase = [] then eraseRun p f a.current else written p f.laneErase) s) ∧
    (∀ f, j.op.options.isSome = true → p.flash = some f → s.beginWork j a p = s.programStep j a p f) ∧
    (j.op.options.isSome = true → p.flash = none → s.beginWork j a p = s.ramStep j a) ∧
    (j.op.writeClass = false → s.beginWork j a p = ask j { a with phase := .reading } (reads a.current) s)) ∧
  -- the next byte of a program pass, and its end
  (∀ (j : Job) (a : Active) (p : Profile) (f : FlashPart) (s : State) (slot : Fin 4) (offset : Nat) (precheck verifyAfter : Bool),
    j.op = .program slot offset precheck verifyAfter → j.address ≤ a.current →
    let byteAt : Nat → Byte := fun i => s.slots[slot].contents.getD (offset + i) 0
    (∀ k, offset + j.length ≤ s.slots[slot].contents.length → k < j.length → a.current ≤ j.address + k → byteAt k ≠ p.erased →
      (∀ i, i < k → a.current ≤ j.address + i → byteAt i = p.erased) →
      s.programStep j a p f =
        if precheck then ask j { a with phase := .precheck, current := j.address + k } (reads (j.address + k)) s
        else ask j { a with phase := .stepRun, current := j.address + k } (stepRun p f (j.address + k) (byteAt k)) s) ∧
    (offset + j.length ≤ s.slots[slot].contents.length → (∀ i, i < j.length → a.current ≤ j.address + i → byteAt i = p.erased) →
      s.programStep j a p f = s.programDone j a) ∧
    (a.current < j.address + j.length → s.ramStep j a = ask j { a with phase := .ramWrite } [{ address := a.current, write := some (byteAt (a.current - j.address)) }] s) ∧
    (j.address + j.length ≤ a.current → s.ramStep j a = s.programDone j a) ∧
    s.programDone j a = if verifyAfter then ask j { a with phase := .verifyPass, current := j.address } (reads j.address) s
      else ends j a .done none none none none s) ∧
  -- the next sector of an erase, and its end
  (∀ (j : Job) (a : Active) (p : Profile) (f : FlashPart) (s : State),
    (j.op = .eraseSector ∨ (j.op = .eraseLane ∧ f.laneErase ≠ []) → s.eraseDone j a p f = ends j a .done none none none none s) ∧
    (j.op = .eraseLane → f.laneErase = [] →
      (∀ q, p.sectors.find? (fun x => decide (a.current < x.1)) = some q →
        s.eraseDone j a p f = ask j { a with phase := .eraseRun, current := q.1 } (eraseRun p f q.1) s) ∧
      ((∀ q ∈ p.sectors, q.1 ≤ a.current) → s.eraseDone j a p f = ends j a .done none none none none s))) ∧
  -- an access or run of a FLASH lane has ended
  (∀ (j : Job) (a : Active) (p : Profile) (f : FlashPart) (data : Byte) (s : State), s.activeJob = some j → j.state = .active a →
    s.lanes[j.lane].profile = some p → p.flash = some f → a.aborting = false →
    let after := s.engineAccessEnd data
    let cleared : State := { s with lanes := s.lanes.set j.lane { s.lanes[j.lane] with owed := false } }
    let want := slotByte j a.current s
    let inside := j.address ≤ a.current ∧ a.current < j.address + j.length
    let limit := limitOf j.op f
    let done := if j.op.slot.isSome then ask j { a with phase := .compare } (reads a.current) s else s.eraseDone j a p f
    (a.phase = .owedReset → after = cleared.beginWork j a p) ∧
    (a.phase = .precheck → inside →
      (data &&& want ≠ want → after = ends j a .notErased (some a.current) (some want) (some data) none s) ∧
      (data &&& want = want → after = ask j { a with phase := .stepRun } (stepRun p f a.current want) s)) ∧
    (a.phase = .stepRun ∨ a.phase = .eraseRun →
      (f.pollMethod = .toggle → after = ask j { a with phase := .poll s.timeBase .toggleFirst } (reads a.current) s) ∧
      (f.pollMethod = .data → after = ask j { a with phase := .poll s.timeBase .data } (reads a.current) s) ∧
      (f.pollMethod = .readyLine → after = s.setJob j.number (.active { a with phase := .poll s.timeBase .readyLine }))) ∧
    (∀ start, a.phase = .poll start .toggleFirst → after = ask j { a with phase := .poll start (.toggleSecond data) } (reads a.current) s) ∧
    (∀ start first, a.phase = .poll start (.toggleSecond first) → f.pollMethod = .toggle →
      (first.getLsbD f.pollBit = data.getLsbD f.pollBit → after = done) ∧
      (first.getLsbD f.pollBit ≠ data.getLsbD f.pollBit → limit ≤ s.elapsed start →
        after = ask j { a with phase := .timeoutReset } (written p [f.resetPair]) s) ∧
      (first.getLsbD f.pollBit ≠ data.getLsbD f.pollBit → s.elapsed start < limit →
        after = ask j { a with phase := .poll start .toggleFirst } (reads a.current) s)) ∧
    (∀ start, a.phase = .poll start .data → f.pollMethod = .data → inside →
      let target := if j.op.slot.isSome then want else p.erased
      (data.getLsbD f.pollBit = target.getLsbD f.pollBit → after = done) ∧
      (data.getLsbD f.pollBit ≠ target.getLsbD f.pollBit → limit ≤ s.elapsed start →
        after = ask j { a with phase := .timeoutReset } (written p [f.resetPair]) s) ∧
      (data.getLsbD f.pollBit ≠ target.getLsbD f.pollBit → s.elapsed start < limit →
        after = ask j { a with phase := .poll start .data } (reads a.current) s)) ∧
    (a.phase = .compare → inside →
      (data = want → after = s.programStep j { a with current := a.current + 1 } p f) ∧
      (data ≠ want → after = ends j a .programFault (some a.current) (some want) (some data) none s)) ∧
    (a.phase = .timeoutReset → after = ends j a .timeout (some a.current) none none none cleared)) ∧
  -- an access of a RAM step, of a verify pass, or of a reading operation has ended
  (∀ (j : Job) (a : Active) (p : Profile) (data : Byte) (s : State), s.activeJob = some j → j.state = .active a →
    s.lanes[j.lane].profile = some p → a.aborting = false → j.address ≤ a.current → a.current < j.address + j.length →
    let after := s.engineAccessEnd data
    let want := slotByte j a.current s
    let last := j.address + j.length ≤ a.current + 1
    let b : Active := { a with crc := crcByte a.crc data }
    let next : Active → State := fun c => if last then s.readingDone j c else ask j { c with phase := .reading, current := a.current + 1 } (reads (a.current + 1)) s
    let missed : Active → Byte → Active := fun c d =>
      { c with mismatches := c.mismatches + 1, firstBad := c.firstBad.or (some (a.current, want, d)) }
    (a.phase = .ramWrite → after = ask j { a with phase := .ramRead } (reads a.current) s) ∧
    (a.phase = .ramRead → data = want → after = s.ramStep j { a with current := a.current + 1 }) ∧
    (a.phase = .ramRead → data ≠ want → after = ends j a .programFault (some a.current) (some want) (some data) none s) ∧
    (a.phase = .verifyPass → data ≠ want → after = ends j a .mismatch (some a.current) (some want) (some data) none s) ∧
    (a.phase = .verifyPass → data = want →
      after = if last then ends j a .done none none none none s else ask j { a with current := a.current + 1 } (reads (a.current + 1)) s) ∧
    (a.phase = .reading → j.op = .sum → after = next b) ∧
    (a.phase = .reading → j.op = .blankCheck →
      after = if data = p.erased then next b else ends j b .notBlank (some a.current) none (some data) none s) ∧
    (∀ policy, a.phase = .reading → j.op.policy = some policy →
      (data = want → after = next b) ∧
      (data ≠ want → policy = .first → after = s.readingDone j (missed b data)) ∧
      (data ≠ want → policy = .count → after = next (missed b data)) ∧
      (data ≠ want → policy = .retry → after = ask j { b with phase := .retry data 3 true } (reads a.current) s)) ∧
    (∀ first left same, a.phase = .retry first left same →
      (1 < left → after = ask j { a with phase := .retry first (left - 1) (same && decide (data = first)) } (reads a.current) s) ∧
      (left ≤ 1 → same = true → data = first → after = next (missed a first)) ∧
      (left ≤ 1 → same = false ∨ data ≠ first →
        after = next { a with unsteady := a.unsteady + 1, firstUnsteady := a.firstUnsteady.or (some a.current) }))) ∧
  (∀ (j : Job) (a : Active) (s : State),
    (∀ n e d, j.op.policy.isSome = true → a.firstBad = some (n, e, d) → s.readingDone j a = ends j a .mismatch (some n) (some e) (some d) (some (~~~a.crc)) s) ∧
    (j.op.policy.isSome = true → a.firstBad = none →
      s.readingDone j a = if 0 < a.unsteady then ends j a .unsteady a.firstUnsteady none none (some (~~~a.crc)) s
        else ends j a .done none none none (some (~~~a.crc)) s) ∧
    (j.op = .sum → s.readingDone j a = ends j a .done none none none (some (~~~a.crc)) s) ∧
    (j.op = .blankCheck → s.readingDone j a = ends j a .done none none none none s)) ∧
  -- the board ready input and the limit of a poll
  (∀ (j : Job) (a : Active) (p : Profile) (f : FlashPart) (start : Stamp) (s : State), s.polling = some (j, a, p, f, start, .readyLine) → s.port.prst = false →
    (j.op.slot.isSome = true → exec .readyLineAsserted s = .next (ask j { a with phase := .compare } (reads a.current) s).settle) ∧
    (j.op.slot = none → exec .readyLineAsserted s = .next (s.eraseDone j a p f).settle) ∧
    (∃ t, exec .readyLineAsserted s = .next t ∧ s.engineOnly t) ∧
    (∃ t : State, t = { s with timeBase := t.timeBase } ∧ limitOf j.op f % 4294967296 ≤ t.elapsed start ∧
      let u := (ask j { a with phase := .timeoutReset } (written p [f.resetPair]) t).settle
      exec .pollTimeout s = .next u.takeDue ∧ (u.holdDue = false → u.frameDue = false → exec .pollTimeout s = .next u))) ∧
  (∀ (j : Job) (a : Active) (p : Profile) (f : FlashPart) (start : Stamp) (stage : PollStage) (s : State),
    s.polling = some (j, a, p, f, start, stage) → s.port.prst = false → stage ≠ .readyLine →
      exec .readyLineAsserted s = .next s ∧
      ∃ t : State, t = { s with timeBase := t.timeBase } ∧ limitOf j.op f % 4294967296 ≤ t.elapsed start ∧
        exec .pollTimeout s = .next t.takeDue ∧ (t.holdDue = false → t.frameDue = false → exec .pollTimeout s = .next t)) ∧
  (∀ s : State, s.polling = none ∨ s.port.prst = true → exec .readyLineAsserted s = .next s ∧ exec .pollTimeout s = .next s)

end
end

