-- ==== Sys2Proof/Laws/State.lean ====
section
/-! SUPPORT. What each named update of the state leaves as it was, one lemma per field, and what it writes. -/

namespace Sys2Proof.Machine

/-! ### latch -/

@[simp] theorem State.latch_port (n : Notice) (s : State) : (s.latch n).port = s.port := rfl
@[simp] theorem State.latch_windows (n : Notice) (s : State) : (s.latch n).windows = s.windows := rfl
@[simp] theorem State.latch_floatByte (n : Notice) (s : State) : (s.latch n).floatByte = s.floatByte := rfl
@[simp] theorem State.latch_overlay (n : Notice) (s : State) : (s.latch n).overlay = s.overlay := rfl
@[simp] theorem State.latch_watch (n : Notice) (s : State) : (s.latch n).watch = s.watch := rfl
@[simp] theorem State.latch_probes (n : Notice) (s : State) : (s.latch n).probes = s.probes := rfl
@[simp] theorem State.latch_timeBase (n : Notice) (s : State) : (s.latch n).timeBase = s.timeBase := rfl
@[simp] theorem State.latch_run (n : Notice) (s : State) : (s.latch n).run = s.run := rfl
@[simp] theorem State.latch_trace (n : Notice) (s : State) : (s.latch n).trace = s.trace := rfl
@[simp] theorem State.latch_bus (n : Notice) (s : State) : (s.latch n).bus = s.bus := rfl
@[simp] theorem State.latch_slots (n : Notice) (s : State) : (s.latch n).slots = s.slots := rfl
@[simp] theorem State.latch_lanes (n : Notice) (s : State) : (s.latch n).lanes = s.lanes := rfl
@[simp] theorem State.latch_engine (n : Notice) (s : State) : (s.latch n).engine = s.engine := rfl
@[simp] theorem State.latch_pending (n : Notice) (s : State) : (s.latch n).pending = s.pending := rfl
@[simp] theorem State.latch_freeIndex (n : Notice) (s : State) : (s.latch n).freeIndex = s.freeIndex := rfl

/-! ### respond -/

@[simp] theorem State.respond_port (x : Status) (k : Byte) (a : Answer) (s : State) : (s.respond x k a).port = s.port := rfl
@[simp] theorem State.respond_windows (x : Status) (k : Byte) (a : Answer) (s : State) : (s.respond x k a).windows = s.windows := rfl
@[simp] theorem State.respond_floatByte (x : Status) (k : Byte) (a : Answer) (s : State) : (s.respond x k a).floatByte = s.floatByte := rfl
@[simp] theorem State.respond_overlay (x : Status) (k : Byte) (a : Answer) (s : State) : (s.respond x k a).overlay = s.overlay := rfl
@[simp] theorem State.respond_watch (x : Status) (k : Byte) (a : Answer) (s : State) : (s.respond x k a).watch = s.watch := rfl
@[simp] theorem State.respond_probes (x : Status) (k : Byte) (a : Answer) (s : State) : (s.respond x k a).probes = s.probes := rfl
@[simp] theorem State.respond_timeBase (x : Status) (k : Byte) (a : Answer) (s : State) : (s.respond x k a).timeBase = s.timeBase := rfl
@[simp] theorem State.respond_run (x : Status) (k : Byte) (a : Answer) (s : State) : (s.respond x k a).run = s.run := rfl
@[simp] theorem State.respond_trace (x : Status) (k : Byte) (a : Answer) (s : State) : (s.respond x k a).trace = s.trace := rfl
@[simp] theorem State.respond_bus (x : Status) (k : Byte) (a : Answer) (s : State) : (s.respond x k a).bus = s.bus := rfl
@[simp] theorem State.respond_slots (x : Status) (k : Byte) (a : Answer) (s : State) : (s.respond x k a).slots = s.slots := rfl
@[simp] theorem State.respond_lanes (x : Status) (k : Byte) (a : Answer) (s : State) : (s.respond x k a).lanes = s.lanes := rfl
@[simp] theorem State.respond_engine (x : Status) (k : Byte) (a : Answer) (s : State) : (s.respond x k a).engine = s.engine := rfl
@[simp] theorem State.respond_pending (x : Status) (k : Byte) (a : Answer) (s : State) : (s.respond x k a).pending = s.pending := rfl
@[simp] theorem State.respond_freeIndex (x : Status) (k : Byte) (a : Answer) (s : State) : (s.respond x k a).freeIndex = s.freeIndex := rfl

/-! ### occupy -/

@[simp] theorem State.occupy_port (a : Activity) (s : State) : (s.occupy a).port = s.port := rfl
@[simp] theorem State.occupy_windows (a : Activity) (s : State) : (s.occupy a).windows = s.windows := rfl
@[simp] theorem State.occupy_floatByte (a : Activity) (s : State) : (s.occupy a).floatByte = s.floatByte := rfl
@[simp] theorem State.occupy_overlay (a : Activity) (s : State) : (s.occupy a).overlay = s.overlay := rfl
@[simp] theorem State.occupy_watch (a : Activity) (s : State) : (s.occupy a).watch = s.watch := rfl
@[simp] theorem State.occupy_probes (a : Activity) (s : State) : (s.occupy a).probes = s.probes := rfl
@[simp] theorem State.occupy_timeBase (a : Activity) (s : State) : (s.occupy a).timeBase = s.timeBase := rfl
@[simp] theorem State.occupy_run (a : Activity) (s : State) : (s.occupy a).run = s.run := rfl
@[simp] theorem State.occupy_trace (a : Activity) (s : State) : (s.occupy a).trace = s.trace := rfl
@[simp] theorem State.occupy_bus (a : Activity) (s : State) : (s.occupy a).bus = s.bus := rfl
@[simp] theorem State.occupy_slots (a : Activity) (s : State) : (s.occupy a).slots = s.slots := rfl
@[simp] theorem State.occupy_lanes (a : Activity) (s : State) : (s.occupy a).lanes = s.lanes := rfl
@[simp] theorem State.occupy_engine (a : Activity) (s : State) : (s.occupy a).engine = s.engine := rfl
@[simp] theorem State.occupy_pending (a : Activity) (s : State) : (s.occupy a).pending = s.pending := rfl
@[simp] theorem State.occupy_freeIndex (a : Activity) (s : State) : (s.occupy a).freeIndex = s.freeIndex := rfl

/-! ### setHold -/

@[simp] theorem State.setHold_port (h : HoldState) (s : State) : (s.setHold h).port = s.port := rfl
@[simp] theorem State.setHold_windows (h : HoldState) (s : State) : (s.setHold h).windows = s.windows := rfl
@[simp] theorem State.setHold_floatByte (h : HoldState) (s : State) : (s.setHold h).floatByte = s.floatByte := rfl
@[simp] theorem State.setHold_overlay (h : HoldState) (s : State) : (s.setHold h).overlay = s.overlay := rfl
@[simp] theorem State.setHold_watch (h : HoldState) (s : State) : (s.setHold h).watch = s.watch := rfl
@[simp] theorem State.setHold_probes (h : HoldState) (s : State) : (s.setHold h).probes = s.probes := rfl
@[simp] theorem State.setHold_timeBase (h : HoldState) (s : State) : (s.setHold h).timeBase = s.timeBase := rfl
@[simp] theorem State.setHold_trace (h : HoldState) (s : State) : (s.setHold h).trace = s.trace := rfl
@[simp] theorem State.setHold_bus (h : HoldState) (s : State) : (s.setHold h).bus = s.bus := rfl
@[simp] theorem State.setHold_slots (h : HoldState) (s : State) : (s.setHold h).slots = s.slots := rfl
@[simp] theorem State.setHold_lanes (h : HoldState) (s : State) : (s.setHold h).lanes = s.lanes := rfl
@[simp] theorem State.setHold_engine (h : HoldState) (s : State) : (s.setHold h).engine = s.engine := rfl
@[simp] theorem State.setHold_link (h : HoldState) (s : State) : (s.setHold h).link = s.link := rfl
@[simp] theorem State.setHold_pending (h : HoldState) (s : State) : (s.setHold h).pending = s.pending := rfl
@[simp] theorem State.setHold_freeIndex (h : HoldState) (s : State) : (s.setHold h).freeIndex = s.freeIndex := rfl

/-! ### clearClaims -/

@[simp] theorem State.clearClaims_port (s : State) : (s.clearClaims).port = s.port := rfl
@[simp] theorem State.clearClaims_windows (s : State) : (s.clearClaims).windows = s.windows := rfl
@[simp] theorem State.clearClaims_floatByte (s : State) : (s.clearClaims).floatByte = s.floatByte := rfl
@[simp] theorem State.clearClaims_overlay (s : State) : (s.clearClaims).overlay = s.overlay := rfl
@[simp] theorem State.clearClaims_watch (s : State) : (s.clearClaims).watch = s.watch := rfl
@[simp] theorem State.clearClaims_probes (s : State) : (s.clearClaims).probes = s.probes := rfl
@[simp] theorem State.clearClaims_timeBase (s : State) : (s.clearClaims).timeBase = s.timeBase := rfl
@[simp] theorem State.clearClaims_trace (s : State) : (s.clearClaims).trace = s.trace := rfl
@[simp] theorem State.clearClaims_bus (s : State) : (s.clearClaims).bus = s.bus := rfl
@[simp] theorem State.clearClaims_slots (s : State) : (s.clearClaims).slots = s.slots := rfl
@[simp] theorem State.clearClaims_lanes (s : State) : (s.clearClaims).lanes = s.lanes := rfl
@[simp] theorem State.clearClaims_engine (s : State) : (s.clearClaims).engine = s.engine := rfl
@[simp] theorem State.clearClaims_link (s : State) : (s.clearClaims).link = s.link := rfl
@[simp] theorem State.clearClaims_pending (s : State) : (s.clearClaims).pending = s.pending := rfl
@[simp] theorem State.clearClaims_freeIndex (s : State) : (s.clearClaims).freeIndex = s.freeIndex := rfl

/-! ### withClaims -/

@[simp] theorem State.withClaims_port (l : List Claim) (s : State) : (s.withClaims l).port = s.port := rfl
@[simp] theorem State.withClaims_windows (l : List Claim) (s : State) : (s.withClaims l).windows = s.windows := rfl
@[simp] theorem State.withClaims_floatByte (l : List Claim) (s : State) : (s.withClaims l).floatByte = s.floatByte := rfl
@[simp] theorem State.withClaims_overlay (l : List Claim) (s : State) : (s.withClaims l).overlay = s.overlay := rfl
@[simp] theorem State.withClaims_watch (l : List Claim) (s : State) : (s.withClaims l).watch = s.watch := rfl
@[simp] theorem State.withClaims_probes (l : List Claim) (s : State) : (s.withClaims l).probes = s.probes := rfl
@[simp] theorem State.withClaims_timeBase (l : List Claim) (s : State) : (s.withClaims l).timeBase = s.timeBase := rfl
@[simp] theorem State.withClaims_trace (l : List Claim) (s : State) : (s.withClaims l).trace = s.trace := rfl
@[simp] theorem State.withClaims_bus (l : List Claim) (s : State) : (s.withClaims l).bus = s.bus := rfl
@[simp] theorem State.withClaims_slots (l : List Claim) (s : State) : (s.withClaims l).slots = s.slots := rfl
@[simp] theorem State.withClaims_lanes (l : List Claim) (s : State) : (s.withClaims l).lanes = s.lanes := rfl
@[simp] theorem State.withClaims_engine (l : List Claim) (s : State) : (s.withClaims l).engine = s.engine := rfl
@[simp] theorem State.withClaims_link (l : List Claim) (s : State) : (s.withClaims l).link = s.link := rfl
@[simp] theorem State.withClaims_pending (l : List Claim) (s : State) : (s.withClaims l).pending = s.pending := rfl
@[simp] theorem State.withClaims_freeIndex (l : List Claim) (s : State) : (s.withClaims l).freeIndex = s.freeIndex := rfl

/-! ### withFloor -/

@[simp] theorem State.withFloor_port (n : Nat) (s : State) : (s.withFloor n).port = s.port := rfl
@[simp] theorem State.withFloor_windows (n : Nat) (s : State) : (s.withFloor n).windows = s.windows := rfl
@[simp] theorem State.withFloor_floatByte (n : Nat) (s : State) : (s.withFloor n).floatByte = s.floatByte := rfl
@[simp] theorem State.withFloor_overlay (n : Nat) (s : State) : (s.withFloor n).overlay = s.overlay := rfl
@[simp] theorem State.withFloor_watch (n : Nat) (s : State) : (s.withFloor n).watch = s.watch := rfl
@[simp] theorem State.withFloor_probes (n : Nat) (s : State) : (s.withFloor n).probes = s.probes := rfl
@[simp] theorem State.withFloor_timeBase (n : Nat) (s : State) : (s.withFloor n).timeBase = s.timeBase := rfl
@[simp] theorem State.withFloor_trace (n : Nat) (s : State) : (s.withFloor n).trace = s.trace := rfl
@[simp] theorem State.withFloor_bus (n : Nat) (s : State) : (s.withFloor n).bus = s.bus := rfl
@[simp] theorem State.withFloor_slots (n : Nat) (s : State) : (s.withFloor n).slots = s.slots := rfl
@[simp] theorem State.withFloor_lanes (n : Nat) (s : State) : (s.withFloor n).lanes = s.lanes := rfl
@[simp] theorem State.withFloor_engine (n : Nat) (s : State) : (s.withFloor n).engine = s.engine := rfl
@[simp] theorem State.withFloor_link (n : Nat) (s : State) : (s.withFloor n).link = s.link := rfl
@[simp] theorem State.withFloor_pending (n : Nat) (s : State) : (s.withFloor n).pending = s.pending := rfl
@[simp] theorem State.withFloor_freeIndex (n : Nat) (s : State) : (s.withFloor n).freeIndex = s.freeIndex := rfl

/-! ### withRehearsal -/

@[simp] theorem State.withRehearsal_port (b : Bool) (s : State) : (s.withRehearsal b).port = s.port := rfl
@[simp] theorem State.withRehearsal_windows (b : Bool) (s : State) : (s.withRehearsal b).windows = s.windows := rfl
@[simp] theorem State.withRehearsal_floatByte (b : Bool) (s : State) : (s.withRehearsal b).floatByte = s.floatByte := rfl
@[simp] theorem State.withRehearsal_overlay (b : Bool) (s : State) : (s.withRehearsal b).overlay = s.overlay := rfl
@[simp] theorem State.withRehearsal_watch (b : Bool) (s : State) : (s.withRehearsal b).watch = s.watch := rfl
@[simp] theorem State.withRehearsal_probes (b : Bool) (s : State) : (s.withRehearsal b).probes = s.probes := rfl
@[simp] theorem State.withRehearsal_timeBase (b : Bool) (s : State) : (s.withRehearsal b).timeBase = s.timeBase := rfl
@[simp] theorem State.withRehearsal_trace (b : Bool) (s : State) : (s.withRehearsal b).trace = s.trace := rfl
@[simp] theorem State.withRehearsal_bus (b : Bool) (s : State) : (s.withRehearsal b).bus = s.bus := rfl
@[simp] theorem State.withRehearsal_slots (b : Bool) (s : State) : (s.withRehearsal b).slots = s.slots := rfl
@[simp] theorem State.withRehearsal_lanes (b : Bool) (s : State) : (s.withRehearsal b).lanes = s.lanes := rfl
@[simp] theorem State.withRehearsal_engine (b : Bool) (s : State) : (s.withRehearsal b).engine = s.engine := rfl
@[simp] theorem State.withRehearsal_link (b : Bool) (s : State) : (s.withRehearsal b).link = s.link := rfl
@[simp] theorem State.withRehearsal_pending (b : Bool) (s : State) : (s.withRehearsal b).pending = s.pending := rfl
@[simp] theorem State.withRehearsal_freeIndex (b : Bool) (s : State) : (s.withRehearsal b).freeIndex = s.freeIndex := rfl

/-! ### requestTarget -/

@[simp] theorem State.requestTarget_port (s : State) : (s.requestTarget).port = s.port := rfl
@[simp] theorem State.requestTarget_windows (s : State) : (s.requestTarget).windows = s.windows := rfl
@[simp] theorem State.requestTarget_floatByte (s : State) : (s.requestTarget).floatByte = s.floatByte := rfl
@[simp] theorem State.requestTarget_overlay (s : State) : (s.requestTarget).overlay = s.overlay := rfl
@[simp] theorem State.requestTarget_watch (s : State) : (s.requestTarget).watch = s.watch := rfl
@[simp] theorem State.requestTarget_probes (s : State) : (s.requestTarget).probes = s.probes := rfl
@[simp] theorem State.requestTarget_timeBase (s : State) : (s.requestTarget).timeBase = s.timeBase := rfl
@[simp] theorem State.requestTarget_run (s : State) : (s.requestTarget).run = s.run := rfl
@[simp] theorem State.requestTarget_trace (s : State) : (s.requestTarget).trace = s.trace := rfl
@[simp] theorem State.requestTarget_slots (s : State) : (s.requestTarget).slots = s.slots := rfl
@[simp] theorem State.requestTarget_lanes (s : State) : (s.requestTarget).lanes = s.lanes := rfl
@[simp] theorem State.requestTarget_engine (s : State) : (s.requestTarget).engine = s.engine := rfl
@[simp] theorem State.requestTarget_link (s : State) : (s.requestTarget).link = s.link := rfl
@[simp] theorem State.requestTarget_pending (s : State) : (s.requestTarget).pending = s.pending := rfl
@[simp] theorem State.requestTarget_freeIndex (s : State) : (s.requestTarget).freeIndex = s.freeIndex := rfl

/-! ### requestBench -/

@[simp] theorem State.requestBench_port (s : State) : (s.requestBench).port = s.port := rfl
@[simp] theorem State.requestBench_windows (s : State) : (s.requestBench).windows = s.windows := rfl
@[simp] theorem State.requestBench_floatByte (s : State) : (s.requestBench).floatByte = s.floatByte := rfl
@[simp] theorem State.requestBench_overlay (s : State) : (s.requestBench).overlay = s.overlay := rfl
@[simp] theorem State.requestBench_watch (s : State) : (s.requestBench).watch = s.watch := rfl
@[simp] theorem State.requestBench_probes (s : State) : (s.requestBench).probes = s.probes := rfl
@[simp] theorem State.requestBench_timeBase (s : State) : (s.requestBench).timeBase = s.timeBase := rfl
@[simp] theorem State.requestBench_run (s : State) : (s.requestBench).run = s.run := rfl
@[simp] theorem State.requestBench_trace (s : State) : (s.requestBench).trace = s.trace := rfl
@[simp] theorem State.requestBench_slots (s : State) : (s.requestBench).slots = s.slots := rfl
@[simp] theorem State.requestBench_lanes (s : State) : (s.requestBench).lanes = s.lanes := rfl
@[simp] theorem State.requestBench_engine (s : State) : (s.requestBench).engine = s.engine := rfl
@[simp] theorem State.requestBench_link (s : State) : (s.requestBench).link = s.link := rfl
@[simp] theorem State.requestBench_pending (s : State) : (s.requestBench).pending = s.pending := rfl
@[simp] theorem State.requestBench_freeIndex (s : State) : (s.requestBench).freeIndex = s.freeIndex := rfl

/-! ### requestEngine -/

@[simp] theorem State.requestEngine_port (w : EngineWork) (s : State) : (s.requestEngine w).port = s.port := rfl
@[simp] theorem State.requestEngine_windows (w : EngineWork) (s : State) : (s.requestEngine w).windows = s.windows := rfl
@[simp] theorem State.requestEngine_floatByte (w : EngineWork) (s : State) : (s.requestEngine w).floatByte = s.floatByte := rfl
@[simp] theorem State.requestEngine_overlay (w : EngineWork) (s : State) : (s.requestEngine w).overlay = s.overlay := rfl
@[simp] theorem State.requestEngine_watch (w : EngineWork) (s : State) : (s.requestEngine w).watch = s.watch := rfl
@[simp] theorem State.requestEngine_probes (w : EngineWork) (s : State) : (s.requestEngine w).probes = s.probes := rfl
@[simp] theorem State.requestEngine_timeBase (w : EngineWork) (s : State) : (s.requestEngine w).timeBase = s.timeBase := rfl
@[simp] theorem State.requestEngine_run (w : EngineWork) (s : State) : (s.requestEngine w).run = s.run := rfl
@[simp] theorem State.requestEngine_trace (w : EngineWork) (s : State) : (s.requestEngine w).trace = s.trace := rfl
@[simp] theorem State.requestEngine_slots (w : EngineWork) (s : State) : (s.requestEngine w).slots = s.slots := rfl
@[simp] theorem State.requestEngine_lanes (w : EngineWork) (s : State) : (s.requestEngine w).lanes = s.lanes := rfl
@[simp] theorem State.requestEngine_engine (w : EngineWork) (s : State) : (s.requestEngine w).engine = s.engine := rfl
@[simp] theorem State.requestEngine_link (w : EngineWork) (s : State) : (s.requestEngine w).link = s.link := rfl
@[simp] theorem State.requestEngine_pending (w : EngineWork) (s : State) : (s.requestEngine w).pending = s.pending := rfl
@[simp] theorem State.requestEngine_freeIndex (w : EngineWork) (s : State) : (s.requestEngine w).freeIndex = s.freeIndex := rfl

/-! ### freeBus -/

@[simp] theorem State.freeBus_port (s : State) : (s.freeBus).port = s.port := rfl
@[simp] theorem State.freeBus_windows (s : State) : (s.freeBus).windows = s.windows := rfl
@[simp] theorem State.freeBus_floatByte (s : State) : (s.freeBus).floatByte = s.floatByte := rfl
@[simp] theorem State.freeBus_overlay (s : State) : (s.freeBus).overlay = s.overlay := rfl
@[simp] theorem State.freeBus_watch (s : State) : (s.freeBus).watch = s.watch := rfl
@[simp] theorem State.freeBus_probes (s : State) : (s.freeBus).probes = s.probes := rfl
@[simp] theorem State.freeBus_timeBase (s : State) : (s.freeBus).timeBase = s.timeBase := rfl
@[simp] theorem State.freeBus_run (s : State) : (s.freeBus).run = s.run := rfl
@[simp] theorem State.freeBus_trace (s : State) : (s.freeBus).trace = s.trace := rfl
@[simp] theorem State.freeBus_slots (s : State) : (s.freeBus).slots = s.slots := rfl
@[simp] theorem State.freeBus_lanes (s : State) : (s.freeBus).lanes = s.lanes := rfl
@[simp] theorem State.freeBus_engine (s : State) : (s.freeBus).engine = s.engine := rfl
@[simp] theorem State.freeBus_link (s : State) : (s.freeBus).link = s.link := rfl
@[simp] theorem State.freeBus_pending (s : State) : (s.freeBus).pending = s.pending := rfl
@[simp] theorem State.freeBus_freeIndex (s : State) : (s.freeBus).freeIndex = s.freeIndex := rfl

/-! ### engineBusLost -/

@[simp] theorem State.engineBusLost_port (s : State) : (s.engineBusLost).port = s.port := rfl
@[simp] theorem State.engineBusLost_windows (s : State) : (s.engineBusLost).windows = s.windows := rfl
@[simp] theorem State.engineBusLost_floatByte (s : State) : (s.engineBusLost).floatByte = s.floatByte := rfl
@[simp] theorem State.engineBusLost_overlay (s : State) : (s.engineBusLost).overlay = s.overlay := rfl
@[simp] theorem State.engineBusLost_watch (s : State) : (s.engineBusLost).watch = s.watch := rfl
@[simp] theorem State.engineBusLost_probes (s : State) : (s.engineBusLost).probes = s.probes := rfl
@[simp] theorem State.engineBusLost_timeBase (s : State) : (s.engineBusLost).timeBase = s.timeBase := rfl
@[simp] theorem State.engineBusLost_run (s : State) : (s.engineBusLost).run = s.run := rfl
@[simp] theorem State.engineBusLost_trace (s : State) : (s.engineBusLost).trace = s.trace := rfl
@[simp] theorem State.engineBusLost_slots (s : State) : (s.engineBusLost).slots = s.slots := rfl
@[simp] theorem State.engineBusLost_lanes (s : State) : (s.engineBusLost).lanes = s.lanes := rfl
@[simp] theorem State.engineBusLost_engine (s : State) : (s.engineBusLost).engine = s.engine := rfl
@[simp] theorem State.engineBusLost_link (s : State) : (s.engineBusLost).link = s.link := rfl
@[simp] theorem State.engineBusLost_pending (s : State) : (s.engineBusLost).pending = s.pending := rfl
@[simp] theorem State.engineBusLost_freeIndex (s : State) : (s.engineBusLost).freeIndex = s.freeIndex := rfl

/-! ### setOwed -/

@[simp] theorem State.setOwed_port (l : Fin 4) (b : Bool) (s : State) : (s.setOwed l b).port = s.port := rfl
@[simp] theorem State.setOwed_windows (l : Fin 4) (b : Bool) (s : State) : (s.setOwed l b).windows = s.windows := rfl
@[simp] theorem State.setOwed_floatByte (l : Fin 4) (b : Bool) (s : State) : (s.setOwed l b).floatByte = s.floatByte := rfl
@[simp] theorem State.setOwed_overlay (l : Fin 4) (b : Bool) (s : State) : (s.setOwed l b).overlay = s.overlay := rfl
@[simp] theorem State.setOwed_watch (l : Fin 4) (b : Bool) (s : State) : (s.setOwed l b).watch = s.watch := rfl
@[simp] theorem State.setOwed_probes (l : Fin 4) (b : Bool) (s : State) : (s.setOwed l b).probes = s.probes := rfl
@[simp] theorem State.setOwed_timeBase (l : Fin 4) (b : Bool) (s : State) : (s.setOwed l b).timeBase = s.timeBase := rfl
@[simp] theorem State.setOwed_run (l : Fin 4) (b : Bool) (s : State) : (s.setOwed l b).run = s.run := rfl
@[simp] theorem State.setOwed_trace (l : Fin 4) (b : Bool) (s : State) : (s.setOwed l b).trace = s.trace := rfl
@[simp] theorem State.setOwed_bus (l : Fin 4) (b : Bool) (s : State) : (s.setOwed l b).bus = s.bus := rfl
@[simp] theorem State.setOwed_slots (l : Fin 4) (b : Bool) (s : State) : (s.setOwed l b).slots = s.slots := rfl
@[simp] theorem State.setOwed_engine (l : Fin 4) (b : Bool) (s : State) : (s.setOwed l b).engine = s.engine := rfl
@[simp] theorem State.setOwed_link (l : Fin 4) (b : Bool) (s : State) : (s.setOwed l b).link = s.link := rfl
@[simp] theorem State.setOwed_pending (l : Fin 4) (b : Bool) (s : State) : (s.setOwed l b).pending = s.pending := rfl
@[simp] theorem State.setOwed_freeIndex (l : Fin 4) (b : Bool) (s : State) : (s.setOwed l b).freeIndex = s.freeIndex := rfl

/-! ### setJob -/

@[simp] theorem State.setJob_port (n : Nat) (j : JobState) (s : State) : (s.setJob n j).port = s.port := rfl
@[simp] theorem State.setJob_windows (n : Nat) (j : JobState) (s : State) : (s.setJob n j).windows = s.windows := rfl
@[simp] theorem State.setJob_floatByte (n : Nat) (j : JobState) (s : State) : (s.setJob n j).floatByte = s.floatByte := rfl
@[simp] theorem State.setJob_overlay (n : Nat) (j : JobState) (s : State) : (s.setJob n j).overlay = s.overlay := rfl
@[simp] theorem State.setJob_watch (n : Nat) (j : JobState) (s : State) : (s.setJob n j).watch = s.watch := rfl
@[simp] theorem State.setJob_probes (n : Nat) (j : JobState) (s : State) : (s.setJob n j).probes = s.probes := rfl
@[simp] theorem State.setJob_timeBase (n : Nat) (j : JobState) (s : State) : (s.setJob n j).timeBase = s.timeBase := rfl
@[simp] theorem State.setJob_run (n : Nat) (j : JobState) (s : State) : (s.setJob n j).run = s.run := rfl
@[simp] theorem State.setJob_trace (n : Nat) (j : JobState) (s : State) : (s.setJob n j).trace = s.trace := rfl
@[simp] theorem State.setJob_bus (n : Nat) (j : JobState) (s : State) : (s.setJob n j).bus = s.bus := rfl
@[simp] theorem State.setJob_slots (n : Nat) (j : JobState) (s : State) : (s.setJob n j).slots = s.slots := rfl
@[simp] theorem State.setJob_lanes (n : Nat) (j : JobState) (s : State) : (s.setJob n j).lanes = s.lanes := rfl
@[simp] theorem State.setJob_link (n : Nat) (j : JobState) (s : State) : (s.setJob n j).link = s.link := rfl
@[simp] theorem State.setJob_pending (n : Nat) (j : JobState) (s : State) : (s.setJob n j).pending = s.pending := rfl
@[simp] theorem State.setJob_freeIndex (n : Nat) (j : JobState) (s : State) : (s.setJob n j).freeIndex = s.freeIndex := rfl

/-! ### clearCycle -/

@[simp] theorem State.clearCycle_windows (s : State) : (s.clearCycle).windows = s.windows := rfl
@[simp] theorem State.clearCycle_floatByte (s : State) : (s.clearCycle).floatByte = s.floatByte := rfl
@[simp] theorem State.clearCycle_overlay (s : State) : (s.clearCycle).overlay = s.overlay := rfl
@[simp] theorem State.clearCycle_watch (s : State) : (s.clearCycle).watch = s.watch := rfl
@[simp] theorem State.clearCycle_probes (s : State) : (s.clearCycle).probes = s.probes := rfl
@[simp] theorem State.clearCycle_timeBase (s : State) : (s.clearCycle).timeBase = s.timeBase := rfl
@[simp] theorem State.clearCycle_run (s : State) : (s.clearCycle).run = s.run := rfl
@[simp] theorem State.clearCycle_trace (s : State) : (s.clearCycle).trace = s.trace := rfl
@[simp] theorem State.clearCycle_bus (s : State) : (s.clearCycle).bus = s.bus := rfl
@[simp] theorem State.clearCycle_slots (s : State) : (s.clearCycle).slots = s.slots := rfl
@[simp] theorem State.clearCycle_lanes (s : State) : (s.clearCycle).lanes = s.lanes := rfl
@[simp] theorem State.clearCycle_engine (s : State) : (s.clearCycle).engine = s.engine := rfl
@[simp] theorem State.clearCycle_link (s : State) : (s.clearCycle).link = s.link := rfl
@[simp] theorem State.clearCycle_pending (s : State) : (s.clearCycle).pending = s.pending := rfl
@[simp] theorem State.clearCycle_freeIndex (s : State) : (s.clearCycle).freeIndex = s.freeIndex := rfl

/-! ### setBoardReset -/

@[simp] theorem State.setBoardReset_windows (b : Bool) (s : State) : (s.setBoardReset b).windows = s.windows := rfl
@[simp] theorem State.setBoardReset_floatByte (b : Bool) (s : State) : (s.setBoardReset b).floatByte = s.floatByte := rfl
@[simp] theorem State.setBoardReset_overlay (b : Bool) (s : State) : (s.setBoardReset b).overlay = s.overlay := rfl
@[simp] theorem State.setBoardReset_watch (b : Bool) (s : State) : (s.setBoardReset b).watch = s.watch := rfl
@[simp] theorem State.setBoardReset_probes (b : Bool) (s : State) : (s.setBoardReset b).probes = s.probes := rfl
@[simp] theorem State.setBoardReset_timeBase (b : Bool) (s : State) : (s.setBoardReset b).timeBase = s.timeBase := rfl
@[simp] theorem State.setBoardReset_run (b : Bool) (s : State) : (s.setBoardReset b).run = s.run := rfl
@[simp] theorem State.setBoardReset_trace (b : Bool) (s : State) : (s.setBoardReset b).trace = s.trace := rfl
@[simp] theorem State.setBoardReset_bus (b : Bool) (s : State) : (s.setBoardReset b).bus = s.bus := rfl
@[simp] theorem State.setBoardReset_slots (b : Bool) (s : State) : (s.setBoardReset b).slots = s.slots := rfl
@[simp] theorem State.setBoardReset_lanes (b : Bool) (s : State) : (s.setBoardReset b).lanes = s.lanes := rfl
@[simp] theorem State.setBoardReset_engine (b : Bool) (s : State) : (s.setBoardReset b).engine = s.engine := rfl
@[simp] theorem State.setBoardReset_link (b : Bool) (s : State) : (s.setBoardReset b).link = s.link := rfl
@[simp] theorem State.setBoardReset_pending (b : Bool) (s : State) : (s.setBoardReset b).pending = s.pending := rfl
@[simp] theorem State.setBoardReset_freeIndex (b : Bool) (s : State) : (s.setBoardReset b).freeIndex = s.freeIndex := rfl

/-! ### setSupply -/

@[simp] theorem State.setSupply_windows (n : Nat) (s : State) : (s.setSupply n).windows = s.windows := rfl
@[simp] theorem State.setSupply_floatByte (n : Nat) (s : State) : (s.setSupply n).floatByte = s.floatByte := rfl
@[simp] theorem State.setSupply_overlay (n : Nat) (s : State) : (s.setSupply n).overlay = s.overlay := rfl
@[simp] theorem State.setSupply_watch (n : Nat) (s : State) : (s.setSupply n).watch = s.watch := rfl
@[simp] theorem State.setSupply_probes (n : Nat) (s : State) : (s.setSupply n).probes = s.probes := rfl
@[simp] theorem State.setSupply_timeBase (n : Nat) (s : State) : (s.setSupply n).timeBase = s.timeBase := rfl
@[simp] theorem State.setSupply_run (n : Nat) (s : State) : (s.setSupply n).run = s.run := rfl
@[simp] theorem State.setSupply_trace (n : Nat) (s : State) : (s.setSupply n).trace = s.trace := rfl
@[simp] theorem State.setSupply_bus (n : Nat) (s : State) : (s.setSupply n).bus = s.bus := rfl
@[simp] theorem State.setSupply_slots (n : Nat) (s : State) : (s.setSupply n).slots = s.slots := rfl
@[simp] theorem State.setSupply_lanes (n : Nat) (s : State) : (s.setSupply n).lanes = s.lanes := rfl
@[simp] theorem State.setSupply_engine (n : Nat) (s : State) : (s.setSupply n).engine = s.engine := rfl
@[simp] theorem State.setSupply_link (n : Nat) (s : State) : (s.setSupply n).link = s.link := rfl
@[simp] theorem State.setSupply_pending (n : Nat) (s : State) : (s.setSupply n).pending = s.pending := rfl
@[simp] theorem State.setSupply_freeIndex (n : Nat) (s : State) : (s.setSupply n).freeIndex = s.freeIndex := rfl

/-! ### setProbeLine -/

@[simp] theorem State.setProbeLine_port (l : Fin 4) (p : ProbeLine) (s : State) : (s.setProbeLine l p).port = s.port := rfl
@[simp] theorem State.setProbeLine_windows (l : Fin 4) (p : ProbeLine) (s : State) : (s.setProbeLine l p).windows = s.windows := rfl
@[simp] theorem State.setProbeLine_floatByte (l : Fin 4) (p : ProbeLine) (s : State) : (s.setProbeLine l p).floatByte = s.floatByte := rfl
@[simp] theorem State.setProbeLine_overlay (l : Fin 4) (p : ProbeLine) (s : State) : (s.setProbeLine l p).overlay = s.overlay := rfl
@[simp] theorem State.setProbeLine_watch (l : Fin 4) (p : ProbeLine) (s : State) : (s.setProbeLine l p).watch = s.watch := rfl
@[simp] theorem State.setProbeLine_timeBase (l : Fin 4) (p : ProbeLine) (s : State) : (s.setProbeLine l p).timeBase = s.timeBase := rfl
@[simp] theorem State.setProbeLine_run (l : Fin 4) (p : ProbeLine) (s : State) : (s.setProbeLine l p).run = s.run := rfl
@[simp] theorem State.setProbeLine_trace (l : Fin 4) (p : ProbeLine) (s : State) : (s.setProbeLine l p).trace = s.trace := rfl
@[simp] theorem State.setProbeLine_bus (l : Fin 4) (p : ProbeLine) (s : State) : (s.setProbeLine l p).bus = s.bus := rfl
@[simp] theorem State.setProbeLine_slots (l : Fin 4) (p : ProbeLine) (s : State) : (s.setProbeLine l p).slots = s.slots := rfl
@[simp] theorem State.setProbeLine_lanes (l : Fin 4) (p : ProbeLine) (s : State) : (s.setProbeLine l p).lanes = s.lanes := rfl
@[simp] theorem State.setProbeLine_engine (l : Fin 4) (p : ProbeLine) (s : State) : (s.setProbeLine l p).engine = s.engine := rfl
@[simp] theorem State.setProbeLine_link (l : Fin 4) (p : ProbeLine) (s : State) : (s.setProbeLine l p).link = s.link := rfl
@[simp] theorem State.setProbeLine_pending (l : Fin 4) (p : ProbeLine) (s : State) : (s.setProbeLine l p).pending = s.pending := rfl
@[simp] theorem State.setProbeLine_freeIndex (l : Fin 4) (p : ProbeLine) (s : State) : (s.setProbeLine l p).freeIndex = s.freeIndex := rfl

/-! ### setOptions -/

@[simp] theorem State.setOptions_windows (f : HoldFields) (t : Fin 4) (s : State) : (s.setOptions f t).windows = s.windows := rfl
@[simp] theorem State.setOptions_floatByte (f : HoldFields) (t : Fin 4) (s : State) : (s.setOptions f t).floatByte = s.floatByte := rfl
@[simp] theorem State.setOptions_overlay (f : HoldFields) (t : Fin 4) (s : State) : (s.setOptions f t).overlay = s.overlay := rfl
@[simp] theorem State.setOptions_watch (f : HoldFields) (t : Fin 4) (s : State) : (s.setOptions f t).watch = s.watch := rfl
@[simp] theorem State.setOptions_probes (f : HoldFields) (t : Fin 4) (s : State) : (s.setOptions f t).probes = s.probes := rfl
@[simp] theorem State.setOptions_timeBase (f : HoldFields) (t : Fin 4) (s : State) : (s.setOptions f t).timeBase = s.timeBase := rfl
@[simp] theorem State.setOptions_trace (f : HoldFields) (t : Fin 4) (s : State) : (s.setOptions f t).trace = s.trace := rfl
@[simp] theorem State.setOptions_bus (f : HoldFields) (t : Fin 4) (s : State) : (s.setOptions f t).bus = s.bus := rfl
@[simp] theorem State.setOptions_slots (f : HoldFields) (t : Fin 4) (s : State) : (s.setOptions f t).slots = s.slots := rfl
@[simp] theorem State.setOptions_lanes (f : HoldFields) (t : Fin 4) (s : State) : (s.setOptions f t).lanes = s.lanes := rfl
@[simp] theorem State.setOptions_engine (f : HoldFields) (t : Fin 4) (s : State) : (s.setOptions f t).engine = s.engine := rfl
@[simp] theorem State.setOptions_link (f : HoldFields) (t : Fin 4) (s : State) : (s.setOptions f t).link = s.link := rfl
@[simp] theorem State.setOptions_pending (f : HoldFields) (t : Fin 4) (s : State) : (s.setOptions f t).pending = s.pending := rfl
@[simp] theorem State.setOptions_freeIndex (f : HoldFields) (t : Fin 4) (s : State) : (s.setOptions f t).freeIndex = s.freeIndex := rfl

/-! ### stopCapture -/

@[simp] theorem State.stopCapture_port (s : State) : (s.stopCapture).port = s.port := rfl
@[simp] theorem State.stopCapture_windows (s : State) : (s.stopCapture).windows = s.windows := rfl
@[simp] theorem State.stopCapture_floatByte (s : State) : (s.stopCapture).floatByte = s.floatByte := rfl
@[simp] theorem State.stopCapture_overlay (s : State) : (s.stopCapture).overlay = s.overlay := rfl
@[simp] theorem State.stopCapture_watch (s : State) : (s.stopCapture).watch = s.watch := rfl
@[simp] theorem State.stopCapture_probes (s : State) : (s.stopCapture).probes = s.probes := rfl
@[simp] theorem State.stopCapture_timeBase (s : State) : (s.stopCapture).timeBase = s.timeBase := rfl
@[simp] theorem State.stopCapture_run (s : State) : (s.stopCapture).run = s.run := rfl
@[simp] theorem State.stopCapture_bus (s : State) : (s.stopCapture).bus = s.bus := rfl
@[simp] theorem State.stopCapture_slots (s : State) : (s.stopCapture).slots = s.slots := rfl
@[simp] theorem State.stopCapture_lanes (s : State) : (s.stopCapture).lanes = s.lanes := rfl
@[simp] theorem State.stopCapture_engine (s : State) : (s.stopCapture).engine = s.engine := rfl
@[simp] theorem State.stopCapture_pending (s : State) : (s.stopCapture).pending = s.pending := rfl
@[simp] theorem State.stopCapture_freeIndex (s : State) : (s.stopCapture).freeIndex = s.freeIndex := rfl

/-! ### useFree -/

@[simp] theorem State.useFree_port (s : State) : (s.useFree).port = s.port := rfl
@[simp] theorem State.useFree_windows (s : State) : (s.useFree).windows = s.windows := rfl
@[simp] theorem State.useFree_floatByte (s : State) : (s.useFree).floatByte = s.floatByte := rfl
@[simp] theorem State.useFree_overlay (s : State) : (s.useFree).overlay = s.overlay := rfl
@[simp] theorem State.useFree_watch (s : State) : (s.useFree).watch = s.watch := rfl
@[simp] theorem State.useFree_probes (s : State) : (s.useFree).probes = s.probes := rfl
@[simp] theorem State.useFree_timeBase (s : State) : (s.useFree).timeBase = s.timeBase := rfl
@[simp] theorem State.useFree_run (s : State) : (s.useFree).run = s.run := rfl
@[simp] theorem State.useFree_trace (s : State) : (s.useFree).trace = s.trace := rfl
@[simp] theorem State.useFree_bus (s : State) : (s.useFree).bus = s.bus := rfl
@[simp] theorem State.useFree_slots (s : State) : (s.useFree).slots = s.slots := rfl
@[simp] theorem State.useFree_lanes (s : State) : (s.useFree).lanes = s.lanes := rfl
@[simp] theorem State.useFree_engine (s : State) : (s.useFree).engine = s.engine := rfl
@[simp] theorem State.useFree_link (s : State) : (s.useFree).link = s.link := rfl
@[simp] theorem State.useFree_pending (s : State) : (s.useFree).pending = s.pending := rfl

/-! ### tick -/

@[simp] theorem State.tick_port (s : State) : (s.tick).port = s.port := rfl
@[simp] theorem State.tick_windows (s : State) : (s.tick).windows = s.windows := rfl
@[simp] theorem State.tick_floatByte (s : State) : (s.tick).floatByte = s.floatByte := rfl
@[simp] theorem State.tick_overlay (s : State) : (s.tick).overlay = s.overlay := rfl
@[simp] theorem State.tick_watch (s : State) : (s.tick).watch = s.watch := rfl
@[simp] theorem State.tick_probes (s : State) : (s.tick).probes = s.probes := rfl
@[simp] theorem State.tick_run (s : State) : (s.tick).run = s.run := rfl
@[simp] theorem State.tick_trace (s : State) : (s.tick).trace = s.trace := rfl
@[simp] theorem State.tick_bus (s : State) : (s.tick).bus = s.bus := rfl
@[simp] theorem State.tick_slots (s : State) : (s.tick).slots = s.slots := rfl
@[simp] theorem State.tick_lanes (s : State) : (s.tick).lanes = s.lanes := rfl
@[simp] theorem State.tick_engine (s : State) : (s.tick).engine = s.engine := rfl
@[simp] theorem State.tick_link (s : State) : (s.tick).link = s.link := rfl
@[simp] theorem State.tick_pending (s : State) : (s.tick).pending = s.pending := rfl
@[simp] theorem State.tick_freeIndex (s : State) : (s.tick).freeIndex = s.freeIndex := rfl

/-! ### enterClaim -/

@[simp] theorem State.enterClaim_port (r : Raise) (s : State) : (s.enterClaim r).port = s.port := rfl
@[simp] theorem State.enterClaim_windows (r : Raise) (s : State) : (s.enterClaim r).windows = s.windows := rfl
@[simp] theorem State.enterClaim_floatByte (r : Raise) (s : State) : (s.enterClaim r).floatByte = s.floatByte := rfl
@[simp] theorem State.enterClaim_overlay (r : Raise) (s : State) : (s.enterClaim r).overlay = s.overlay := rfl
@[simp] theorem State.enterClaim_watch (r : Raise) (s : State) : (s.enterClaim r).watch = s.watch := rfl
@[simp] theorem State.enterClaim_probes (r : Raise) (s : State) : (s.enterClaim r).probes = s.probes := rfl
@[simp] theorem State.enterClaim_timeBase (r : Raise) (s : State) : (s.enterClaim r).timeBase = s.timeBase := rfl
@[simp] theorem State.enterClaim_trace (r : Raise) (s : State) : (s.enterClaim r).trace = s.trace := rfl
@[simp] theorem State.enterClaim_bus (r : Raise) (s : State) : (s.enterClaim r).bus = s.bus := rfl
@[simp] theorem State.enterClaim_slots (r : Raise) (s : State) : (s.enterClaim r).slots = s.slots := rfl
@[simp] theorem State.enterClaim_lanes (r : Raise) (s : State) : (s.enterClaim r).lanes = s.lanes := rfl
@[simp] theorem State.enterClaim_engine (r : Raise) (s : State) : (s.enterClaim r).engine = s.engine := rfl
@[simp] theorem State.enterClaim_pending (r : Raise) (s : State) : (s.enterClaim r).pending = s.pending := rfl
@[simp] theorem State.enterClaim_freeIndex (r : Raise) (s : State) : (s.enterClaim r).freeIndex = s.freeIndex := rfl

/-! ### lineFree, dequeue -/

@[simp] theorem State.lineFree_port (s : State) : s.lineFree.port = s.port := rfl
@[simp] theorem State.lineFree_windows (s : State) : s.lineFree.windows = s.windows := rfl
@[simp] theorem State.lineFree_floatByte (s : State) : s.lineFree.floatByte = s.floatByte := rfl
@[simp] theorem State.lineFree_overlay (s : State) : s.lineFree.overlay = s.overlay := rfl
@[simp] theorem State.lineFree_watch (s : State) : s.lineFree.watch = s.watch := rfl
@[simp] theorem State.lineFree_probes (s : State) : s.lineFree.probes = s.probes := rfl
@[simp] theorem State.lineFree_timeBase (s : State) : s.lineFree.timeBase = s.timeBase := rfl
@[simp] theorem State.lineFree_run (s : State) : s.lineFree.run = s.run := rfl
@[simp] theorem State.lineFree_trace (s : State) : s.lineFree.trace = s.trace := rfl
@[simp] theorem State.lineFree_bus (s : State) : s.lineFree.bus = s.bus := rfl
@[simp] theorem State.lineFree_slots (s : State) : s.lineFree.slots = s.slots := rfl
@[simp] theorem State.lineFree_lanes (s : State) : s.lineFree.lanes = s.lanes := rfl
@[simp] theorem State.lineFree_engine (s : State) : s.lineFree.engine = s.engine := rfl
@[simp] theorem State.lineFree_pending (s : State) : s.lineFree.pending = s.pending := rfl
@[simp] theorem State.lineFree_freeIndex (s : State) : s.lineFree.freeIndex = s.freeIndex := rfl
@[simp] theorem State.lineFree_link (s : State) : s.lineFree.link = { s.link with activity := .idle } := rfl

/-- A free link stays as it is. -/
theorem State.lineFree_of_idle {s : State} (h : s.link.activity = .idle) : s.lineFree = s := by
  unfold State.lineFree
  rw [← h]

@[simp] theorem State.dequeue_port (rest : List Frame) (s : State) : (s.dequeue rest).port = s.port := rfl
@[simp] theorem State.dequeue_windows (rest : List Frame) (s : State) : (s.dequeue rest).windows = s.windows := rfl
@[simp] theorem State.dequeue_floatByte (rest : List Frame) (s : State) : (s.dequeue rest).floatByte = s.floatByte := rfl
@[simp] theorem State.dequeue_overlay (rest : List Frame) (s : State) : (s.dequeue rest).overlay = s.overlay := rfl
@[simp] theorem State.dequeue_watch (rest : List Frame) (s : State) : (s.dequeue rest).watch = s.watch := rfl
@[simp] theorem State.dequeue_probes (rest : List Frame) (s : State) : (s.dequeue rest).probes = s.probes := rfl
@[simp] theorem State.dequeue_timeBase (rest : List Frame) (s : State) : (s.dequeue rest).timeBase = s.timeBase := rfl
@[simp] theorem State.dequeue_run (rest : List Frame) (s : State) : (s.dequeue rest).run = s.run := rfl
@[simp] theorem State.dequeue_trace (rest : List Frame) (s : State) : (s.dequeue rest).trace = s.trace := rfl
@[simp] theorem State.dequeue_bus (rest : List Frame) (s : State) : (s.dequeue rest).bus = s.bus := rfl
@[simp] theorem State.dequeue_slots (rest : List Frame) (s : State) : (s.dequeue rest).slots = s.slots := rfl
@[simp] theorem State.dequeue_lanes (rest : List Frame) (s : State) : (s.dequeue rest).lanes = s.lanes := rfl
@[simp] theorem State.dequeue_engine (rest : List Frame) (s : State) : (s.dequeue rest).engine = s.engine := rfl
@[simp] theorem State.dequeue_pending (rest : List Frame) (s : State) : (s.dequeue rest).pending = s.pending := rfl
@[simp] theorem State.dequeue_freeIndex (rest : List Frame) (s : State) : (s.dequeue rest).freeIndex = s.freeIndex := rfl
@[simp] theorem State.dequeue_link (rest : List Frame) (s : State) : (s.dequeue rest).link = { s.link with queue := rest } := rfl

/-! ### What is written -/

@[simp] theorem State.latch_pending_flags (n : Notice) (s : State) : (s.latch n).link.pending = s.link.pending ||| n.flag := rfl
@[simp] theorem State.latch_sent (n : Notice) (s : State) : (s.latch n).link.sent = s.link.sent := rfl
@[simp] theorem State.latch_activity (n : Notice) (s : State) : (s.latch n).link.activity = s.link.activity := rfl
@[simp] theorem State.latch_queue (n : Notice) (s : State) : (s.latch n).link.queue = s.link.queue := rfl
@[simp] theorem State.latch_mask (n : Notice) (s : State) : (s.latch n).link.mask = s.link.mask := rfl
@[simp] theorem State.latch_rate (n : Notice) (s : State) : (s.latch n).link.rate = s.link.rate := rfl
@[simp] theorem State.respond_sent (x : Status) (k : Byte) (a : Answer) (s : State) : (s.respond x k a).link.sent = some { status := x, code := k, answer := a } := rfl
@[simp] theorem State.respond_activity (x : Status) (k : Byte) (a : Answer) (s : State) : (s.respond x k a).link.activity = .sending := rfl
@[simp] theorem State.respond_queue (x : Status) (k : Byte) (a : Answer) (s : State) : (s.respond x k a).link.queue = s.link.queue := rfl
@[simp] theorem State.respond_pending_flags (x : Status) (k : Byte) (a : Answer) (s : State) : (s.respond x k a).link.pending = s.link.pending := rfl
@[simp] theorem State.respond_mask (x : Status) (k : Byte) (a : Answer) (s : State) : (s.respond x k a).link.mask = s.link.mask := rfl
@[simp] theorem State.respond_rate (x : Status) (k : Byte) (a : Answer) (s : State) : (s.respond x k a).link.rate = s.link.rate := rfl
@[simp] theorem State.occupy_activity (a : Activity) (s : State) : (s.occupy a).link.activity = a := rfl
@[simp] theorem State.occupy_queue (a : Activity) (s : State) : (s.occupy a).link.queue = s.link.queue := rfl
@[simp] theorem State.occupy_sent (a : Activity) (s : State) : (s.occupy a).link.sent = s.link.sent := rfl
@[simp] theorem State.occupy_pending_flags (a : Activity) (s : State) : (s.occupy a).link.pending = s.link.pending := rfl
@[simp] theorem State.setHold_hold (h : HoldState) (s : State) : (s.setHold h).run.hold = h := rfl
@[simp] theorem State.setHold_claims (h : HoldState) (s : State) : (s.setHold h).run.claims = s.run.claims := rfl
@[simp] theorem State.setHold_rehearsal (h : HoldState) (s : State) : (s.setHold h).run.rehearsal = s.run.rehearsal := rfl
@[simp] theorem State.setHold_floor (h : HoldState) (s : State) : (s.setHold h).run.floor = s.run.floor := rfl
@[simp] theorem State.setHold_origin (h : HoldState) (s : State) : (s.setHold h).run.origin = s.run.origin := rfl
@[simp] theorem State.setHold_timer (h : HoldState) (s : State) : (s.setHold h).run.timer = s.run.timer := rfl
@[simp] theorem State.setHold_run (h : HoldState) (s : State) : (s.setHold h).run = { s.run with hold := h } := rfl
@[simp] theorem State.withClaims_run (l : List Claim) (s : State) : (s.withClaims l).run = { s.run with claims := l } := rfl
@[simp] theorem State.withFloor_run (n : Nat) (s : State) : (s.withFloor n).run = { s.run with floor := n } := rfl
@[simp] theorem State.withRehearsal_run (b : Bool) (s : State) : (s.withRehearsal b).run = { s.run with rehearsal := b } := rfl
@[simp] theorem State.clearClaims_run (s : State) : s.clearClaims.run = { s.run with claims := [] } := rfl
@[simp] theorem State.requestTarget_bus (s : State) : s.requestTarget.bus = { s.bus with target := true } := rfl
@[simp] theorem State.requestBench_bus (s : State) : s.requestBench.bus = { s.bus with bench := some 0 } := rfl
@[simp] theorem State.requestEngine_bus (w : EngineWork) (s : State) : (s.requestEngine w).bus = { s.bus with engine := some { aging := 0, work := w } } := rfl
@[simp] theorem State.freeBus_bus (s : State) : s.freeBus.bus = { s.bus with owner := .free } := rfl
@[simp] theorem State.clearCycle_port (s : State) : s.clearCycle.port = { s.port with inFlight := none } := rfl
@[simp] theorem State.setBoardReset_port (b : Bool) (s : State) : (s.setBoardReset b).port = { s.port with boardReset := b } := rfl
@[simp] theorem State.setSupply_port (n : Nat) (s : State) : (s.setSupply n).port = { s.port with supply := n } := rfl
@[simp] theorem State.setProbeLine_probes (l : Fin 4) (p : ProbeLine) (s : State) : (s.setProbeLine l p).probes = s.probes.set l p := rfl
@[simp] theorem State.setJob_jobs (n : Nat) (j : JobState) (s : State) : (s.setJob n j).engine.jobs = s.engine.jobs.map (fun k => if k.number = n then { k with state := j } else k) := rfl
@[simp] theorem State.setJob_endOrder (n : Nat) (j : JobState) (s : State) : (s.setJob n j).engine.endOrder = s.engine.endOrder := rfl
@[simp] theorem State.setJob_nextNumber (n : Nat) (j : JobState) (s : State) : (s.setJob n j).engine.nextNumber = s.engine.nextNumber := rfl
@[simp] theorem State.stopCapture_trace (s : State) : s.stopCapture.trace = { s.trace with capture := .stopped } := rfl
@[simp] theorem State.stopCapture_link (s : State) : s.stopCapture.link = (s.latch .traceStopped).link := rfl
@[simp] theorem State.useFree_freeIndex (s : State) : s.useFree.freeIndex = s.freeIndex + 1 := rfl
@[simp] theorem State.tick_timeBase (s : State) : s.tick.timeBase = s.timeBase + 1 := rfl
@[simp] theorem State.enterClaim_run (r : Raise) (s : State) : (s.enterClaim r).run = { s.run with claims := s.claimsAfter r } := rfl
@[simp] theorem State.enterClaim_link (r : Raise) (s : State) : (s.enterClaim r).link = (s.latch .claim).link := rfl

end Sys2Proof.Machine
end

