-- ==== Sys2Proof/Laws/Trace.lean ====
section
/-! SUPPORT. What handing a record to the Trace Store does: one lemma for everything it leaves alone, one for each of its three outcomes, and the order of the
sequence numbers (R119, R120, R127 to R133). -/

namespace Sys2Proof.Machine

/-- Two states that differ at most in the Trace Store and the pending notices. -/
abbrev State.traceOnly (s t : State) : Prop := t = { s with trace := t.trace, link := { s.link with pending := t.link.pending } }

theorem State.traceOnly_trans {s t u : State} (h : s.traceOnly t) (k : t.traceOnly u) : s.traceOnly u := by
  unfold State.traceOnly at h k ⊢
  rw [k, h]

theorem stopCapture_traceOnly (s : State) : s.traceOnly s.stopCapture := rfl

theorem markTrace_traceOnly (s : State) : s.traceOnly s.markTrace := by unfold State.markTrace; split <;> rfl

theorem countTail_traceOnly (s : State) : s.traceOnly s.countTail := by
  unfold State.countTail; dsimp only
  split
  · split <;> rfl
  · rfl

theorem appendRecord_traceOnly (b : RecordBody) (stamp : Stamp) (s : State) : s.traceOnly (s.appendRecord b stamp) := by
  refine State.traceOnly_trans (t := _) ?_ (State.traceOnly_trans (markTrace_traceOnly _) (countTail_traceOnly _))
  rfl

/-- A record handed over changes nothing outside the Trace Store but pending notices (R120, R126, R131). -/
theorem offer_traceOnly (b : RecordBody) (sent : Bool) (stamp : Stamp) (s : State) : s.traceOnly (s.offer b sent stamp) := by
  unfold State.offer
  split
  · exact appendRecord_traceOnly ..
  · split
    · exact stopCapture_traceOnly s
    · rfl

theorem traceStart_traceOnly (s : State) : s.traceOnly s.traceStart := by unfold State.traceStart; split <;> rfl

theorem traceStop_traceOnly (s : State) : s.traceOnly s.traceStop := by
  unfold State.traceStop
  split
  · split
    · exact stopCapture_traceOnly s
    · rfl
  · rfl

section fields
variable (b : RecordBody) (sent : Bool) (stamp : Stamp) (s : State)

@[simp] theorem offer_port : (s.offer b sent stamp).port = s.port := by rw [offer_traceOnly b sent stamp s]
@[simp] theorem offer_windows : (s.offer b sent stamp).windows = s.windows := by rw [offer_traceOnly b sent stamp s]
@[simp] theorem offer_floatByte : (s.offer b sent stamp).floatByte = s.floatByte := by rw [offer_traceOnly b sent stamp s]
@[simp] theorem offer_overlay : (s.offer b sent stamp).overlay = s.overlay := by rw [offer_traceOnly b sent stamp s]
@[simp] theorem offer_watch : (s.offer b sent stamp).watch = s.watch := by rw [offer_traceOnly b sent stamp s]
@[simp] theorem offer_probes : (s.offer b sent stamp).probes = s.probes := by rw [offer_traceOnly b sent stamp s]
@[simp] theorem offer_timeBase : (s.offer b sent stamp).timeBase = s.timeBase := by rw [offer_traceOnly b sent stamp s]
@[simp] theorem offer_run : (s.offer b sent stamp).run = s.run := by rw [offer_traceOnly b sent stamp s]
@[simp] theorem offer_bus : (s.offer b sent stamp).bus = s.bus := by rw [offer_traceOnly b sent stamp s]
@[simp] theorem offer_slots : (s.offer b sent stamp).slots = s.slots := by rw [offer_traceOnly b sent stamp s]
@[simp] theorem offer_lanes : (s.offer b sent stamp).lanes = s.lanes := by rw [offer_traceOnly b sent stamp s]
@[simp] theorem offer_engine : (s.offer b sent stamp).engine = s.engine := by rw [offer_traceOnly b sent stamp s]
@[simp] theorem offer_pending : (s.offer b sent stamp).pending = s.pending := by rw [offer_traceOnly b sent stamp s]
@[simp] theorem offer_freeIndex : (s.offer b sent stamp).freeIndex = s.freeIndex := by rw [offer_traceOnly b sent stamp s]
@[simp] theorem offer_activity : (s.offer b sent stamp).link.activity = s.link.activity := by rw [offer_traceOnly b sent stamp s]
@[simp] theorem offer_queue : (s.offer b sent stamp).link.queue = s.link.queue := by rw [offer_traceOnly b sent stamp s]
@[simp] theorem offer_mask : (s.offer b sent stamp).link.mask = s.link.mask := by rw [offer_traceOnly b sent stamp s]
@[simp] theorem offer_rate : (s.offer b sent stamp).link.rate = s.link.rate := by rw [offer_traceOnly b sent stamp s]
@[simp] theorem offer_sent : (s.offer b sent stamp).link.sent = s.link.sent := by rw [offer_traceOnly b sent stamp s]

end fields

/-! ### The three outcomes -/

/-- Not captured or not qualified: discarded without a sign (R120, R128). -/
theorem offer_discards {b : RecordBody} {sent : Bool} {stamp : Stamp} {s : State}
    (h : s.trace.capturing = false ∨ s.trace.qualifies sent b = false) : s.offer b sent stamp = s := by
  rcases h with h | h <;> simp [State.offer, TraceStore.appends, h]

/-- A full store in FILL_STOP mode: not appended, and the capture STOPPED (R130). -/
theorem offer_fillStop {b : RecordBody} {sent : Bool} {stamp : Stamp} {s : State} (h : s.trace.capturing = true)
    (k : s.trace.qualifies sent b = true) (f : s.trace.full = true) (m : s.trace.setup.fillMode = .fillStop) : s.offer b sent stamp = s.stopCapture := by
  simp [State.offer, TraceStore.appends, h, k, f, m]

/-- Appended (R127). -/
theorem offer_appends {b : RecordBody} {sent : Bool} {stamp : Stamp} {s : State} (h : s.trace.appends sent b = true) :
    s.offer b sent stamp = s.appendRecord b stamp := by
  simp [State.offer, h]

@[simp] theorem countTail_records (s : State) : s.countTail.trace.records = s.trace.records := by
  unfold State.countTail; dsimp only
  split
  · split <;> rfl
  · rfl

@[simp] theorem countTail_next (s : State) : s.countTail.trace.next = s.trace.next := by
  unfold State.countTail; dsimp only
  split
  · split <;> rfl
  · rfl

@[simp] theorem markTrace_records (s : State) : s.markTrace.trace.records = s.trace.records := by unfold State.markTrace; split <;> rfl
@[simp] theorem markTrace_next (s : State) : s.markTrace.trace.next = s.trace.next := by unfold State.markTrace; split <;> rfl

/-- What an append writes: the record at the newest end with the next sequence number, and the next number one higher (R127, R129). -/
theorem appendRecord_spec (b : RecordBody) (stamp : Stamp) (s : State) :
    (s.appendRecord b stamp).trace.records = s.trace.push { seq := s.trace.next, stamp := stamp, body := b } ∧
    (s.appendRecord b stamp).trace.next = s.trace.next + 1 := by
  simp [State.appendRecord]

/-! ### Consecutive numbers (R133) -/

/-- The records hold consecutive numbers that end before `next`. -/
abbrev consecutive (records : List TraceRecord) (next : BitVec 32) : Prop :=
  ∀ i, (h : i < records.length) → records[i].seq = next - BitVec.ofNat 32 (records.length - i)

theorem consecutive_drop {l : List TraceRecord} {next : BitVec 32} (h : consecutive l next) (n : Nat) : consecutive (l.drop n) next := by
  intro i hi
  simp only [List.length_drop] at hi ⊢
  rw [List.getElem_drop, h (n + i) (by omega)]
  congr 2; omega

theorem consecutive_append {l : List TraceRecord} {next : BitVec 32} (h : consecutive l next) (r : TraceRecord) (hr : r.seq = next) :
    consecutive (l ++ [r]) (next + 1) := by
  intro i hi
  simp only [List.length_append, List.length_singleton] at hi ⊢
  rcases Nat.lt_or_eq_of_le (Nat.le_of_lt_succ hi) with hlt | rfl
  · rw [List.getElem_append_left hlt, h i hlt, show l.length + 1 - i = l.length - i + 1 by omega]
    rw [BitVec.ofNat_add]
    generalize BitVec.ofNat 32 (l.length - i) = x
    simp only [BitVec.ofNat_eq_ofNat]
    bv_omega
  · simp only [List.getElem_append_right (Nat.le_refl _), Nat.sub_self, List.getElem_cons_zero, hr, Nat.add_sub_cancel_left]
    bv_omega

/-- A record handed over keeps the numbers consecutive and at most 4096 records. -/
theorem offer_traceConsecutive {s : State} (h : s.traceConsecutive) (b : RecordBody) (sent : Bool) (stamp : Stamp) :
    (s.offer b sent stamp).traceConsecutive := by
  unfold State.offer
  split
  · obtain ⟨h1, h2⟩ := appendRecord_spec b stamp s
    have hp : s.trace.push { seq := s.trace.next, stamp := stamp, body := b } =
        s.trace.records.drop (if s.trace.full then 1 else 0) ++ [{ seq := s.trace.next, stamp := stamp, body := b }] := by
      unfold TraceStore.push; split <;> rfl
    simp only [State.traceConsecutive, h1, h2, hp]
    refine ⟨?_, consecutive_append (consecutive_drop h.2 _) _ rfl⟩
    have h4 : s.trace.records.length ≤ 4096 := h.1
    by_cases hf : 4096 ≤ s.trace.records.length <;> simp [TraceStore.full, Config.traceLimit, hf] <;> omega
  · split
    · exact h
    · exact h

end Sys2Proof.Machine
end

