-- ==== Sys2Proof/Laws/Claims.lean ====
section
/-! SUPPORT. The claim list: what putting a claim does, the order of urgency, and what raising a claim leaves alone (R94 to R97). -/

namespace Sys2Proof.Machine

/-! ### Sources and the list -/

theorem Source.code_inj {a b : Source} (h : a.code = b.code) : a = b := by
  cases a <;> cases b <;> simp only [Source.code] at h <;> first | rfl | omega | (congr 1; omega)

/-- A claim of the list after a put is the one put, or one that was there. -/
theorem mem_putClaim {c k : Claim} {l : List Claim} (h : k ∈ putClaim c l) : k = c ∨ k ∈ l := by
  induction l with
  | nil => simpa [putClaim] using h
  | cons d rest ih =>
    simp only [putClaim] at h
    split at h
    · simpa using h
    · split at h
      · rcases List.mem_cons.1 h with h | h
        · exact .inl h
        · exact .inr (List.mem_cons_of_mem _ h)
      · rcases List.mem_cons.1 h with h | h
        · exact .inr (h ▸ List.mem_cons_self)
        · exact (ih h).imp_right (List.mem_cons_of_mem _)

/-- A put keeps the order of the source codes, one claim per source (R94). -/
theorem putClaim_sorted {l : List Claim} (h : l.Pairwise (fun a b => a.source.code < b.source.code)) (c : Claim) :
    (putClaim c l).Pairwise (fun a b => a.source.code < b.source.code) := by
  induction l with
  | nil => simp [putClaim]
  | cons d rest ih =>
    have hd := List.pairwise_cons.1 h
    simp only [putClaim]
    split <;> rename_i hlt
    · refine List.pairwise_cons.2 ⟨fun k hk => ?_, h⟩
      rcases List.mem_cons.1 hk with rfl | hk
      · exact hlt
      · exact Nat.lt_trans hlt (hd.1 k hk)
    · split <;> rename_i heq
      · exact List.pairwise_cons.2 ⟨fun k hk => heq ▸ hd.1 k hk, hd.2⟩
      · refine List.pairwise_cons.2 ⟨fun k hk => ?_, ih hd.2⟩
        rcases mem_putClaim hk with rfl | hk
        · omega
        · exact hd.1 k hk

/-- The claim of a source after a put. -/
theorem find_putClaim (c : Claim) (source : Source) (l : List Claim) :
    (putClaim c l).find? (fun k => decide (k.source = source)) =
      if source = c.source then some c else l.find? (fun k => decide (k.source = source)) := by
  induction l with
  | nil => by_cases h : source = c.source <;> simp [putClaim, h, Ne.symm, eq_comm]
  | cons d rest ih =>
    simp only [putClaim]
    split
    · by_cases h : source = c.source
      · simp [h]
      · simp [h, Ne.symm h]
    · split <;> rename_i heq
      · have hs := Source.code_inj heq
        by_cases h : source = c.source
        · simp [h]
        · have h' : ¬ d.source = source := fun e => h (e ▸ hs.symm)
          simp [h, Ne.symm h, h']
      · rename_i hlt
        by_cases h : d.source = source
        · have h' : ¬ source = c.source := fun e => heq (by rw [← e, h])
          simp [h, h']
        · simp [h, ih]

/-! ### The order of urgency (R97) -/

theorem insertByUrgency_perm (c : Claim) (l : List Claim) : (insertByUrgency c l).Perm (c :: l) := by
  induction l with
  | nil => exact .refl _
  | cons d rest ih =>
    simp only [insertByUrgency]
    split
    · exact .refl _
    · exact (ih.cons d).trans (.swap ..)

theorem byUrgency_perm (l : List Claim) : (byUrgency l).Perm l := by
  induction l with
  | nil => exact .refl _
  | cons c rest ih => exact (insertByUrgency_perm c _).trans (ih.cons c)

/-- The first thing that the order compares: a satisfied step, a claim with a level, a waiting step. -/
def Claim.rank (c : Claim) : Nat := match c.step with | some p => if p.satisfied then 0 else 2 | none => 1

/-- What the order compares: the rank of the step, the level, the source code. -/
theorem before_iff (a b : Claim) : a.before b = true ↔
    a.rank < b.rank ∨ (a.rank = b.rank ∧
      (a.level.getD 0 < b.level.getD 0 ∨ (a.level.getD 0 = b.level.getD 0 ∧ a.source.code ≤ b.source.code))) := by
  simp only [Claim.before, Bool.or_eq_true, Bool.and_eq_true, decide_eq_true_eq]
  exact Iff.rfl

theorem before_total (a b : Claim) : a.before b = true ∨ b.before a = true := by
  simp only [before_iff]; omega

theorem before_trans {a b c : Claim} (h : a.before b = true) (k : b.before c = true) : a.before c = true := by
  simp only [before_iff] at *; omega

theorem insertByUrgency_sorted {l : List Claim} (h : l.Pairwise (fun a b => a.before b = true)) (c : Claim) :
    (insertByUrgency c l).Pairwise (fun a b => a.before b = true) := by
  induction l with
  | nil => simp [insertByUrgency]
  | cons d rest ih =>
    have hd := List.pairwise_cons.1 h
    simp only [insertByUrgency]
    split <;> rename_i hc
    · refine List.pairwise_cons.2 ⟨fun k hk => ?_, h⟩
      rcases List.mem_cons.1 hk with rfl | hk
      · exact hc
      · exact before_trans hc (hd.1 k hk)
    · refine List.pairwise_cons.2 ⟨fun k hk => ?_, ih hd.2⟩
      rcases List.mem_cons.1 ((insertByUrgency_perm c rest).mem_iff.1 hk) with rfl | hk
      · exact (before_total _ _).resolve_left hc
      · exact hd.1 k hk

/-- The most urgent claim first. -/
theorem byUrgency_sorted (l : List Claim) : (byUrgency l).Pairwise (fun a b => a.before b = true) := by
  induction l with
  | nil => exact .nil
  | cons c rest ih => exact insertByUrgency_sorted ih c

/-! ### Raising -/

/-- A raise changes the claims and the pending notices alone (R95). -/
theorem enterClaim_eq (r : Raise) (s : State) :
    s.enterClaim r = { s with run := { s.run with claims := s.claimsAfter r }, link := { s.link with pending := (s.latch .claim).link.pending } } := rfl

section fields
variable (r : Raise) (s : State)

@[simp] theorem enterClaim_port : (s.enterClaim r).port = s.port := rfl
@[simp] theorem enterClaim_windows : (s.enterClaim r).windows = s.windows := rfl
@[simp] theorem enterClaim_floatByte : (s.enterClaim r).floatByte = s.floatByte := rfl
@[simp] theorem enterClaim_overlay : (s.enterClaim r).overlay = s.overlay := rfl
@[simp] theorem enterClaim_watch : (s.enterClaim r).watch = s.watch := rfl
@[simp] theorem enterClaim_probes : (s.enterClaim r).probes = s.probes := rfl
@[simp] theorem enterClaim_timeBase : (s.enterClaim r).timeBase = s.timeBase := rfl
@[simp] theorem enterClaim_hold : (s.enterClaim r).run.hold = s.run.hold := rfl
@[simp] theorem enterClaim_floor : (s.enterClaim r).run.floor = s.run.floor := rfl
@[simp] theorem enterClaim_rehearsal : (s.enterClaim r).run.rehearsal = s.run.rehearsal := rfl
@[simp] theorem enterClaim_claims : (s.enterClaim r).run.claims = s.claimsAfter r := rfl
@[simp] theorem enterClaim_trace : (s.enterClaim r).trace = s.trace := rfl
@[simp] theorem enterClaim_bus : (s.enterClaim r).bus = s.bus := rfl
@[simp] theorem enterClaim_slots : (s.enterClaim r).slots = s.slots := rfl
@[simp] theorem enterClaim_lanes : (s.enterClaim r).lanes = s.lanes := rfl
@[simp] theorem enterClaim_engine : (s.enterClaim r).engine = s.engine := rfl
@[simp] theorem enterClaim_pending : (s.enterClaim r).pending = s.pending := rfl
@[simp] theorem enterClaim_freeIndex : (s.enterClaim r).freeIndex = s.freeIndex := rfl

end fields

/-- The claims after a raise: one put into the list, of the raise's source (R95, R104). -/
theorem claimsAfter_put (r : Raise) (s : State) : ∃ c : Claim, c.source = r.source ∧ s.claimsAfter r = putClaim c s.run.claims := by
  unfold State.claimsAfter
  split
  · exact ⟨r.fresh s.timeBase, rfl, rfl⟩
  · rename_i c hc
    dsimp only
    split
    · refine ⟨_, ?_, rfl⟩
      have := List.find?_some hc
      simpa using this
    · exact ⟨r.again c, rfl, rfl⟩

/-- Every other source's claim stays as it was (R95). -/
theorem claimsAfter_other (r : Raise) (s : State) {source : Source} (h : source ≠ r.source) :
    (s.claimsAfter r).find? (fun k => decide (k.source = source)) = s.run.claimOf source := by
  obtain ⟨c, hc, hl⟩ := claimsAfter_put r s
  rw [hl, find_putClaim, if_neg (hc ▸ h)]
  rfl

end Sys2Proof.Machine
end

