-- ==== Sys2Proof/Laws/Engine.lean ====
section
/-! SUPPORT. What the engine, the arbiter and a transfer leave as it was: everything outside the engine, the arbiter, the slots, the lanes and the link. -/

namespace Sys2Proof.Machine

theorem engineOnly_refl (s : State) : s.engineOnly s := ⟨⟨rfl, rfl, rfl, rfl, rfl, rfl, rfl, rfl⟩, rfl, rfl, rfl⟩

theorem engineOnly_trans {s t u : State} (h : s.engineOnly t) (k : t.engineOnly u) : s.engineOnly u := by
  obtain ⟨⟨a1, a2, a3, a4, a5, a6, a7, a8⟩, a9, a10, a11⟩ := h
  obtain ⟨⟨b1, b2, b3, b4, b5, b6, b7, b8⟩, b9, b10, b11⟩ := k
  exact ⟨⟨b1.trans a1, b2.trans a2, b3.trans a3, b4.trans a4, b5.trans a5, b6.trans a6, b7.trans a7, b8.trans a8⟩, b9.trans a9,
    b10.trans a10, b11.trans a11⟩

/-- A change of the engine, the bus, the slots, the lanes or the link alone. -/
theorem engineOnly_of (s : State) (b : Bus) (sl : Vector Slot 4) (l : Vector LaneRecord 4) (e : Engine) (k : Link) :
    s.engineOnly { s with bus := b, slots := sl, lanes := l, engine := e, link := k } :=
  ⟨⟨rfl, rfl, rfl, rfl, rfl, rfl, rfl, rfl⟩, rfl, rfl, rfl⟩

theorem latch_engineOnly (n : Notice) (s : State) : s.engineOnly (s.latch n) := engineOnly_of s ..
theorem respond_engineOnly (x : Status) (k : Byte) (a : Answer) (s : State) : s.engineOnly (s.respond x k a) := engineOnly_of s ..
theorem occupy_engineOnly (a : Activity) (s : State) : s.engineOnly (s.occupy a) := engineOnly_of s ..
theorem setOwed_engineOnly (l : Fin 4) (b : Bool) (s : State) : s.engineOnly (s.setOwed l b) := engineOnly_of s ..
theorem setJob_engineOnly (n : Nat) (j : JobState) (s : State) : s.engineOnly (s.setJob n j) := engineOnly_of s ..
theorem freeBus_engineOnly (s : State) : s.engineOnly s.freeBus := engineOnly_of s ..
theorem requestBench_engineOnly (s : State) : s.engineOnly s.requestBench := engineOnly_of s ..

theorem unbind_engineOnly (op : Operation) (s : State) : s.engineOnly (s.unbind op) := by
  unfold State.unbind; split
  · exact engineOnly_of s ..
  · exact engineOnly_refl s

theorem endJob_engineOnly (j : Job) (c : Completion) (s : State) : s.engineOnly (s.endJob j c) := by
  unfold State.endJob
  refine engineOnly_trans ?_ (latch_engineOnly _ _)
  refine engineOnly_trans ?_ (unbind_engineOnly _ _)
  exact engineOnly_of s ..

/-- Which completions carry a CRC that the operation's own end did not give: those of SUM, and that of no byte where it never read (R178; log 46). -/
theorem sumCrc_eq (op : Operation) (register : Crc) : op.sumCrc register = if op = .sum then some (~~~register) else none := by cases op <;> rfl
theorem sumCrc_start (op : Operation) : op.sumCrc crcStart = if op = .sum then some 0 else none := by cases op <;> rfl

/-- Counting a byte changes the CRC register alone, and that only while the job reads its range. -/
theorem countRead_eq (data : Byte) (a : Active) :
    a.countRead data = { a with crc := if a.phase = .reading then crcByte a.crc data else a.crc } := by unfold Active.countRead; split <;> rfl

theorem finishJob_engineOnly (j : Job) (a : Active) (o : JobOutcome) (r : Option Nat) (e d : Option Byte) (c : Option Crc) (s : State) :
    s.engineOnly (s.finishJob j a o r e d c) := endJob_engineOnly ..

theorem cancel_engineOnly (j : Job) (s : State) : s.engineOnly (s.cancel j) := endJob_engineOnly ..

theorem cancelFold_engineOnly (l : List Job) (s : State) : s.engineOnly (l.foldl (fun t j => t.cancel j) s) := by
  induction l generalizing s with
  | nil => exact engineOnly_refl s
  | cons j l ih => exact engineOnly_trans (cancel_engineOnly j s) (ih _)

theorem cancelAll_engineOnly (s : State) : s.engineOnly s.cancelAll := cancelFold_engineOnly ..

theorem askBoard_engineOnly (j : Job) (a : Active) (l : List Access) (s : State) : s.engineOnly (s.askBoard j a l) := engineOnly_of s ..

theorem programDone_engineOnly (j : Job) (a : Active) (s : State) : s.engineOnly (s.programDone j a) := by
  unfold State.programDone; split
  · exact askBoard_engineOnly ..
  · exact finishJob_engineOnly ..

theorem programStep_engineOnly (j : Job) (a : Active) (p : Profile) (f : FlashPart) (s : State) : s.engineOnly (s.programStep j a p f) := by
  unfold State.programStep; dsimp only; split
  · exact programDone_engineOnly ..
  · split <;> exact askBoard_engineOnly ..

theorem ramStep_engineOnly (j : Job) (a : Active) (s : State) : s.engineOnly (s.ramStep j a) := by
  unfold State.ramStep; split
  · exact programDone_engineOnly ..
  · exact askBoard_engineOnly ..

theorem eraseStep_engineOnly (j : Job) (a : Active) (p : Profile) (f : FlashPart) (s : State) : s.engineOnly (s.eraseStep j a p f) := by
  unfold State.eraseStep; split <;> exact askBoard_engineOnly ..

theorem eraseDone_engineOnly (j : Job) (a : Active) (p : Profile) (f : FlashPart) (s : State) : s.engineOnly (s.eraseDone j a p f) := by
  unfold State.eraseDone; split
  · split
    · exact eraseStep_engineOnly ..
    · exact finishJob_engineOnly ..
  · exact finishJob_engineOnly ..

theorem pollAgain_engineOnly (j : Job) (a : Active) (f : FlashPart) (n : Stamp) (s : State) : s.engineOnly (s.pollAgain j a f n) := by
  unfold State.pollAgain; split
  · exact askBoard_engineOnly ..
  · exact askBoard_engineOnly ..
  · exact setJob_engineOnly ..

theorem pollDone_engineOnly (j : Job) (a : Active) (p : Profile) (f : FlashPart) (s : State) : s.engineOnly (s.pollDone j a p f) := by
  unfold State.pollDone; split
  · exact askBoard_engineOnly ..
  · exact eraseDone_engineOnly ..

theorem timeOut_engineOnly (j : Job) (a : Active) (p : Profile) (f : FlashPart) (s : State) : s.engineOnly (s.timeOut j a p f) :=
  askBoard_engineOnly ..

theorem pollBusy_engineOnly (j : Job) (a : Active) (p : Profile) (f : FlashPart) (n : Stamp) (s : State) :
    s.engineOnly (s.pollBusy j a p f n) := by
  unfold State.pollBusy; split
  · exact timeOut_engineOnly ..
  · exact pollAgain_engineOnly ..

theorem readingDone_engineOnly (j : Job) (a : Active) (s : State) : s.engineOnly (s.readingDone j a) := by
  unfold State.readingDone
  repeat' split
  all_goals exact finishJob_engineOnly ..

theorem nextRead_engineOnly (j : Job) (a : Active) (s : State) : s.engineOnly (s.nextRead j a) := by
  unfold State.nextRead; split
  · exact readingDone_engineOnly ..
  · exact askBoard_engineOnly ..

theorem readByteDone_engineOnly (j : Job) (a : Active) (p : Profile) (d : Byte) (s : State) : s.engineOnly (s.readByteDone j a p d) := by
  unfold State.readByteDone; dsimp only
  repeat' split
  all_goals first
    | with_reducible exact nextRead_engineOnly ..
    | with_reducible exact readingDone_engineOnly ..
    | with_reducible exact askBoard_engineOnly ..
    | with_reducible exact finishJob_engineOnly ..

theorem retryDone_engineOnly (j : Job) (a : Active) (x : Byte) (n : Nat) (b : Bool) (d : Byte) (s : State) :
    s.engineOnly (s.retryDone j a x n b d) := by
  unfold State.retryDone; dsimp only
  repeat' split
  all_goals first
    | with_reducible exact nextRead_engineOnly ..
    | with_reducible exact askBoard_engineOnly ..

theorem beginWork_engineOnly (j : Job) (a : Active) (p : Profile) (s : State) : s.engineOnly (s.beginWork j a p) := by
  unfold State.beginWork
  repeat' split
  all_goals first
    | with_reducible exact eraseStep_engineOnly ..
    | with_reducible exact programStep_engineOnly ..
    | with_reducible exact ramStep_engineOnly ..
    | with_reducible exact askBoard_engineOnly ..
    | with_reducible exact engineOnly_refl ..

theorem finishAbort_engineOnly (j : Job) (a : Active) (s : State) : s.engineOnly (s.finishAbort j a) :=
  engineOnly_trans (engineOnly_trans (finishJob_engineOnly j a _ _ _ _ _ s) (cancelAll_engineOnly _)) (respond_engineOnly _ _ _ _)

theorem abortReset_engineOnly (j : Job) (a : Active) (p : Profile) (s : State) : s.engineOnly (s.abortReset j a p) := by
  unfold State.abortReset; split
  · split
    · exact engineOnly_trans (setOwed_engineOnly _ _ s) (finishAbort_engineOnly ..)
    · exact askBoard_engineOnly ..
  · exact finishAbort_engineOnly ..

theorem flashPhaseEnd_engineOnly (j : Job) (a : Active) (p : Profile) (f : FlashPart) (d : Byte) (s : State) :
    s.engineOnly (s.flashPhaseEnd j a p f d) := by
  unfold State.flashPhaseEnd; dsimp only
  repeat' split
  all_goals first
    | with_reducible exact engineOnly_refl ..
    | with_reducible exact beginWork_engineOnly ..
    | with_reducible exact finishJob_engineOnly ..
    | with_reducible exact askBoard_engineOnly ..
    | with_reducible exact pollAgain_engineOnly ..
    | with_reducible exact pollDone_engineOnly ..
    | with_reducible exact pollBusy_engineOnly ..
    | with_reducible exact programStep_engineOnly ..
    | with_reducible exact finishAbort_engineOnly ..

theorem phaseEnd_engineOnly (j : Job) (a : Active) (p : Profile) (d : Byte) (s : State) : s.engineOnly (s.phaseEnd j a p d) := by
  unfold State.phaseEnd; dsimp only
  repeat' split
  all_goals first
    | with_reducible exact engineOnly_refl ..
    | with_reducible exact finishJob_engineOnly ..
    | with_reducible exact askBoard_engineOnly ..
    | with_reducible exact ramStep_engineOnly ..
    | with_reducible exact readByteDone_engineOnly ..
    | with_reducible exact retryDone_engineOnly ..
    | with_reducible exact flashPhaseEnd_engineOnly ..

/-- The end of an engine access touches the engine, the arbiter, the slots, the lanes and the link alone. -/
theorem engineAccessEnd_engineOnly (d : Byte) (s : State) : s.engineOnly (s.engineAccessEnd d) := by
  unfold State.engineAccessEnd; dsimp only
  repeat' split
  all_goals first
    | with_reducible exact engineOnly_refl ..
    | with_reducible exact abortReset_engineOnly ..
    | with_reducible exact phaseEnd_engineOnly ..
    | with_reducible exact engineOnly_trans (setOwed_engineOnly _ _ s) (abortReset_engineOnly ..)
    | with_reducible exact engineOnly_trans (setOwed_engineOnly _ _ s) (phaseEnd_engineOnly ..)

theorem finishTransfer_engineOnly (t : Transfer) (s : State) : s.engineOnly (s.finishTransfer t) := by
  unfold State.finishTransfer; split <;> exact respond_engineOnly ..

theorem cutTransfer_engineOnly (cut : TransferByte → Bool) (s : State) : s.engineOnly (s.cutTransfer cut) := by
  unfold State.cutTransfer; dsimp only
  repeat' split
  all_goals first
    | with_reducible exact engineOnly_refl ..
    | with_reducible exact occupy_engineOnly ..
    | with_reducible exact engineOnly_trans (engineOnly_of s ..) (finishTransfer_engineOnly ..)

theorem startJob_engineOnly (j : Job) (s : State) : s.engineOnly (s.startJob j) := by
  have h1 : ∀ cut, s.engineOnly ((s.setJob j.number (.active (j.startWork s.timeBase))).cutTransfer cut) := fun cut =>
    engineOnly_trans (setJob_engineOnly ..) (cutTransfer_engineOnly ..)
  unfold State.startJob; dsimp only
  split
  · exact setJob_engineOnly ..
  · rename_i p _
    have h2 : s.engineOnly (if j.op.writeClass then
        (s.setJob j.number (.active (j.startWork s.timeBase))).cutTransfer (fun b => b.boardBound && p.inRange b.address)
        else s.setJob j.number (.active (j.startWork s.timeBase))) := by
      split
      · exact h1 _
      · exact setJob_engineOnly ..
    generalize (if j.op.writeClass then
        (s.setJob j.number (.active (j.startWork s.timeBase))).cutTransfer (fun b => b.boardBound && p.inRange b.address)
        else s.setJob j.number (.active (j.startWork s.timeBase))) = u at h2 ⊢
    refine engineOnly_trans h2 ?_
    repeat' split
    all_goals first
      | with_reducible exact finishJob_engineOnly ..
      | with_reducible exact askBoard_engineOnly ..
      | with_reducible exact beginWork_engineOnly ..

theorem judgeOnce_engineOnly (s : State) : s.engineOnly s.judgeOnce := by
  unfold State.judgeOnce
  repeat' split
  all_goals first
    | with_reducible exact engineOnly_refl ..
    | with_reducible exact startJob_engineOnly ..
    | with_reducible exact setJob_engineOnly ..

theorem judgeTimes_engineOnly (n : Nat) (s : State) : s.engineOnly (s.judgeTimes n) := by
  induction n generalizing s with
  | zero => exact engineOnly_refl s
  | succ n ih => exact engineOnly_trans (judgeOnce_engineOnly s) (ih _)

theorem judgeStart_engineOnly (s : State) : s.engineOnly s.judgeStart := judgeTimes_engineOnly ..

theorem settleAbort_engineOnly (s : State) : s.engineOnly s.settleAbort := by
  unfold State.settleAbort
  repeat' split
  all_goals first
    | with_reducible exact engineOnly_refl ..
    | with_reducible exact engineOnly_trans (engineOnly_trans (engineOnly_of s ..) (setOwed_engineOnly ..)) (finishAbort_engineOnly ..)

theorem arbitrate_engineOnly (s : State) : s.engineOnly s.arbitrate := by
  unfold State.arbitrate
  repeat' split
  all_goals with_reducible exact engineOnly_refl ..

/-- What follows a change of conditions touches the engine, the arbiter, the slots, the lanes and the link alone. -/
theorem settle_engineOnly (s : State) : s.engineOnly s.settle :=
  engineOnly_trans (engineOnly_trans (judgeStart_engineOnly s) (settleAbort_engineOnly _)) (arbitrate_engineOnly _)

theorem jobPowerLost_engineOnly (s : State) : s.engineOnly s.jobPowerLost := by
  unfold State.jobPowerLost; dsimp only
  repeat' split
  all_goals first
    | with_reducible exact engineOnly_refl ..
    | with_reducible exact finishJob_engineOnly ..
    | with_reducible exact engineOnly_trans (engineOnly_trans (finishJob_engineOnly ..) (cancelAll_engineOnly _)) (respond_engineOnly _ _ _ _)

@[simp] theorem settle_port (s : State) : s.settle.port = s.port := (settle_engineOnly s).2.1
@[simp] theorem settle_run (s : State) : s.settle.run = s.run := (settle_engineOnly s).2.2.1
@[simp] theorem settle_trace (s : State) : s.settle.trace = s.trace := (settle_engineOnly s).2.2.2
@[simp] theorem settle_windows (s : State) : s.settle.windows = s.windows := (settle_engineOnly s).1.1
@[simp] theorem settle_floatByte (s : State) : s.settle.floatByte = s.floatByte := (settle_engineOnly s).1.2.1
@[simp] theorem settle_overlay (s : State) : s.settle.overlay = s.overlay := (settle_engineOnly s).1.2.2.1
@[simp] theorem settle_watch (s : State) : s.settle.watch = s.watch := (settle_engineOnly s).1.2.2.2.1
@[simp] theorem settle_probes (s : State) : s.settle.probes = s.probes := (settle_engineOnly s).1.2.2.2.2.1
@[simp] theorem settle_timeBase (s : State) : s.settle.timeBase = s.timeBase := (settle_engineOnly s).1.2.2.2.2.2.1
@[simp] theorem settle_pending (s : State) : s.settle.pending = s.pending := (settle_engineOnly s).1.2.2.2.2.2.2.1
@[simp] theorem settle_freeIndex (s : State) : s.settle.freeIndex = s.freeIndex := (settle_engineOnly s).1.2.2.2.2.2.2.2

end Sys2Proof.Machine
end

