-- ==== Sys2Proof/Laws/Mem.lean ====
section
/-! SUPPORT. Overlay memory: every operation on the cells keeps the canonical form, and what a read gives after it; the logical map. -/

namespace Sys2Proof.Machine

/-! ### The cells -/

@[simp] theorem Mem.read_nil (a : Nat) : Mem.read [] a = 0xFF#8 := rfl

theorem Mem.wf_nil : Mem.wf [] := by simp [Mem.wf]

theorem Mem.wf_tail {c : Host.Cell} {rest : List Host.Cell} (h : Mem.wf (c :: rest)) : Mem.wf rest :=
  ⟨h.1.of_cons, fun p hp => h.2 p (List.mem_cons_of_mem _ hp)⟩

/-- An address below every listed one reads as the blank byte. -/
theorem Mem.read_below {cells : List Host.Cell} {a : Nat} (h : ∀ p ∈ cells, a < p.1) : Mem.read cells a = Config.blankByte := by
  induction cells with
  | nil => rfl
  | cons c rest ih =>
    have hc := h c List.mem_cons_self
    simp only [Mem.read, if_neg (Nat.ne_of_gt hc)]
    exact ih (fun p hp => h p (List.mem_cons_of_mem _ hp))

/-- The keys after a write are the old ones and, perhaps, the address written. -/
theorem Mem.mem_write {cells : List Host.Cell} {a : Nat} {b : Byte} {p : Host.Cell} (h : p ∈ Mem.write cells a b) : p ∈ cells ∨ p = (a, b) := by
  induction cells with
  | nil => simp only [Mem.write] at h; split at h <;> simp_all
  | cons c rest ih =>
    obtain ⟨k, v⟩ := c
    simp only [Mem.write] at h
    split at h
    · split at h <;> simp_all; tauto
    · split at h
      · split at h <;> simp_all; tauto
      · rcases List.mem_cons.1 h with rfl | h
        · simp
        · rcases ih h with h | rfl <;> simp_all

/-- A write keeps the canonical form. -/
theorem Mem.wf_write {cells : List Host.Cell} (h : Mem.wf cells) (a : Nat) (b : Byte) : Mem.wf (Mem.write cells a b) := by
  refine ⟨?_, ?_⟩
  · induction cells with
    | nil => simp only [Mem.write]; split <;> simp
    | cons c rest ih =>
      obtain ⟨k, v⟩ := c
      have hr := List.pairwise_cons.1 h.1
      simp only [Mem.write]
      split
      · split
        · exact h.1
        · refine List.pairwise_cons.2 ⟨fun p hp => ?_, h.1⟩
          rcases List.mem_cons.1 hp with rfl | hp
          · assumption
          · exact Nat.lt_trans ‹_› (hr.1 p hp)
      · split
        · subst k
          split
          · exact hr.2
          · exact List.pairwise_cons.2 ⟨fun p hp => hr.1 p hp, hr.2⟩
        · refine List.pairwise_cons.2 ⟨fun p hp => ?_, ih (Mem.wf_tail h)⟩
          rcases Mem.mem_write hp with hp | rfl
          · exact hr.1 p hp
          · simp only; omega
  · intro p hp
    by_cases hb : b = Config.blankByte
    · have : ∀ q ∈ Mem.write cells a b, q ∈ cells := by
        clear hp
        induction cells with
        | nil => simp [Mem.write, hb]
        | cons c rest ih =>
          obtain ⟨k, v⟩ := c
          intro q hq
          simp only [Mem.write, hb, if_true] at hq
          split at hq
          · exact hq
          · split at hq
            · exact List.mem_cons_of_mem _ hq
            · rcases List.mem_cons.1 hq with rfl | hq
              · simp
              · exact List.mem_cons_of_mem _ (ih (Mem.wf_tail h) q (hb ▸ hq))
      exact h.2 p (this p hp)
    · rcases Mem.mem_write hp with hp | rfl
      · exact h.2 p hp
      · exact hb

/-- What a read gives after a write. -/
theorem Mem.read_write {cells : List Host.Cell} (h : Mem.wf cells) (a : Nat) (b : Byte) (x : Nat) :
    Mem.read (Mem.write cells a b) x = if x = a then b else Mem.read cells x := by
  induction cells with
  | nil =>
    simp only [Mem.write]
    split <;> rename_i hb
    · by_cases hx : x = a <;> simp [Mem.read, hx, hb]
    · by_cases hx : x = a <;> simp [Mem.read, hx, Ne.symm]
  | cons c rest ih =>
    obtain ⟨k, v⟩ := c
    have hr := List.pairwise_cons.1 h.1
    have below : ∀ y, y ≤ k → Mem.read rest y = Config.blankByte := fun y hy =>
      Mem.read_below (fun p hp => Nat.lt_of_le_of_lt hy (hr.1 p hp))
    simp only [Mem.write]
    split <;> rename_i hlt
    · split <;> rename_i hb
      · by_cases hx : x = a
        · subst hx; simp [Mem.read, Nat.ne_of_gt hlt, below x (Nat.le_of_lt hlt), hb]
        · simp [hx]
      · by_cases hx : x = a
        · simp [Mem.read, hx]
        · simp [Mem.read, hx, Ne.symm hx]
    · split <;> rename_i heq
      · subst heq
        split <;> rename_i hb
        · by_cases hx : x = a
          · subst hx; simp [below x (Nat.le_refl _), hb]
          · simp [Mem.read, hx, Ne.symm hx]
        · by_cases hx : x = a
          · simp [Mem.read, hx]
          · simp [Mem.read, hx, Ne.symm hx]
      · by_cases hk : k = x
        · subst hk; simp [Mem.read, Ne.symm heq]
        · simp [Mem.read, hk, ih (Mem.wf_tail h)]

/-- A fill keeps the canonical form. -/
theorem Mem.wf_fillTo {cells : List Host.Cell} (h : Mem.wf cells) (last : Nat) : Mem.wf (Mem.fillTo last cells) :=
  ⟨h.1.filter _, fun p hp => h.2 p (List.mem_filter.1 hp).1⟩

/-- What a read gives after a fill: the pages filled read blank, the others as before. -/
theorem Mem.read_fillTo (last : Nat) (cells : List Host.Cell) (a : Nat) :
    Mem.read (Mem.fillTo last cells) a = if a / 256 ≤ last then 0xFF#8 else Mem.read cells a := by
  induction cells with
  | nil => simp [Mem.fillTo]
  | cons c rest ih =>
    obtain ⟨k, v⟩ := c
    simp only [Mem.fillTo, List.filter_cons] at ih ⊢
    by_cases hk : last < k / Config.pageSize
    · simp only [hk, decide_true, if_true, Mem.read]
      by_cases ha : k = a
      · subst ha
        have : ¬ k / 256 ≤ last := by simp only [Config.pageSize] at hk; omega
        simp [this]
      · simp [ha, ih]
    · simp only [hk, decide_false, Bool.false_eq_true, if_false, ih, Mem.read]
      split
      · rfl
      · have : k ≠ a := by
          rintro rfl; simp only [Config.pageSize] at hk; omega
        simp [this]

/-- Two memories in canonical form that read alike are the same data. -/
theorem Mem.ext {p q : List Host.Cell} (hp : Mem.wf p) (hq : Mem.wf q) (h : ∀ a, Mem.read p a = Mem.read q a) : p = q := by
  induction p generalizing q with
  | nil =>
    cases q with
    | nil => rfl
    | cons c rest =>
      have := h c.1
      simp only [Mem.read, if_true] at this
      exact absurd this.symm (hq.2 c List.mem_cons_self)
  | cons c rest ih =>
    obtain ⟨k, v⟩ := c
    have hr := List.pairwise_cons.1 hp.1
    cases q with
    | nil =>
      have := h k
      simp only [Mem.read, if_true] at this
      exact absurd this (hp.2 (k, v) List.mem_cons_self)
    | cons d rest' =>
      obtain ⟨k', v'⟩ := d
      have hr' := List.pairwise_cons.1 hq.1
      have blank : ∀ y, y ≤ k → Mem.read rest y = Config.blankByte := fun y hy =>
        Mem.read_below (fun p hp => Nat.lt_of_le_of_lt hy (hr.1 p hp))
      have blank' : ∀ y, y ≤ k' → Mem.read rest' y = Config.blankByte := fun y hy =>
        Mem.read_below (fun p hp => Nat.lt_of_le_of_lt hy (hr'.1 p hp))
      have hk : k = k' := by
        by_contra hne
        rcases Nat.lt_or_gt_of_ne hne with hlt | hlt
        · have := h k
          simp only [Mem.read, if_true, if_neg (Nat.ne_of_gt hlt), blank' k (Nat.le_of_lt hlt)] at this
          exact hp.2 (k, v) List.mem_cons_self this
        · have := h k'
          simp only [Mem.read, if_true, if_neg (Nat.ne_of_gt hlt), blank k' (Nat.le_of_lt hlt)] at this
          exact hq.2 (k', v') List.mem_cons_self this.symm
      subst hk
      have hv : v = v' := by simpa [Mem.read] using h k
      subst hv
      refine congrArg _ (ih (Mem.wf_tail hp) (Mem.wf_tail hq) (fun a => ?_))
      by_cases ha : k = a
      · subst ha; rw [blank k (Nat.le_refl _), blank' k (Nat.le_refl _)]
      · simpa [Mem.read, ha] using h a

/-! ### The two ports -/

/-- A byte write through a port keeps the canonical form, the repair list and the survey. -/
theorem Overlay.writeByte_keeps (o : Overlay) (l : Location) (b : Byte) :
    (Mem.wf o.cells → Mem.wf (o.writeByte l b).cells) ∧ (o.writeByte l b).repairList = o.repairList ∧ (o.writeByte l b).survey = o.survey := by
  unfold Overlay.writeByte
  split
  · exact ⟨fun h => Mem.wf_write h _ _, rfl, rfl⟩
  · exact ⟨id, rfl, rfl⟩

/-- What the port reads after a byte write to a location that has a page. -/
theorem Overlay.writeByte_read {o : Overlay} (h : Mem.wf o.cells) {l : Location} {p : Nat} (hp : o.physicalPage l.page = some p) (b : Byte) (a : Nat) :
    Mem.read (o.writeByte l b).cells a = if a = p * 256 + l.offset then b else Mem.read o.cells a := by
  simp [Overlay.writeByte, Overlay.cellOf, hp, Mem.read_write h, Config.pageSize]

@[simp] theorem Overlay.writeByte_capacity (o : Overlay) (l : Location) (b : Byte) : (o.writeByte l b).capacity = o.capacity := by
  simp [Overlay.capacity, (o.writeByte_keeps l b).2.1]

@[simp] theorem Overlay.writeByte_maps (o : Overlay) (l k : Location) (b : Byte) : (o.writeByte l b).maps k = o.maps k := by
  simp [Overlay.maps]

@[simp] theorem Overlay.writeByte_physicalPage (o : Overlay) (l : Location) (b : Byte) (k : Nat) :
    (o.writeByte l b).physicalPage k = o.physicalPage k := by
  simp [Overlay.physicalPage, (o.writeByte_keeps l b).2.1]

/-! ### The logical map -/

theorem Overlay.capacity_le (o : Overlay) : o.capacity ≤ 256 := Nat.min_le_left ..

theorem Overlay.physicalPage_eq_none (o : Overlay) (k : Nat) : o.physicalPage k = none ↔ o.capacity ≤ k := by
  unfold Overlay.physicalPage
  split <;> rename_i h
  · have : k < (goodPages o.repairList).length := Nat.lt_of_lt_of_le h (Nat.min_le_right ..)
    simp [this, h]
  · simp only [true_iff]; omega

theorem mem_goodPages {l : List Nat} {p : Nat} : p ∈ goodPages l ↔ p < 272 ∧ p ∉ l := by
  simp [goodPages, Config.physicalPages]

theorem goodPages_sorted (l : List Nat) : (goodPages l).Pairwise (· < ·) := (List.pairwise_lt_range).filter _

theorem Overlay.physicalPage_good {o : Overlay} {k p : Nat} (h : o.physicalPage k = some p) : p < 272 ∧ p ∉ o.repairList := by
  unfold Overlay.physicalPage at h
  split at h
  · exact mem_goodPages.1 (List.mem_of_getElem? h)
  · cases h

/-- The list a survey builds: ascending, none twice, exactly the pages of which a byte read back differs from the byte written (R49). -/
theorem surveyList_spec (readBacks : List ReadBack) : (surveyList readBacks).Pairwise (· < ·) ∧
    ∀ p, p ∈ surveyList readBacks ↔ p < 272 ∧ ∃ r ∈ readBacks, r.page = p ∧ r.offset < 256 ∧ r.byte ≠ surveyPattern r.second r.offset :=
  ⟨(List.pairwise_lt_range).filter _, fun p => by
    simp only [surveyList, pageFails, readBackDiffers, List.mem_filter, List.mem_range, List.any_eq_true, Bool.and_eq_true, decide_eq_true_eq]
    exact Iff.rfl⟩

/-- With all pages listed, as during the power-on survey, the capacity is 0 (R47, R50). -/
theorem Overlay.capacity_allListed {o : Overlay} (h : o.repairList = List.range 272) : o.capacity = 0 := by
  have : goodPages o.repairList = [] := List.filter_eq_nil_iff.2 (fun p hp => by
    simp only [Config.physicalPages, List.mem_range] at hp
    simp [h, hp])
  simp [Overlay.capacity, this]

end Sys2Proof.Machine
end

