-- ==== Sys2Proof/Laws/Cycle.lean ====
section
/-! SUPPORT. What the operations on a cycle, on a hold and on a claim keep, whatever else they do: the tables, the clock, the engine, the queue of commands, the
form of overlay memory and of the Trace Store. One lemma for each operation. -/

namespace Sys2Proof.Machine

/-- What no course of a cycle, no hold and no claim changes, and the forms that they keep. -/
structure State.cycleKeeps (s t : State) : Prop where
  windows : t.windows = s.windows
  floatByte : t.floatByte = s.floatByte
  probes : t.probes = s.probes
  timeBase : t.timeBase = s.timeBase
  slots : t.slots = s.slots
  lanes : t.lanes = s.lanes
  engine : t.engine = s.engine
  pending : t.pending = s.pending
  freeIndex : t.freeIndex = s.freeIndex
  repairList : t.overlay.repairList = s.overlay.repairList
  survey : t.overlay.survey = s.overlay.survey
  memoryWf : s.memoryWf → t.memoryWf
  traceConsecutive : s.traceConsecutive → t.traceConsecutive

namespace State.cycleKeeps

theorem keepsRefl (s : State) : s.cycleKeeps s := ⟨rfl, rfl, rfl, rfl, rfl, rfl, rfl, rfl, rfl, rfl, rfl, id, id⟩

theorem keepsTrans {s t u : State} (h : s.cycleKeeps t) (k : t.cycleKeeps u) : s.cycleKeeps u where
  windows := k.windows.trans h.windows
  floatByte := k.floatByte.trans h.floatByte
  probes := k.probes.trans h.probes
  timeBase := k.timeBase.trans h.timeBase
  slots := k.slots.trans h.slots
  lanes := k.lanes.trans h.lanes
  engine := k.engine.trans h.engine
  pending := k.pending.trans h.pending
  freeIndex := k.freeIndex.trans h.freeIndex
  repairList := k.repairList.trans h.repairList
  survey := k.survey.trans h.survey
  memoryWf := fun w => k.memoryWf (h.memoryWf w)
  traceConsecutive := fun w => k.traceConsecutive (h.traceConsecutive w)

/-- An update of the port, the watch units, run control, the bus and the link. -/
theorem keepsOf (s : State) (p : Port) (w : Vector WatchUnit 4) (r : RunControl) (b : Bus) (l : Link) :
    s.cycleKeeps { s with port := p, watch := w, run := r, bus := b, link := l } := ⟨rfl, rfl, rfl, rfl, rfl, rfl, rfl, rfl, rfl, rfl, rfl, id, id⟩

end State.cycleKeeps

open State.cycleKeeps

/-! ### The parts -/

theorem latch_cycleKeeps (n : Notice) (s : State) : s.cycleKeeps (s.latch n) := keepsOf s ..
theorem respond_cycleKeeps (x : Status) (k : Byte) (a : Answer) (s : State) : s.cycleKeeps (s.respond x k a) := keepsOf s ..
theorem setHold_cycleKeeps (h : HoldState) (s : State) : s.cycleKeeps (s.setHold h) := keepsOf s ..
theorem enterClaim_cycleKeeps (r : Raise) (s : State) : s.cycleKeeps (s.enterClaim r) := keepsOf s ..
theorem clearCycle_cycleKeeps (s : State) : s.cycleKeeps s.clearCycle := keepsOf s ..

theorem offer_cycleKeeps (b : RecordBody) (sent : Bool) (stamp : Stamp) (s : State) : s.cycleKeeps (s.offer b sent stamp) :=
  ⟨by simp, by simp, by simp, by simp, by simp, by simp, by simp, by simp, by simp, by simp, by simp, fun h => by simpa [State.memoryWf] using h,
   fun h => offer_traceConsecutive h ..⟩

theorem mark_cycleKeeps (b : RecordBody) (s : State) : s.cycleKeeps (s.mark b) := offer_cycleKeeps ..

theorem traceStart_cycleKeeps (s : State) : s.cycleKeeps s.traceStart := by
  unfold State.traceStart; split
  · exact ⟨rfl, rfl, rfl, rfl, rfl, rfl, rfl, rfl, rfl, rfl, rfl, id, id⟩
  · exact keepsRefl s

theorem traceStop_cycleKeeps (s : State) : s.cycleKeeps s.traceStop := by
  unfold State.traceStop; repeat' split
  · exact ⟨rfl, rfl, rfl, rfl, rfl, rfl, rfl, rfl, rfl, rfl, rfl, id, id⟩
  · exact ⟨rfl, rfl, rfl, rfl, rfl, rfl, rfl, rfl, rfl, rfl, rfl, id, id⟩
  · exact keepsRefl s

/-- A byte written at overlay memory keeps its form, the repair list and the survey (R46, R48). -/
theorem writeByte_cycleKeeps (l : Location) (b : Byte) (s : State) : s.cycleKeeps { s with overlay := s.overlay.writeByte l b } :=
  ⟨rfl, rfl, rfl, rfl, rfl, rfl, rfl, rfl, rfl, (s.overlay.writeByte_keeps l b).2.1, (s.overlay.writeByte_keeps l b).2.2,
   (s.overlay.writeByte_keeps l b).1, id⟩

theorem arbitrate_cycleKeeps (s : State) : s.cycleKeeps s.arbitrate := by
  unfold State.arbitrate; repeat' split
  all_goals first | exact keepsRefl s | exact keepsOf s ..

theorem armOrMiss_cycleKeeps (s : State) : s.cycleKeeps s.armOrMiss := by
  unfold State.armOrMiss; split
  · exact setHold_cycleKeeps ..
  · exact latch_cycleKeeps ..

theorem actOnClaim_cycleKeeps (source : Source) (s : State) : s.cycleKeeps (s.actOnClaim source) := by
  unfold State.actOnClaim; repeat' split
  all_goals first
    | with_reducible exact keepsRefl s
    | with_reducible exact armOrMiss_cycleKeeps s
    | with_reducible exact setHold_cycleKeeps ..

/-! ### Records, completion, abandonment -/

theorem recordCycle_cycleKeeps (c : Cycle) (abandoned : Bool) (s : State) : s.cycleKeeps (s.recordCycle c abandoned).1 := by
  unfold State.recordCycle; dsimp only; split
  · exact keepsTrans (offer_cycleKeeps ..) (traceStop_cycleKeeps _)
  · exact offer_cycleKeeps ..

theorem answerInjected_cycleKeeps (c : Cycle) (abandoned : Bool) (d : Delivery) (s : State) : s.cycleKeeps (s.answerInjected c abandoned d) := by
  unfold State.answerInjected State.answerInject; repeat' split
  all_goals first | with_reducible exact keepsRefl s | with_reducible exact respond_cycleKeeps ..

theorem fireAtDelivery_cycleKeeps (i : Fin 4) (a : Actions) (address : Nat) (p : Evaluation × State) :
    p.2.cycleKeeps (fireAtDelivery i a address p).2 := by
  obtain ⟨e, s⟩ := p
  have h : s.cycleKeeps (match a.hold with
      | some level => (s.enterClaim (watchRaise i level address)).actOnClaim (.watch i)
      | none => s) := by
    split
    · exact keepsTrans (enterClaim_cycleKeeps ..) (actOnClaim_cycleKeeps ..)
    · exact keepsRefl s
  unfold fireAtDelivery; dsimp only
  cases hh : a.hold <;> simp only [hh] at h ⊢ <;> split
  all_goals first | exact keepsTrans h (latch_cycleKeeps ..) | exact h

theorem deliverUnit_cycleKeeps (data : Byte) (address : Nat) (p : Evaluation × State) (i : Fin 4) :
    p.2.cycleKeeps (deliverUnit data address p i).2 := by
  unfold deliverUnit; dsimp only
  repeat' split
  all_goals first
    | with_reducible exact keepsRefl _
    | exact keepsTrans (keepsOf p.2 p.2.port _ p.2.run p.2.bus p.2.link) (fireAtDelivery_cycleKeeps _ _ _ (_, _))
    | exact keepsOf p.2 p.2.port _ p.2.run p.2.bus p.2.link

theorem readDataEvaluate_cycleKeeps (data : Byte) (address : Nat) (s : State) : s.cycleKeeps (readDataEvaluate data address s).2 := by
  have fold : ∀ (l : List (Fin 4)) (p : Evaluation × State), p.2.cycleKeeps (l.foldl (deliverUnit data address) p).2 := by
    intro l
    induction l with
    | nil => exact fun p => keepsRefl p.2
    | cons i rest ih => exact fun p => keepsTrans (deliverUnit_cycleKeeps data address p i) (ih _)
  unfold readDataEvaluate; dsimp only
  have h := fold [0, 1, 2, 3] ({ matched := 0, fired := 0, raised := [], start := false, stop := false }, s)
  dsimp only at h
  generalize List.foldl (deliverUnit data address) _ [0, 1, 2, 3] = p at h ⊢
  have k : s.cycleKeeps (if p.1.start then p.2.traceStart else p.2) := by
    split
    · exact keepsTrans h (traceStart_cycleKeeps _)
    · exact h
  generalize (if p.1.start then p.2.traceStart else p.2) = q at k ⊢
  split
  · exact keepsTrans k (traceStop_cycleKeeps _)
  · exact k

theorem driveData_cycleKeeps (c : Cycle) (data : Byte) (s : State) : s.cycleKeeps (s.driveData c data) := by
  unfold State.driveData; split
  · exact keepsRefl s
  · exact keepsOf s ..

theorem completeCycle_cycleKeeps (c : Cycle) (data : Byte) (s : State) : s.cycleKeeps (s.completeCycle c data) := by
  unfold State.completeCycle; dsimp only
  generalize (if c.isWrite then c else { c with readData := some data }) = d
  have h := keepsTrans (keepsTrans (recordCycle_cycleKeeps d false s) (driveData_cycleKeeps d data _)) (clearCycle_cycleKeeps _)
  split
  · exact keepsTrans h (answerInjected_cycleKeeps ..)
  · exact keepsTrans (keepsTrans h (readDataEvaluate_cycleKeeps ..)) (answerInjected_cycleKeeps ..)

theorem abandonCycle_cycleKeeps (s : State) : s.cycleKeeps s.abandonCycle := by
  unfold State.abandonCycle; dsimp only
  repeat' split
  · exact keepsRefl s
  · exact keepsRefl s
  · rename_i c _ _
    refine keepsTrans (keepsTrans (recordCycle_cycleKeeps c true s) ?_) (answerInjected_cycleKeeps ..)
    exact keepsTrans (keepsOf _ _ _ _ _ _) (clearCycle_cycleKeeps _)

/-! ### Performance and the hold decision -/

theorem stretchCycle_cycleKeeps (s : State) : s.cycleKeeps s.stretchCycle := by
  unfold State.stretchCycle; repeat' split
  all_goals first | exact keepsRefl s | exact keepsOf s ..

theorem performAtBoard_cycleKeeps (c : Cycle) (s : State) : s.cycleKeeps (s.performAtBoard c) := by
  have h : s.cycleKeeps (State.requestTarget { s with port := { s.port with inFlight := some { c with phase := .performing } } }).arbitrate :=
    keepsTrans (keepsOf s _ s.watch s.run _ s.link) (arbitrate_cycleKeeps _)
  unfold State.performAtBoard; dsimp only
  split
  · exact h
  · exact keepsTrans h (stretchCycle_cycleKeeps _)

theorem performCycle_cycleKeeps (c : Cycle) (s : State) : s.cycleKeeps (s.performCycle c) := by
  unfold State.performCycle; dsimp only
  split
  all_goals first
    | with_reducible exact performAtBoard_cycleKeeps c s
    | with_reducible exact completeCycle_cycleKeeps c _ s
    | exact keepsTrans (writeByte_cycleKeeps ..) (completeCycle_cycleKeeps ..)
    | exact keepsTrans (writeByte_cycleKeeps ..) (performAtBoard_cycleKeeps ..)

theorem beginHold_cycleKeeps (k : Kind) (address : Nat) (s : State) : s.cycleKeeps (s.beginHold k address) := by
  unfold State.beginHold; dsimp only
  split
  · exact keepsTrans (keepsOf s s.port s.watch _ s.bus _) (mark_cycleKeeps ..)
  · exact keepsOf s s.port s.watch _ s.bus _

theorem endHold_cycleKeeps (cause : EndCause) (s : State) : s.cycleKeeps (s.endHold cause) := by
  unfold State.endHold; dsimp only
  split
  · exact keepsTrans (mark_cycleKeeps ..) (keepsOf _ _ _ _ _ _)
  · exact keepsOf s ..

/-- The end of a hold in one equation: its marker is handed over, the origin and the timer go, the rest of run control stays (R101). -/
theorem endHold_of_origin {o : HoldOrigin} {s : State} (h : s.run.origin = some o) (cause : EndCause) :
    s.endHold cause = { s.offer (.holdEnd o cause) true s.timeBase with run := { s.run with origin := none, timer := none } } := by
  simp [State.endHold, h, State.mark]

theorem holdCycle_cycleKeeps (c : Cycle) (s : State) : s.cycleKeeps (s.holdCycle c) :=
  keepsTrans (beginHold_cycleKeeps c.kind c.address s) (keepsOf _ _ _ _ _ _)

theorem holdDecision_cycleKeeps (c : Cycle) (s : State) : s.cycleKeeps (s.holdDecision c) := by
  have h : ∀ t : State, t.cycleKeeps (match t.run.hold with
      | .running =>
        if t.run.ownLive c.raised then
          if t.holdingPossible then t.holdCycle c else (t.latch .holdMissed).performCycle c
        else t.performCycle c
      | .holdArmed => if t.run.anyHolding || t.run.stepAdmits c.kind then t.holdCycle c else t.performCycle c
      | .holding => t.performCycle c
      | .resetHeld => t.performCycle c
      | .unpowered => t.performCycle c) := by
    intro t
    repeat' split
    all_goals first
      | with_reducible exact holdCycle_cycleKeeps c t
      | with_reducible exact performCycle_cycleKeeps c t
      | exact keepsTrans (latch_cycleKeeps .holdMissed t) (performCycle_cycleKeeps c _)
  unfold State.holdDecision
  by_cases hh : s.run.hold = .holdArmed ∧ s.run.anyLive = false
  · simp only [hh, and_self, if_true]
    exact keepsTrans (setHold_cycleKeeps .running s) (h _)
  · simp only [hh, if_false]
    exact h s

/-! ### Presentation -/

theorem guardWrite_cycleKeeps (level : Option Nat) (c : Cycle) (s : State) : s.cycleKeeps (guardWrite level c s).2 := by
  unfold guardWrite; dsimp only
  split
  · split
    · exact keepsTrans (latch_cycleKeeps ..) (enterClaim_cycleKeeps ..)
    · exact latch_cycleKeeps ..
  · exact keepsRefl s

theorem fireAtEvaluation_cycleKeeps (i : Fin 4) (a : Actions) (p : Cycle × State) : p.2.cycleKeeps (fireAtEvaluation i a p).2 := by
  obtain ⟨c, s⟩ := p
  have n : ∀ t : State, t.cycleKeeps (if a.note then t.latch .note else t) := fun t => by
    split
    · exact latch_cycleKeeps ..
    · exact keepsRefl t
  have m : ∀ t : State, t.cycleKeeps (if a.traceStart then t.traceStart else t) := fun t => by
    split
    · exact traceStart_cycleKeeps t
    · exact keepsRefl t
  unfold fireAtEvaluation; dsimp only
  cases hh : a.hold with
  | none => exact keepsTrans (n s) (m _)
  | some level => exact keepsTrans (keepsTrans (enterClaim_cycleKeeps ..) (n _)) (m _)

theorem evaluateUnit_cycleKeeps (before : Vector WatchUnit 4) (p : Cycle × State) (i : Fin 4) : p.2.cycleKeeps (evaluateUnit before p i).2 := by
  unfold evaluateUnit; dsimp only
  repeat' split
  all_goals first
    | with_reducible exact keepsRefl _
    | exact keepsTrans (keepsOf p.2 p.2.port _ p.2.run p.2.bus p.2.link) (fireAtEvaluation_cycleKeeps _ _ (_, _))
    | exact keepsOf p.2 p.2.port _ p.2.run p.2.bus p.2.link

theorem watchEvaluate_cycleKeeps (c : Cycle) (s : State) : s.cycleKeeps (watchEvaluate c s).2 := by
  have fold : ∀ (l : List (Fin 4)) (p : Cycle × State), p.2.cycleKeeps (l.foldl (evaluateUnit s.watch) p).2 := by
    intro l
    induction l with
    | nil => exact fun p => keepsRefl p.2
    | cons i rest ih => exact fun p => keepsTrans (evaluateUnit_cycleKeeps s.watch p i) (ih _)
  exact fold [0, 1, 2, 3] (c, s)

theorem presentCycle_cycleKeeps (c : Cycle) (s : State) : s.cycleKeeps (s.presentCycle c) := by
  unfold State.presentCycle; dsimp only
  refine keepsTrans (keepsTrans (keepsTrans (t := if c.contention then s.latch .contention else s) ?_ (guardWrite_cycleKeeps ..)) (watchEvaluate_cycleKeeps ..))
    (holdDecision_cycleKeeps ..)
  split
  · exact latch_cycleKeeps ..
  · exact keepsRefl s

/-! ### Ends of a hold, claims, target reset -/

theorem proceedHeld_cycleKeeps (s : State) : s.cycleKeeps s.proceedHeld := by
  unfold State.proceedHeld; split
  · exact performCycle_cycleKeeps ..
  · exact keepsRefl s

theorem substituteHeld_cycleKeeps (byte : Byte) (s : State) : s.cycleKeeps (s.substituteHeld byte) := by
  unfold State.substituteHeld; split
  · exact completeCycle_cycleKeeps ..
  · exact keepsRefl s

theorem endHoldByFloor_cycleKeeps (s : State) : s.cycleKeeps s.endHoldByFloor :=
  keepsTrans (keepsTrans (endHold_cycleKeeps ..) (setHold_cycleKeeps _ _)) (proceedHeld_cycleKeeps _)

theorem raiseClaim_cycleKeeps (r : Raise) (s : State) : s.cycleKeeps (s.raiseClaim r) := by
  unfold State.raiseClaim; dsimp only
  split
  · exact keepsTrans (enterClaim_cycleKeeps ..) (endHoldByFloor_cycleKeeps _)
  · exact keepsTrans (enterClaim_cycleKeeps ..) (actOnClaim_cycleKeeps ..)

theorem cutOff_cycleKeeps (cause : EndCause) (dest : HoldState) (marker : RecordBody) (s : State) : s.cycleKeeps (s.cutOff cause dest marker) := by
  unfold State.cutOff; dsimp only
  refine keepsTrans (keepsTrans (keepsTrans (t := if s.run.hold = .holding then s.endHold cause else s) ?_ (keepsOf _ _ _ _ _ _)) (abandonCycle_cycleKeeps _)) (mark_cycleKeeps ..)
  split
  · exact endHold_cycleKeeps ..
  · exact keepsRefl s

/-! ### Commands that move bytes -/

theorem occupy_cycleKeeps (a : Activity) (s : State) : s.cycleKeeps (s.occupy a) := keepsOf s ..

theorem finishTransfer_cycleKeeps (t : Transfer) (s : State) : s.cycleKeeps (s.finishTransfer t) := by
  unfold State.finishTransfer; split <;> exact respond_cycleKeeps ..

theorem transferWrite_cycleKeeps (b : TransferByte) (s : State) : s.cycleKeeps (s.transferWrite b) := by
  unfold State.transferWrite; split
  · exact writeByte_cycleKeeps ..
  · exact keepsRefl s

/-- Whatever bytes a command makes, overlay memory keeps its form and its repair list. -/
theorem runTransfer_cycleKeeps (bytes : List TransferByte) (t : Transfer) (s : State) : s.cycleKeeps (s.runTransfer bytes t) := by
  induction bytes generalizing t s with
  | nil => exact finishTransfer_cycleKeeps ..
  | cons b rest ih =>
    unfold State.runTransfer; repeat' split
    · exact keepsOf s ..
    · exact occupy_cycleKeeps ..
    · exact keepsTrans (transferWrite_cycleKeeps b s) (ih ..)

theorem transferAccessEnd_cycleKeeps (data : Byte) (s : State) : s.cycleKeeps (s.transferAccessEnd data) := by
  unfold State.transferAccessEnd; repeat' split
  all_goals first
    | with_reducible exact keepsRefl s
    | with_reducible exact finishTransfer_cycleKeeps ..
    | exact keepsTrans (transferWrite_cycleKeeps ..) (runTransfer_cycleKeeps ..)

theorem makeOwnByte_cycleKeeps (b : TransferByte) (rest : List TransferByte) (t : Transfer) (s : State) : s.cycleKeeps (s.makeOwnByte b rest t) :=
  keepsTrans (transferWrite_cycleKeeps b s) (runTransfer_cycleKeeps rest _ _)

theorem cutTransfer_cycleKeeps (cut : TransferByte → Bool) (s : State) : s.cycleKeeps (s.cutTransfer cut) := by
  unfold State.cutTransfer; dsimp only; repeat' split
  all_goals first
    | with_reducible exact keepsRefl s
    | with_reducible exact occupy_cycleKeeps ..
    | exact keepsTrans (keepsOf s s.port s.watch s.run _ s.link) (finishTransfer_cycleKeeps ..)

end Sys2Proof.Machine
end

