-- ==== Sys2Proof/Laws/Limits.lean ====
section
/-! SUPPORT. What the limits that time reaches do, one lemma each, what the link does in one step, what a bytewise command's next byte is, and what holding the part in reset leaves. -/

namespace Sys2Proof.Machine

/-! ### The limits -/

@[simp] theorem tick_timeBase (s : State) : s.tick.timeBase = s.timeBase + 1 := rfl
@[simp] theorem tick_link (s : State) : s.tick.link = s.link := rfl
@[simp] theorem tick_run (s : State) : s.tick.run = s.run := rfl
@[simp] theorem tick_engine (s : State) : s.tick.engine = s.engine := rfl

theorem expireDue_of_not {s : State} (h : s.holdDue = false) : s.expireDue = s := by
  unfold State.expireDue
  split <;> simp [h]

theorem pollExpire_of_not {s : State} (h : s.pollDue = false) : s.pollExpire = s := by
  unfold State.pollExpire
  split <;> simp [h]

theorem dropDue_of_not {s : State} (h : s.frameDue = false) : s.dropDue = s := by simp [State.dropDue, h]

/-- With no limit reached nothing is taken. -/
theorem takeDue_of_none {s : State} (hold : s.holdDue = false) (poll : s.pollDue = false) (frame : s.frameDue = false) : s.takeDue = s := by
  rw [State.takeDue, expireDue_of_not hold, pollExpire_of_not poll, dropDue_of_not frame]

/-- A limit that time has reached is no reason to move the Time Base. -/
theorem passUntil_of_reached {start : Stamp} {n : Nat} {s : State} (h : n ≤ s.elapsed start) : s.passUntil start n = s := by
  simp [State.passUntil, h]

/-- A poll's limit touches the engine, the arbiter, the slots, the lanes and the link alone. -/
theorem pollExpire_engineOnly (s : State) : s.engineOnly s.pollExpire := by
  unfold State.pollExpire
  split
  · split
    · exact engineOnly_trans (timeOut_engineOnly ..) (settle_engineOnly _)
    · exact engineOnly_refl s
  · exact engineOnly_refl s

/-- A late frame becomes a discarded one, its code byte echoed if that had arrived, and nothing else changes. -/
theorem dropDue_of_due {s : State} {since : Stamp} {code : Option Byte} (hq : s.link.reception = some (since, code)) (he : Config.frameTime ≤ s.elapsed since) :
    s.dropDue = { s with link := { s.link with queue := s.link.queue.dropLast ++ [.discarded (code.getD 0)] } } := by
  have hr : s.link.receiving = true := by
    unfold Link.reception at hq
    unfold Link.receiving
    split at hq <;> simp_all
  simp [State.dropDue, State.frameDue, State.dropLate, hq, he, passUntil_of_reached he, State.endReception, hr]

/-! ### The link in one step -/

/-- A response on the line leaves it while time passes, and no frame is taken. -/
theorem stepLink_of_sending {s : State} (h : s.link.activity = .sending) : s.stepLink = .next s.lineFree.tick.takeDue := by simp [State.stepLink, h, State.passTime]

/-- The free link takes its next frame. -/
theorem stepLink_of_idle {s : State} (h : s.link.activity = .idle) : s.stepLink = s.takeFrame := by simp [State.stepLink, h]

/-- While a command is in progress time passes. -/
theorem stepLink_of_busy {s : State} (h : s.link.activity.busy = true) : s.stepLink = .next s.tick.takeDue := by
  unfold State.stepLink
  split
  · rename_i ha; simp [ha, Activity.busy] at h
  · split
    · rename_i ha; simp [ha, Activity.busy] at h
    · rfl

/-! ### The bytes of a command -/

/-- The next byte that a command makes by itself: the first one still to be made, where it needs no bus. -/
theorem nextOwnByte_eq_some {s : State} {b : TransferByte} {rest : List TransferByte} {t : Transfer} :
    s.nextOwnByte = some (b, rest, t) ↔ s.link.activity = .transfer t ∧ t.todo = b :: rest ∧ b.boardBound = false := by
  unfold State.nextOwnByte
  constructor
  · intro h
    split at h
    · next t' ha =>
      split at h
      · next b' rest' ht =>
        split at h
        · cases h
        · next hb => cases h; exact ⟨ha, ht, by simpa using hb⟩
      · cases h
    all_goals cases h
  · rintro ⟨ha, ht, hb⟩
    simp [ha, ht, hb]

/-! ### Held in reset -/

@[simp] theorem holdInReset_port (s : State) : s.holdInReset.port = { s.port with prst := true, resetEnds := false } := by
  unfold State.holdInReset State.finishGranted State.stopSurvey State.transferWrite
  split <;> (repeat' split) <;> rfl

@[simp] theorem holdInReset_pending (s : State) : s.holdInReset.pending = s.pending := by
  unfold State.holdInReset State.finishGranted State.stopSurvey State.transferWrite
  split <;> (repeat' split) <;> rfl

@[simp] theorem holdInReset_owner (s : State) : s.holdInReset.bus.owner = s.bus.owner.lastAccess := by
  unfold State.holdInReset State.finishGranted State.stopSurvey State.transferWrite
  split <;> (repeat' split) <;> rfl

@[simp] theorem partReset_pending (s : State) : s.partReset.pending = s.pending := by
  unfold State.partReset State.stopSurvey State.afterReset
  split <;> rfl

@[simp] theorem endReset_pending (s : State) : s.endReset.pending = s.pending := by
  unfold State.endReset
  split
  · exact partReset_pending s
  · rfl

end Sys2Proof.Machine
end

