-- ==== Sys2Proof/Laws/Link.lean ====
section
/-! SUPPORT. What becomes of a command's frame at the link: taken, answered WRONG_STATE, left waiting, or ignored (R50, R186, R192). -/

namespace Sys2Proof.Machine

/-- The link is kept by nothing but, at most, a response on the line. -/
@[simp] theorem Activity.busy_eq_false {a : Activity} : a.busy = false ↔ a = .idle ∨ a = .sending := by cases a <;> simp [Activity.busy]

/-- What the taking of a frame leaves to the command's action: the one way in which `State.onTaken` gets to judge it. -/
theorem State.onTaken_judged {c : Instr} {s t : State} (h : s.takesFrame c t) (act : State → Result) : s.onTaken c act = t.judged c act := by
  obtain ⟨hp, ha, hw, hq⟩ := h
  have hb := Activity.busy_eq_false.2 ha
  rcases hq with ⟨hq, rfl⟩ | ⟨f, rest, hq, hf, rfl⟩
  · simp [State.onTaken, hp, hb, hw, hq, State.lineFree]
  · simp [State.onTaken, hp, hb, hw, hq, hf, State.lineFree, State.dequeue]

/-- Taking a frame changes the link alone. -/
theorem State.takesFrame_survey {c : Instr} {s t : State} (h : s.takesFrame c t) : t.overlay.survey = s.overlay.survey := by
  obtain ⟨-, -, -, ⟨-, rfl⟩ | ⟨_, _, -, -, rfl⟩⟩ := h <;> rfl

/-- A frame that the link takes once the power-on survey has ended: the command's own action on what the taking leaves. -/
theorem State.onTaken_takes {c : Instr} {s t : State} (h : s.takes c t) (act : State → Result) : s.onTaken c act = act t := by
  simp [State.onTaken_judged h.1, State.judged, State.takesFrame_survey h.1, h.2]

/-- IDENTIFY, READ NOTICES and the two answers judged before the survey check are taken during the power-on survey too. -/
theorem State.onTaken_takesFrame {c : Instr} {s t : State} (h : s.takesFrame c t) (k : Instr.takenInSurvey c = true) (act : State → Result) :
    s.onTaken c act = act t := by
  simp [State.onTaken_judged h, State.judged, k]

/-- Every other command is answered WRONG_STATE during the power-on survey. -/
theorem State.onTaken_survey {c : Instr} {s t : State} (h : s.takesFrame c t) (hs : s.overlay.survey = .powerOn)
    (k : Instr.takenInSurvey c = false) (act : State → Result) : s.onTaken c act = .next (t.respond .wrongState c.code .empty) := by
  simp [State.onTaken_judged h, State.judged, State.reject, State.takesFrame_survey h, hs, k]

/-- While a command keeps the link, or the command must wait for the cycle in flight, its frame joins the queue. -/
theorem State.onTaken_busy {c : Instr} {s : State} (hp : s.port.prst = false) (h : s.link.activity.busy = true ∨ Instr.mustWait c s = true)
    (act : State → Result) : s.onTaken c act = .next (s.queueFrame (Instr.frame c)) := by
  simp [State.onTaken, hp, h]

/-- With another frame ahead its frame joins the queue. -/
theorem State.onTaken_behind {c : Instr} {s : State} {f : Frame} {rest : List Frame} (hp : s.port.prst = false) (hq : s.link.queue = f :: rest)
    (hf : f.spells ≠ .command c) (act : State → Result) : s.onTaken c act = .next (s.queueFrame (Instr.frame c)) := by
  simp [State.onTaken, hp, hq, hf]

/-- While the part is held in reset every byte is ignored. -/
theorem State.onTaken_prst {c : Instr} {s : State} (hp : s.port.prst = true) (act : State → Result) : s.onTaken c act = .next s := by
  simp [State.onTaken, hp]

/-- A frame received while the queue is empty and the link is free is taken at once. -/
theorem State.takes_self {c : Instr} {s : State} (hp : s.port.prst = false) (ha : s.link.activity = .idle) (hw : Instr.mustWait c s = false)
    (hq : s.link.queue = []) (hs : s.overlay.survey ≠ .powerOn) : s.takes c s :=
  ⟨⟨hp, .inl ha, hw, .inl ⟨hq, (State.lineFree_of_idle ha).symm⟩⟩, hs⟩

/-- One whose row comes while a response is on the line is taken once that has left it. -/
theorem State.takes_sending {c : Instr} {s : State} (hp : s.port.prst = false) (ha : s.link.activity = .sending) (hw : Instr.mustWait c s = false)
    (hq : s.link.queue = []) (hs : s.overlay.survey ≠ .powerOn) : s.takes c s.lineFree := ⟨⟨hp, .inr ha, hw, .inl ⟨hq, rfl⟩⟩, hs⟩

/-- A row that is the taking of a frame runs as it would with the response before it gone from the line. -/
theorem State.onTaken_sending {c : Instr} {s : State} (hp : s.port.prst = false) (ha : s.link.activity = .sending) (hw : Instr.mustWait c s = false)
    (hq : s.link.queue = [] ∨ ∃ f rest, s.link.queue = f :: rest ∧ f.spells = .command c) (act : State → Result) :
    s.onTaken c act = s.lineFree.onTaken c act := by
  have hw2 : Instr.mustWait c s.lineFree = false := by rw [← hw]; cases c <;> rfl
  rcases hq with hq | ⟨f, rest, hq, hf⟩
  · exact (State.onTaken_judged ⟨hp, .inr ha, hw, .inl ⟨hq, rfl⟩⟩ act).trans (State.onTaken_judged (s := s.lineFree) ⟨hp, .inl rfl, hw2, .inl ⟨hq, rfl⟩⟩ act).symm
  · exact (State.onTaken_judged ⟨hp, .inr ha, hw, .inr ⟨f, rest, hq, hf, rfl⟩⟩ act).trans
      (State.onTaken_judged (s := s.lineFree) ⟨hp, .inl rfl, hw2, .inr ⟨f, rest, hq, hf, rfl⟩⟩ act).symm

/-- No command waits for a cycle in flight where none is, or outside a rehearsal that goes on (R1; log 17). -/
theorem Instr.mustWait_free {c : Instr} {s : State} (h : (s.run.rehearsal && decide (s.run.hold ≠ .holding) && s.port.inFlight.isSome) = false) :
    Instr.mustWait c s = false := by
  cases c <;> first | rfl | exact (congrArg _ h).trans (Bool.and_false _)

/-- An INJECT that R116's check on its fields refuses does not wait. -/
theorem Instr.mustWait_badInject {address lane kind : Nat} {data : Option Byte} {s : State} (h : injectFields address lane kind data = none) :
    Instr.mustWait (.inject address lane kind data) s = false := by
  simp only [Instr.mustWait, h, Option.isSome_none, Bool.false_and]

/-- No command but INJECT waits for the cycle in flight (log 17). -/
theorem Instr.mustWait_other {c : Instr} {s : State} (h : ∀ a l k d, c ≠ .inject a l k d) : Instr.mustWait c s = false := by
  cases c <;> first | rfl | exact absurd rfl (h _ _ _ _)

end Sys2Proof.Machine
end

