-- ==== Sys2Proof/Laws/Wire.lean ====
section
/-! SUPPORT. Reading back what was written: each reader of a field, run on the bytes of a value that fits it, gives the value and leaves the rest (R188). -/

namespace Sys2Proof.Machine

/-! ### Numbers on bytes -/

@[simp] theorem leBytes_length (k n : Nat) : (leBytes k n).length = k := by
  induction k generalizing n with
  | zero => rfl
  | succ k ih => simp [leBytes, ih]

theorem leValue_leBytes (k n : Nat) (h : n < 256 ^ k) : leValue (leBytes k n) = n := by
  induction k generalizing n with
  | zero => simp only [Nat.pow_zero] at h; simp [leBytes, leValue]; omega
  | succ k ih =>
    have hk : n / 256 < 256 ^ k := by rw [Nat.pow_succ] at h; omega
    simp only [leBytes, leValue, ih _ hk, BitVec.toNat_ofNat]
    omega

/-! ### Readers one after the other -/

/-- Running one reader after another. -/
theorem Reader.bind_apply {α β : Type} (x : Reader α) (f : α → Reader β) (bs : List Byte) :
    (x >>= f) bs = (x bs).bind (fun p => f p.1 p.2) := by
  cases h : x bs <;> simp [bind, StateT.bind, h]

theorem Reader.pure_apply {α : Type} (a : α) (bs : List Byte) : (pure a : Reader α) bs = some (a, bs) := rfl

/-- A reader that reads a value off the front of the bytes. -/
abbrev Reader.reads {α : Type} (x : Reader α) (bytes : List Byte) (a : α) : Prop := ∀ rest : List Byte, x (bytes ++ rest) = some (a, rest)

theorem Reader.reads_bind {α β : Type} {x : Reader α} {f : α → Reader β} {p q : List Byte} {a : α} {b : β} (h : x.reads p a) (k : (f a).reads q b) :
    (x >>= f).reads (p ++ q) b := by
  intro rest
  rw [Reader.bind_apply, List.append_assoc, h]
  exact k rest

theorem Reader.reads_pure {α : Type} (a : α) : (pure a : Reader α).reads [] a := fun _ => rfl

theorem Reader.reads_num {k n : Nat} (h : n < 256 ^ k) : (Reader.num k).reads (leBytes k n) n := by
  intro rest
  have hl : (leBytes k n ++ rest).take k = leBytes k n := by
    rw [List.take_append_of_le_length (by simp)]; exact List.take_of_length_le (by simp)
  have hd : (leBytes k n ++ rest).drop k = rest := by
    simp
  simp [Reader.num, hl, hd, leValue_leBytes k n h]

theorem Reader.reads_byte (b : Byte) : Reader.byte.reads [b] b := fun _ => rfl

theorem Reader.reads_flag (b : Bool) : Reader.flag.reads [flagByte b] b := by
  intro rest
  cases b <;> rfl

theorem Reader.reads_opt {k : Nat} {o : Option Nat} (h : ∀ n, o = some n → n < 256 ^ k - 1) : (Reader.opt k).reads (optBytes k o) o := by
  intro rest
  have hp : 0 < 256 ^ k := Nat.pow_pos (by decide)
  unfold Reader.opt
  cases o with
  | none =>
    have := Reader.reads_num (k := k) (n := 256 ^ k - 1) (by omega) rest
    simp [Reader.bind_apply, optBytes, this, Reader.pure_apply]
  | some n =>
    have hn := h n rfl
    have := Reader.reads_num (k := k) (n := n) (by omega) rest
    simp [Reader.bind_apply, optBytes, this, Reader.pure_apply, Nat.ne_of_lt hn]

theorem Reader.reads_optByte (o : Option Byte) : Reader.optByte.reads (optByteBytes o) o := by
  intro rest
  unfold Reader.optByte
  have := Reader.reads_opt (k := 2) (o := o.map BitVec.toNat) (by
    intro n hn
    cases o with
    | none => cases hn
    | some b => simp only [Option.map_some, Option.some.injEq] at hn; have := b.isLt; omega) rest
  rw [Reader.bind_apply, optByteBytes, this]
  cases o <;> simp [Reader.pure_apply]

/-! ### Lists -/

theorem Reader.reads_repeated {α : Type} {entry : Reader α} {bytes : α → List Byte} (l : List α) (h : ∀ a ∈ l, entry.reads (bytes a) a) :
    (Reader.repeated entry l.length).reads (l.flatMap bytes) l := by
  induction l with
  | nil => exact Reader.reads_pure []
  | cons a rest ih =>
    have hr := ih (fun b hb => h b (List.mem_cons_of_mem _ hb))
    intro tail
    have ha := h a List.mem_cons_self
    simp only [List.length_cons, Reader.repeated, Reader.bind_apply, List.flatMap_cons, List.append_assoc, ha _, Option.bind_some, hr tail,
      Reader.pure_apply]

theorem Reader.reads_counted {α : Type} {k : Nat} {entry : Reader α} {bytes : α → List Byte} {l : List α} (hk : l.length < 256 ^ k)
    (h : ∀ a ∈ l, entry.reads (bytes a) a) : (Reader.counted k entry).reads (countedBytes k l bytes) l := by
  unfold Reader.counted countedBytes
  exact Reader.reads_bind (Reader.reads_num hk) (Reader.reads_repeated l h)

theorem Reader.reads_pair {p : Pair} (h : p.offset < 256 ^ 4) : Reader.pair.reads (pairBytes p) p := by
  intro rest
  unfold Reader.pair pairBytes
  simp only [Reader.bind_apply, List.append_assoc, Reader.reads_num h _, Option.bind_some, Reader.reads_byte _ _, Reader.pure_apply]

theorem Reader.reads_sector {r : SectorRun} (h : r.size < 256 ^ 4) (k : r.count < 256 ^ 2) : Reader.sector.reads (sectorBytes r) r := by
  intro rest
  unfold Reader.sector sectorBytes
  simp only [Reader.bind_apply, List.append_assoc, Reader.reads_num h _, Option.bind_some, Reader.reads_num k _, Reader.pure_apply]

/-- A frame whose code has a reader that reads the whole payload spells that command (R187). -/
theorem Frame.spells_of_reads {code : Byte} {payload : List Byte} {reader : Reader Instr} {c : Instr} (h : Reader.command code = some reader)
    (k : reader.reads payload c) : (Frame.whole code payload).spells = .command c := by
  have := k []
  rw [List.append_nil] at this
  simp [Frame.spells, h, StateT.run, this]

end Sys2Proof.Machine
end

