-- ==== Sys2Proof/Laws/PerInstr.lean ====
section
/-! SUPPORT. Per command: a well-formed command's payload is at most 1040 bytes, so that its frame keeps R185's limit. One lemma for each row of the opcode table. -/

namespace Sys2Proof.Laws.PayloadFits

open Sys2Proof.Machine

/-- A well-formed command's payload has at most 1040 bytes (R185). -/
def Statement (c : Instr) : Prop := Instr.wf c = true → (Instr.payload c).length ≤ Config.payloadLimit

theorem flatMap_length {α : Type} (n : Nat) (l : List α) (f : α → List Byte) (h : ∀ a, (f a).length = n) : (l.flatMap f).length = n * l.length := by
  induction l with
  | nil => rfl
  | cons a rest ih => simp only [List.flatMap_cons, List.length_append, h, ih, List.length_cons, Nat.mul_succ]; omega

theorem countedBytes_length {α : Type} (k n : Nat) (l : List α) (f : α → List Byte) (h : ∀ a, (f a).length = n) :
    (countedBytes k l f).length = k + n * l.length := by simp [countedBytes, flatMap_length n l f h]

theorem pairBytes_length (p : Pair) : (pairBytes p).length = 5 := by simp [pairBytes]

theorem sectorBytes_length (r : SectorRun) : (sectorBytes r).length = 6 := by simp [sectorBytes]

theorem powerOn (supply : Nat) (probes : BitVec 4) (boardReset : Bool) : Statement (.powerOn supply probes boardReset) :=
  fun _ => Nat.le_of_ble_eq_true rfl

theorem prstAsserted : Statement .prstAsserted := fun _ => Nat.le_of_ble_eq_true rfl

theorem prstReleased : Statement .prstReleased := fun _ => Nat.le_of_ble_eq_true rfl

theorem partReset : Statement .partReset := fun _ => Nat.le_of_ble_eq_true rfl

theorem powerOnSurveyEnd (readBacks : List ReadBack) : Statement (.powerOnSurveyEnd readBacks) := fun _ => Nat.le_of_ble_eq_true rfl

theorem overlaySurveyEnd (readBacks : List ReadBack) : Statement (.overlaySurveyEnd readBacks) := fun _ => Nat.le_of_ble_eq_true rfl

theorem lineSurveyEnd (high : List (BitVec 28)) (low : List (BitVec 28)) : Statement (.lineSurveyEnd high low) := fun _ => Nat.le_of_ble_eq_true rfl

theorem cyclePresented (address : BitVec 20) (write : Option Byte) (fetchStatus : Bool) (selects : BitVec 4) :
    Statement (.cyclePresented address write fetchStatus selects) := fun _ => Nat.le_of_ble_eq_true rfl

theorem lostCycle : Statement .lostCycle := fun _ => Nat.le_of_ble_eq_true rfl

theorem boardAccessEnd (data : Byte) : Statement (.boardAccessEnd data) := fun _ => Nat.le_of_ble_eq_true rfl

theorem boardResetSeen : Statement .boardResetSeen := fun _ => Nat.le_of_ble_eq_true rfl

theorem boardResetReleased : Statement .boardResetReleased := fun _ => Nat.le_of_ble_eq_true rfl

theorem supplyLost (level : Nat) : Statement (.supplyLost level) := fun _ => Nat.le_of_ble_eq_true rfl

theorem supplyReturned (level : Nat) : Statement (.supplyReturned level) := fun _ => Nat.le_of_ble_eq_true rfl

theorem probeEdge (line : Fin 4) (rising : Bool) : Statement (.probeEdge line rising) := fun _ => Nat.le_of_ble_eq_true rfl

theorem holdLimitExpiry : Statement .holdLimitExpiry := fun _ => Nat.le_of_ble_eq_true rfl

theorem jobStart : Statement .jobStart := fun _ => Nat.le_of_ble_eq_true rfl

theorem readyLineAsserted : Statement .readyLineAsserted := fun _ => Nat.le_of_ble_eq_true rfl

theorem pollTimeout : Statement .pollTimeout := fun _ => Nat.le_of_ble_eq_true rfl

theorem lateFrame (code : Option Byte) : Statement (.lateFrame code) := fun _ => Nat.le_of_ble_eq_true rfl

theorem overlongFrame : Statement .overlongFrame := fun _ => Nat.le_of_ble_eq_true rfl

theorem startByteNoRoom : Statement .startByteNoRoom := fun _ => Nat.le_of_ble_eq_true rfl

theorem frameError (code : Byte) : Statement (.frameError code) := fun _ => Nat.le_of_ble_eq_true rfl

theorem unknownCommand (code : Byte) (payload : List Byte) : Statement (.unknownCommand code payload) := fun h => by
  simp only [Instr.wf, Bool.and_eq_true, decide_eq_true_eq] at h
  exact h.2

theorem linkRateChange (code : Option Byte) : Statement (.linkRateChange code) := fun _ => Nat.le_of_ble_eq_true rfl

theorem identify : Statement .identify := fun _ => Nat.le_of_ble_eq_true rfl

theorem readNotices : Statement .readNotices := fun _ => Nat.le_of_ble_eq_true rfl

theorem setNoticeMask (mask : BitVec 16) : Statement (.setNoticeMask mask) := fun _ => Nat.le_of_ble_eq_true rfl

theorem setLinkRate (rate : Nat) : Statement (.setLinkRate rate) := fun _ => Nat.le_of_ble_eq_true rfl

theorem resetPart : Statement .resetPart := fun _ => Nat.le_of_ble_eq_true rfl

theorem setWindow (index : Nat) (fields : WindowFields) : Statement (.setWindow index fields) := fun _ => Nat.le_of_ble_eq_true rfl

theorem clearWindow (index : Nat) : Statement (.clearWindow index) := fun _ => Nat.le_of_ble_eq_true rfl

theorem readWindow (index : Nat) : Statement (.readWindow index) := fun _ => Nat.le_of_ble_eq_true rfl

theorem setFloat (byte : Byte) : Statement (.setFloat byte) := fun _ => Nat.le_of_ble_eq_true rfl

theorem surveyOverlay : Statement .surveyOverlay := fun _ => Nat.le_of_ble_eq_true rfl

theorem readRepairMap : Statement .readRepairMap := fun _ => Nat.le_of_ble_eq_true rfl

theorem writeOverlay (page : Nat) (offset : Nat) (data : List Byte) : Statement (.writeOverlay page offset data) := fun h => by
  simp only [Instr.wf, Bool.and_eq_true, decide_eq_true_eq] at h
  simp only [Instr.payload, List.length_append, leBytes_length, countedBytes_length 2 1 data (fun b => [b]) (fun _ => rfl)]
  omega

theorem readOverlay (page : Nat) (offset : Nat) (count : Nat) : Statement (.readOverlay page offset count) := fun _ => Nat.le_of_ble_eq_true rfl

theorem setWatch (unit : Nat) (fields : WatchFields) : Statement (.setWatch unit fields) := fun _ => Nat.le_of_ble_eq_true rfl

theorem readWatch (unit : Nat) : Statement (.readWatch unit) := fun _ => Nat.le_of_ble_eq_true rfl

theorem setProbe (line : Nat) (fields : ProbeFields) : Statement (.setProbe line fields) := fun _ => Nat.le_of_ble_eq_true rfl

theorem readProbe (line : Nat) : Statement (.readProbe line) := fun _ => Nat.le_of_ble_eq_true rfl

theorem setHoldOptions (fields : HoldFields) : Statement (.setHoldOptions fields) := fun _ => Nat.le_of_ble_eq_true rfl

theorem setFloor (floor : Nat) : Statement (.setFloor floor) := fun _ => Nat.le_of_ble_eq_true rfl

theorem halt (level : Nat) : Statement (.halt level) := fun _ => Nat.le_of_ble_eq_true rfl

theorem release (source : Nat) (mode : Nat) (byte : Option Byte) (stepKind : Option Nat) : Statement (.release source mode byte stepKind) :=
  fun _ => Nat.le_of_ble_eq_true rfl

theorem resetTarget : Statement .resetTarget := fun _ => Nat.le_of_ble_eq_true rfl

theorem resume : Statement .resume := fun _ => Nat.le_of_ble_eq_true rfl

theorem rehearse : Statement .rehearse := fun _ => Nat.le_of_ble_eq_true rfl

theorem inject (address : Nat) (lane : Nat) (kind : Nat) (data : Option Byte) : Statement (.inject address lane kind data) :=
  fun _ => Nat.le_of_ble_eq_true rfl

theorem endRehearsal : Statement .endRehearsal := fun _ => Nat.le_of_ble_eq_true rfl

theorem listClaims : Statement .listClaims := fun _ => Nat.le_of_ble_eq_true rfl

theorem traceSetup (fields : TraceFields) : Statement (.traceSetup fields) := fun _ => Nat.le_of_ble_eq_true rfl

theorem traceArm (mode : Nat) : Statement (.traceArm mode) := fun _ => Nat.le_of_ble_eq_true rfl

theorem traceHalt : Statement .traceHalt := fun _ => Nat.le_of_ble_eq_true rfl

theorem traceClear : Statement .traceClear := fun _ => Nat.le_of_ble_eq_true rfl

theorem traceStatus : Statement .traceStatus := fun _ => Nat.le_of_ble_eq_true rfl

theorem drain (count : Nat) : Statement (.drain count) := fun _ => Nat.le_of_ble_eq_true rfl

theorem peek (path : Nat) (address : Nat) (count : Nat) (lane : Nat) : Statement (.peek path address count lane) := fun _ => Nat.le_of_ble_eq_true rfl

theorem poke (path : Nat) (address : Nat) (data : List Byte) (lane : Nat) : Statement (.poke path address data lane) := fun h => by
  simp only [Instr.wf, Bool.and_eq_true, decide_eq_true_eq] at h
  simp only [Instr.payload, List.length_append, leBytes_length, countedBytes_length 2 1 data (fun b => [b]) (fun _ => rfl)]
  omega

theorem surveyLines : Statement .surveyLines := fun _ => Nat.le_of_ble_eq_true rfl

theorem readLineMap : Statement .readLineMap := fun _ => Nat.le_of_ble_eq_true rfl

theorem clearLineMap : Statement .clearLineMap := fun _ => Nat.le_of_ble_eq_true rfl

theorem loadSlot (slot : Nat) (data : List Byte) : Statement (.loadSlot slot data) := fun h => by
  simp only [Instr.wf, Bool.and_eq_true, decide_eq_true_eq] at h
  simp only [Instr.payload, List.length_append, leBytes_length, countedBytes_length 2 1 data (fun b => [b]) (fun _ => rfl)]
  omega

theorem sealSlot (slot : Nat) : Statement (.sealSlot slot) := fun _ => Nat.le_of_ble_eq_true rfl

theorem freeSlot (slot : Nat) : Statement (.freeSlot slot) := fun _ => Nat.le_of_ble_eq_true rfl

theorem slotStatus (slot : Nat) : Statement (.slotStatus slot) := fun _ => Nat.le_of_ble_eq_true rfl

theorem setProfile (lane : Nat) (fields : ProfileFields) : Statement (.setProfile lane fields) := fun h => by
  simp only [Instr.wf, ProfileFields.wf, Bool.and_eq_true, decide_eq_true_eq] at h
  simp only [Instr.payload, ProfileFields.bytes, List.length_append, leBytes_length, pairBytes_length, List.length_singleton,
    countedBytes_length 1 5 _ pairBytes pairBytes_length, countedBytes_length 1 6 _ sectorBytes sectorBytes_length]
  omega

theorem readProfile (lane : Nat) : Statement (.readProfile lane) := fun _ => Nat.le_of_ble_eq_true rfl

theorem clearProfile (lane : Nat) : Statement (.clearProfile lane) := fun _ => Nat.le_of_ble_eq_true rfl

theorem submit (fields : SubmitFields) : Statement (.submit fields) := fun _ => Nat.le_of_ble_eq_true rfl

theorem collect : Statement .collect := fun _ => Nat.le_of_ble_eq_true rfl

theorem jobStatus : Statement .jobStatus := fun _ => Nat.le_of_ble_eq_true rfl

theorem cancelJob (number : Nat) : Statement (.cancelJob number) := fun _ => Nat.le_of_ble_eq_true rfl

theorem abortEngine : Statement .abortEngine := fun _ => Nat.le_of_ble_eq_true rfl

theorem startByteReceived (code : Option Byte) : Statement (.startByteReceived code) := fun _ => Nat.le_of_ble_eq_true rfl

theorem checkByteReceived (code : Byte) (payload : List Byte) (check : Byte) : Statement (.checkByteReceived code payload check) :=
  fun _ => Nat.le_of_ble_eq_true rfl

end Sys2Proof.Laws.PayloadFits
end

