-- ==== Sys2Proof/Tests/Slice0.lean ====
section
/-! SUPPORT. The model's own tests: an ill-formed command for each check of well-formedness, frames written out byte by byte from 11.4 and 11.5, a few steps on small
states, and for each statement with hypotheses a state and operands that meet them, at the boundary values of its clauses. -/

namespace Sys2Proof.Tests

open Sys2Proof Sys2Proof.Machine

/-! ### Well-formedness: one ill-formed command for each check -/

def windowFields (first last kind : Nat) (origin guardLevel : Option Nat) : WindowFields :=
  { enabled := true, lane := 8, firstPage := first, lastPage := last, kind := kind, origin := origin, capture := true, guardLevel := guardLevel }

def watchFields (mode kinds countA : Nat) : WatchFields :=
  { mode := mode, lane := 8, firstAddress := 0, lastAddress := 0xFFFFF, kinds := BitVec.ofNat 8 kinds, dataValue := 0, dataMask := 0, probe := none,
    countA := countA, countB := 1, chained := false, actions := 0, holdLevel := 0, gateQualifies := false }

def probeFields (sense : Nat) (level : Option Nat) : ProbeFields := { sense := sense, record := true, note := true, holdLevel := level, holdFirst := true }

def holdFields (wait : Bool) (limit threshold : Nat) : HoldFields :=
  { waitWired := wait, fetchWired := true, selectEnables := 0xF, holdLimit := limit, powerUpHold := true, threshold := threshold }

def traceFields (mode post mark : Nat) : TraceFields :=
  { fillMode := mode, postCount := post, watermark := mark, engineCycles := true, edges := true, markers := true }

def profileFields (cls base size : Nat) (sectors : List SectorRun) : ProfileFields :=
  { cls := cls, base := base, size := size, erased := 0xFF, unlock := [], program := { offset := 0, byte := 0 }, sectorErase := [], sectorCommand := 0,
    laneErase := [], resetPair := { offset := 0, byte := 0xF0 }, pollMethod := 2, pollBit := 7, programTimeout := 1, sectorTimeout := 1, laneTimeout := 1,
    sectors := sectors }

def submitFields (operation lane address length : Nat) : SubmitFields :=
  { operation := operation, lane := lane, address := address, length := length, slot := 0, slotOffset := 0, precheck := false, verifyAfter := false, policy := 0 }

/-- A byte read back in pass 1. -/
def readBack (page offset : Nat) (byte : Byte) : ReadBack := { page := page, second := false, offset := offset, byte := byte }

def pair (offset : Nat) : Pair := { offset := offset, byte := 0 }

theorem test_wf_numbers : ([.setLinkRate 256, .clearWindow 256, .readWindow 256, .readWatch 256, .readProbe 256, .setFloor 256, .halt 256, .traceArm 256, .drain 256,
    .sealSlot 256, .freeSlot 256, .slotStatus 256, .readProfile 256, .clearProfile 256, .cancelJob 256] : List Instr).all (fun c => !Instr.wf c) = true := by decide

theorem test_wf_window :
    ([.setWindow 256 (windowFields 0 0 0 none none), .setWindow 0 { windowFields 0 0 0 none none with lane := 256 }, .setWindow 0 (windowFields 65536 0 0 none none),
      .setWindow 0 (windowFields 0 65536 0 none none), .setWindow 0 (windowFields 0 0 256 none none), .setWindow 0 (windowFields 0 0 0 (some 65535) none),
      .setWindow 0 (windowFields 0 0 0 none (some 255))] : List Instr).all (fun c => !Instr.wf c) = true := by decide

theorem test_wf_watch :
    ([.setWatch 256 (watchFields 1 7 1), .setWatch 0 (watchFields 256 7 1), .setWatch 0 { watchFields 1 7 1 with lane := 256 },
      .setWatch 0 { watchFields 1 7 1 with firstAddress := 0x1000000 }, .setWatch 0 { watchFields 1 7 1 with lastAddress := 0x1000000 },
      .setWatch 0 { watchFields 1 7 1 with probe := some (255, 0) }, .setWatch 0 { watchFields 1 7 1 with probe := some (0, 256) },
      .setWatch 0 (watchFields 1 7 65536), .setWatch 0 { watchFields 1 7 1 with countB := 65536 },
      .setWatch 0 { watchFields 1 7 1 with holdLevel := 256 }] : List Instr).all (fun c => !Instr.wf c) = true := by decide

theorem test_wf_fields :
    ([.setProbe 256 (probeFields 0 none), .setProbe 0 (probeFields 256 none), .setProbe 0 (probeFields 0 (some 255)), .setHoldOptions (holdFields true 65536 0),
      .setHoldOptions (holdFields true 0 256), .traceSetup (traceFields 256 0 1), .traceSetup (traceFields 0 65536 1), .traceSetup (traceFields 0 0 65536)]
      : List Instr).all (fun c => !Instr.wf c) = true := by decide

theorem test_wf_overlay :
    ([.writeOverlay 256 0 [], .writeOverlay 0 256 [], .readOverlay 256 0 1, .readOverlay 0 256 1, .readOverlay 0 0 65536, .powerOnSurveyEnd [readBack 272 0 0],
      .powerOnSurveyEnd [readBack 0 256 0], .overlaySurveyEnd [readBack 272 0 0], .overlaySurveyEnd [readBack 0 256 0]] : List Instr).all
        (fun c => !Instr.wf c) = true := by decide

theorem test_wf_payload : Instr.wf (.writeOverlay 0 0 (List.replicate 1037 0)) = false ∧ Instr.wf (.loadSlot 0 (List.replicate 1038 0)) = false ∧
    Instr.wf (.poke 0 0 (List.replicate 1034 0) 0) = false ∧ Instr.wf (.unknownCommand 0x06 (List.replicate 1041 0)) = false ∧
    Instr.wf (.checkByteReceived 0 (List.replicate 1041 0) 0) = false ∧ Instr.wf (.unknownCommand 0x01 []) = false := by decide +kernel

theorem test_wf_run :
    ([.release 256 0 none none, .release 0 256 none none, .release 0 0 none (some 255), .inject 0x1000000 0 0 none, .inject 0 256 0 none, .inject 0 0 256 none,
      .peek 256 0 1 0, .peek 0 0x1000000 1 0, .peek 0 0 65536 0, .peek 0 0 1 256, .poke 256 0 [] 0, .poke 0 0x1000000 [] 0, .poke 0 0 [] 256,
      .loadSlot 256 [], .lineSurveyEnd [] (List.replicate 28 0), .lineSurveyEnd (List.replicate 28 0) []] : List Instr).all (fun c => !Instr.wf c) = true := by
  decide

theorem test_wf_profile :
    ([.setProfile 256 (profileFields 0 0 1024 []), .setProfile 0 (profileFields 256 0 1024 []), .setProfile 0 (profileFields 0 0x1000000 1024 []),
      .setProfile 0 (profileFields 0 0 4294967296 []), .setProfile 0 { profileFields 0 0 1024 [] with unlock := [pair 4294967296] },
      .setProfile 0 { profileFields 0 0 1024 [] with program := pair 4294967296 }, .setProfile 0 { profileFields 0 0 1024 [] with sectorErase := [pair 4294967296] },
      .setProfile 0 { profileFields 0 0 1024 [] with laneErase := [pair 4294967296] }, .setProfile 0 { profileFields 0 0 1024 [] with resetPair := pair 4294967296 },
      .setProfile 0 { profileFields 0 0 1024 [] with pollMethod := 256 }, .setProfile 0 { profileFields 0 0 1024 [] with pollBit := 256 },
      .setProfile 0 { profileFields 0 0 1024 [] with programTimeout := 65536 }, .setProfile 0 { profileFields 0 0 1024 [] with sectorTimeout := 65536 },
      .setProfile 0 { profileFields 0 0 1024 [] with laneTimeout := 65536 }, .setProfile 0 (profileFields 0 0 1024 [{ size := 4294967296, count := 1 }]),
      .setProfile 0 (profileFields 0 0 1024 [{ size := 256, count := 65536 }]),
      .setProfile 0 { profileFields 0 0 1024 [] with unlock := List.replicate 202 (pair 0) }] : List Instr).all (fun c => !Instr.wf c) = true := by
  decide +kernel

theorem test_wf_submit :
    ([.submit (submitFields 256 0 0 0), .submit (submitFields 0 256 0 0), .submit (submitFields 0 0 0x1000000 0), .submit (submitFields 0 0 0 4294967296),
      .submit { submitFields 0 0 0 0 with slot := 256 }, .submit { submitFields 0 0 0 0 with slotOffset := 65536 },
      .submit { submitFields 0 0 0 0 with policy := 256 }] : List Instr).all (fun c => !Instr.wf c) = true := by decide

/-! ### Frames written out from 11.4 and 11.5 -/

/-- SET WINDOW on record 3: enabled, ANY, pages 0x0102 to 0x0203, OVERLAY, origin 5, capture yes, no guard level. -/
theorem test_frame_setWindow : (Frame.whole 0x10 [3, 1, 8, 0x02, 0x01, 0x03, 0x02, 1, 5, 0, 1, 0xFF]).spells =
    .command (.setWindow 3 { enabled := true, lane := 8, firstPage := 0x0102, lastPage := 0x0203, kind := 1, origin := some 5, capture := true, guardLevel := none }) := by
  decide

/-- READ OVERLAY of 256 bytes from offset 7 of logical page 2. -/
theorem test_frame_readOverlay : (Frame.whole 0x1B [2, 7, 0, 1]).spells = .command (.readOverlay 2 7 256) := by decide

/-- RELEASE of ALL with SUBSTITUTE of 0xFF: the byte stands on two bytes, so that it is not absence; no step kind. -/
theorem test_frame_release : (Frame.whole 0x33 [0xFF, 1, 0xFF, 0, 0xFF]).spells = .command (.release 255 1 (some 0xFF#8) none) := by decide

/-- The two-byte optional byte keeps its low byte (log 40). -/
theorem test_frame_release_wide : (Frame.whole 0x33 [0xFF, 1, 0x05, 0x01, 0xFF]).spells = .command (.release 255 1 (some 0x05#8) none) := by decide

/-- SUBMIT of a SUM carries all its fields on 15 bytes; with fewer it is of a wrong length (R166; log 21). -/
theorem test_frame_submit : (Frame.whole 0x70 [5, 1, 0x00, 0x04, 0x00, 0x10, 0, 0, 0, 0, 0, 0, 0, 0, 0]).spells =
    .command (.submit { operation := 5, lane := 1, address := 0x400, length := 16, slot := 0, slotOffset := 0, precheck := false, verifyAfter := false, policy := 0 }) ∧
    (Frame.whole 0x70 [5, 1, 0x00, 0x04, 0x00, 0x10, 0, 0, 0]).spells = .badLength 0x70 := by decide

/-- SET FLOOR without its field and with one byte too many: a wrong length (R187). -/
theorem test_frame_badLength : (Frame.whole 0x31 []).spells = .badLength 0x31 ∧ (Frame.whole 0x31 [1, 2]).spells = .badLength 0x31 := by decide

/-- The response of READ NOTICES after power-on, byte by byte: 0x5A, length 4, status OK, code 0x02, pending 0x0001, mask 0x7FFF, the check byte. -/
theorem test_wire_notices :
    Response.wire { status := .ok, code := 0x02, answer := .notices 1 0x7FFF } = [0x5A, 4, 0, 0, 0x02, 1, 0, 0xFF, 0x7F, 0x7B] := by decide

/-- Count A and count B in the answer of READ WATCH: count B stands on four bytes, so that 65535 is not absence (R83, R188). -/
theorem test_wire_watch : (WatchUnit.initial.bytes.drop 13).take 6 = [1, 0, 0xFF, 0xFF, 0xFF, 0xFF] ∧
    (({ WatchUnit.initial with countB := some 65535 } : WatchUnit).bytes.drop 13).take 6 = [1, 0, 0xFF, 0xFF, 0, 0] := by decide

/-- The check value of the CRC-32 (R154). -/
theorem test_crc : crc32 [0x31, 0x32, 0x33, 0x34, 0x35, 0x36, 0x37, 0x38, 0x39] = 0xCBF43926#32 := by decide +kernel

/-! ### Small states -/

/-- The part right after its power-on survey, with no page listed. -/
def ready : State := { State.reset with overlay := { cells := [], repairList := [], survey := .idle } }

theorem takesNow {s : State} (h : s.port.prst = false ∧ s.link.activity = .idle ∧ s.link.queue = [] ∧ s.overlay.survey ≠ .powerOn ∧
    (s.run.rehearsal && decide (s.run.hold ≠ .holding) && s.port.inFlight.isSome) = false) (c : Instr) : s.takes c s :=
  State.takes_self h.1 h.2.1 (Instr.mustWait_free h.2.2.2.2) h.2.2.1 h.2.2.2.1

theorem ready_takes (c : Instr) : ready.takes c ready := takesNow (by decide) c

/-- Run control in a state, with claims. -/
def inState (h : HoldState) (claims : List Claim) : State := { ready with run := { ready.run with hold := h, claims := claims } }

def rehearsing (h : HoldState) (claims : List Claim) : State :=
  { inState h claims with run := { ready.run with hold := h, claims := claims, rehearsal := true } }

def claim (level : Nat) : Claim := { source := .halt, level := some level, stamp := 0, address := none, window := none, repeats := 1, step := none }

def stepClaim (kind : StepKind) (satisfied : Bool) : Claim :=
  { source := .step, level := none, stamp := 0, address := none, window := none, repeats := 1, step := some { kind := kind, satisfied := satisfied } }

/-- A cycle in flight. -/
def cycle (route : Route) (kind : Kind) (phase : Phase) (injected : Bool) : Cycle :=
  { ready.present 0 none kind (some 1) false injected with route := route, phase := phase, held := decide (phase = .held) }

/-- A held cycle, by HALT's claim. -/
def holding (c : Cycle) (claims : List Claim) (rehearsal : Bool) : State :=
  { ready with
    port := { ready.port with inFlight := some c }
    run := { ready.run with hold := .holding, claims := claims, rehearsal := rehearsal, origin := some { source := .halt, level := some 0 },
                            timer := some { start := 0, limit := 60000 } } }

def wired (s : State) : State := { s with port := { s.port with waitWired := true, fetchWired := true } }

def ownedBy (o : Owner) (s : State) : State := { s with bus := { s.bus with owner := o } }

def withWindow (w : Window) (s : State) : State := { s with windows := Vector.replicate 16 w }

def window (kind : Route) (origin guardLevel : Option Nat) : Window :=
  { enabled := true, lane := .any, firstPage := 0, lastPage := 4095, kind := kind, origin := origin, capture := true, guardLevel := guardLevel }

def inReset (s : State) : State := { s with port := { s.port with prst := true } }

def surveying (x : OverlaySurvey) (s : State) : State := { s with overlay := { s.overlay with survey := x } }

def withLink (a : Activity) (q : List Frame) (s : State) : State := { s with link := { s.link with activity := a, queue := q } }

def flash : FlashPart :=
  { unlock := [], program := { offset := 0, byte := 0 }, sectorErase := [], sectorCommand := 0, laneErase := [], resetPair := { offset := 0, byte := 0xF0 },
    pollMethod := .readyLine, pollBit := 7, programTimeout := 1, sectorTimeout := 1, laneTimeout := 1, sectors := [{ size := 256, count := 4 }] }

def profile (cls : LaneClass) : Profile :=
  { cls := cls, base := 0, size := 1024, erased := 0xFF, flash := if cls = .flash then some flash else none }

def active (phase : JobPhase) : Active :=
  { start := 0, current := 0, phase := phase, crc := crcStart, mismatches := 0, unsteady := 0, firstBad := none, firstUnsteady := none, aborting := false }

def job (number : Nat) (op : Operation) (state : JobState) : Job := { number := number, op := op, lane := 0, address := 0, length := 4, state := state }

def withJobs (cls : LaneClass) (jobs : List Job) (s : State) : State :=
  { s with
    lanes := Vector.replicate 4 { profile := some (profile cls), owed := decide (cls = .flash) }
    engine := { jobs := jobs, endOrder := (jobs.filter (fun j => !j.unfinished)).map Job.number, nextNumber := 9 } }

def sealedSlots (s : State) : State := { s with slots := Vector.replicate 4 { state := .sealed 0, contents := [1, 2, 3, 4], binds := 0 } }

def done : Completion := { outcome := .done, reached := none, expected := none, read := none, counts := none, crc := none, elapsed := 0 }

/-- A byte of a PEEK (`write` none) or POKE along a route, with a location for the overlay kinds. -/
def byteOn (route : Route) (write : Option Byte) : TransferByte :=
  { address := 5, write := write, route := route, location := if route.isOverlay then some { page := 0, offset := 5 } else none }

/-- A PEEK or POKE with these bytes to make. -/
def moving (form : TransferForm) (bytewise : Bool) (todo : List TransferByte) : Activity :=
  .transfer { form := form, bytewise := bytewise, todo := todo, made := [], count := 0 }

/-- The part in such a command. -/
def transferring (form : TransferForm) (bytewise : Bool) (todo : List TransferByte) : State := withLink (moving form bytewise todo) [] ready

def transfer (poke : Bool) (n : Nat) : Activity :=
  moving (if poke then .poke else .peek) false (List.replicate n (byteOn .pass (if poke then some 7 else none)))

/-- The same state with the Time Base here. -/
def at_ (n : Nat) (s : State) : State := { s with timeBase := BitVec.ofNat 32 n }

/-- The job of the polling witnesses, and the state in which it polls. -/
def pollingJob (op : Operation) (stage : PollStage) : Job := job 0 op (.active (active (.poll 0 stage)))

/-- Its state. -/
def pollingState (op : Operation) (stage : PollStage) : State := withJobs .flash [pollingJob op stage] ready

/-- One job queued, the lane's reset owed. -/
def queuedState (op : Operation) : State := withJobs .flash [job 0 op .queued] ready

/-! ### A few steps -/

/-- Page 3 fails at the last byte of pass 2, page 5 does not: its byte came back as written; page 7's lies behind the page's end (R49). -/
theorem test_survey_pattern : surveyList [{ page := 5, second := false, offset := 0, byte := 0x55 }, { page := 3, second := true, offset := 255, byte := 0xAA },
    { page := 7, second := false, offset := 256, byte := 0 }] = [3] := by decide +kernel

/-- The first of two bytes of a WRITE OVERLAY from the receive queue is written by the first step, the second is still to come (R58). -/
theorem test_bytewise_write :
    (match step (withLink (moving .writeOverlay true [byteOn .overlay (some 7), { byteOn .overlay (some 8) with location := some { page := 0, offset := 6 } }]) [] ready) with
     | .next t => decide (t.overlay.cells = [(5, 7)]) && decide (t.link.activity ≠ .idle)
     | _ => false) = true := by decide +kernel

/-! ### States and operands that meet each statement's hypotheses -/

theorem witness_StepRunsFrontCommand : ({ ready with pending := [.identify] } : State).pending = .identify :: [] := rfl

theorem witness_EmptyQueueTakesFrameOrTime :
    ((inReset ready).pending = [] ∧ (inReset ready).port.prst = true) ∧
    (let s := withLink .idle [.discarded 0] ready
     s.pending = [] ∧ s.port.prst = false ∧ s.link.activity = .idle ∧ s.link.queue = .discarded 0 :: [] ∧
       (Frame.discarded 0).spells = .command (.frameError 0) ∧ Instr.mustWait (.frameError 0) s = false) ∧
    (let s := withLink .idle [.whole 0x04 []] ready
     s.link.queue = .whole 0x04 [] :: [] ∧ (Frame.whole 0x04 []).spells = .badLength 0x04 ∧ s.overlay.survey ≠ .powerOn) ∧
    (∀ b ∈ [byteOn .float none, byteOn .float (some 7), byteOn .overlay none, byteOn .overlay (some 7)], ∀ rest ∈ [[], [byteOn .float none]],
      (transferring .poke true (b :: rest)).pending = [] ∧ (transferring .poke true (b :: rest)).port.prst = false ∧
        (transferring .poke true (b :: rest)).link.activity = moving .poke true (b :: rest) ∧ b.boardBound = false ∧
        (transferring .poke true (b :: rest)).transferMapped = true) ∧
    (ready.pending = [] ∧ ready.link.queue = [] ∧ ready.tick.holdDue = false ∧ ready.tick.pollDue = false ∧ ready.tick.frameDue = false) ∧
    (withLink .reset [.discarded 0] ready).link.activity ≠ .idle ∧ (withLink .reset [.discarded 0] ready).link.activity ≠ .sending ∧
    (byteOn .pass none).boardBound = true ∧
    (∀ q ∈ [[], [Frame.discarded 0]], let s := withLink .sending q ready
      s.pending = [] ∧ s.port.prst = false ∧ s.link.activity = .sending ∧ s.lineFree.tick.holdDue = false ∧ s.lineFree.tick.pollDue = false ∧
        s.lineFree.tick.frameDue = false) ∧
    (∀ n ∈ [59999999, 60000000], (at_ n (holding (cycle .pass .read .held false) [claim 0] false)).holdDue = decide (n = 60000000)) ∧
    (∀ n ∈ [49999, 50000], (at_ n (withLink .idle [.discarded 0, .receiving 0 (some 3)] ready)).frameDue = decide (n = 50000)) ∧
    (∀ n ∈ [999, 1000], (at_ n (pollingState .eraseSector .readyLine)).pollDue = decide (n = 1000)) ∧
    (pollingState .eraseSector .readyLine).polling = some (pollingJob .eraseSector .readyLine, active (.poll 0 .readyLine), profile .flash, flash, 0, .readyLine) :=
  ⟨by decide, by decide, by decide, by decide +kernel, by decide, by decide, by decide, by decide, by decide, by decide, by decide, by decide, rfl⟩

/-- A reset that waits for the board access in progress. -/
def ending (o : Owner) : State := { inReset (ownedBy o ready) with port := { (inReset ready).port with resetEnds := true } }

theorem endsReset_forms : (inReset ready).endsReset .prstReleased ∧ ready.endsReset .partReset ∧ (ownedBy (.engine .lineSurvey) ready).endsReset .partReset ∧
    (ending .target).endsReset (.boardAccessEnd 0) ∧ (ending .bench).endsReset (.boardAccessEnd 0) ∧
    (ending (.ended 3 { address := 0, write := none })).endsReset (.boardAccessEnd 0) :=
  ⟨.inl ⟨rfl, rfl, rfl⟩, .inr (.inl ⟨rfl, rfl, .inl rfl⟩), .inr (.inl ⟨rfl, rfl, .inr rfl⟩), .inr (.inr ⟨0, rfl, rfl, rfl, .inl rfl⟩),
   .inr (.inr ⟨0, rfl, rfl, rfl, .inr (.inl rfl)⟩), .inr (.inr ⟨0, rfl, rfl, rfl, .inr (.inr ⟨_, _, rfl⟩)⟩)⟩

theorem witness_ResetsSetResetValues :
    (inReset ready).endsReset .prstReleased ∧ ready.endsReset .partReset ∧ ready.overlay.survey = .idle ∧
    (State.reset.endsReset .partReset ∧ State.reset.overlay.survey = .powerOn) ∧
    ((surveying .commanded ready).endsReset .partReset ∧ (surveying .commanded ready).overlay.survey = .commanded) ∧
    (∀ o ∈ [Owner.target, .bench, .ended 0 { address := 0, write := none }, .engine (.accesses 0 [{ address := 0, write := none }])],
      (ownedBy o ready).port.prst = false ∧ (inReset (ownedBy o ready)).port.prst = true ∧ (ownedBy o ready).bus.owner = o) :=
  ⟨endsReset_forms.1, endsReset_forms.2.1, rfl, ⟨.inr (.inl ⟨rfl, rfl, .inl rfl⟩), rfl⟩, ⟨.inr (.inl ⟨rfl, rfl, .inl rfl⟩), rfl⟩, by decide⟩

theorem witness_PrstHoldsPartInReset :
    (∀ o ∈ [Owner.free, .target, .bench, .engine (.accesses 0 [{ address := 0, write := none }]), .engine .lineSurvey], (ownedBy o ready).port.prst = false ∧
      (ownedBy o ready).bus.owner = o ∧ (ownedBy o ready).overlay.survey ≠ .commanded) ∧
    (∀ b ∈ [byteOn .pass none, byteOn .pass (some 7), byteOn .shadow (some 7)],
      let s := withLink (moving .poke false [b]) [] (ownedBy .bench ready)
      s.bus.owner = .bench ∧ s.link.activity = moving .poke false [b] ∧ s.port.prst = false ∧ s.overlay.survey ≠ .commanded) ∧
    (∀ o ∈ [Owner.target, .bench, .ended 0 { address := 0, write := none }], (inReset (ownedBy o ready)).port.prst = true ∧
      (inReset (ownedBy o ready)).bus.owner = o ∧ (inReset (ownedBy o ready)).port.resetEnds = false) ∧
    benchCommand .identify = true := by decide

/-- While a commanded survey runs: with no byte granted, with a granted byte that has an overlay half or none, and with an access in progress. -/
theorem witness_PrstHoldsPartInReset_survey :
    (∀ o ∈ [Owner.free, .target, .engine (.accesses 0 [{ address := 0, write := none }]), .ended 0 { address := 0, write := none }],
      let s := ownedBy o (surveying .commanded ready)
      s.port.prst = false ∧ s.overlay.survey = .commanded ∧ s.bus.owner = o ∧ s.bus.owner ≠ .bench) ∧
    (∀ b ∈ [byteOn .pass none, byteOn .pass (some 7), byteOn .shadow (some 7)],
      let s := withLink (moving .poke false [b]) [] (ownedBy .bench (surveying .commanded ready))
      s.port.prst = false ∧ s.overlay.survey = .commanded ∧ s.bus.owner = .bench ∧ s.link.activity = moving .poke false [b]) ∧
    (byteOn .pass (some 7)).location = none ∧ (byteOn .shadow (some 7)).location = some { page := 0, offset := 5 } := by decide

theorem witness_FrameSpellsItsCommand :
    ([.setLinkRate 255, .setWindow 255 (windowFields 65535 65535 255 (some 65534) (some 254)), .release 255 255 (some 0xFF) (some 254), .abortEngine,
      .submit { submitFields 255 255 0xFFFFFF 0xFFFFFFFF with slot := 255, slotOffset := 65535, policy := 255 }] : List Instr).all benchCommand = true := by decide

theorem witness_StepKeepsOverlayForm : (ready.memoryWf ∧ ready.listFormed) ∧ ∃ t, step ready = .next t := ⟨by decide, ready.passTime, rfl⟩

theorem witness_StepKeepsTraceConsecutive :
    ({ ready with trace := { ready.trace with next := 1, records := [{ seq := 0, stamp := 0, body := .power true }] } } : State).traceConsecutive :=
  ⟨by decide, fun i h => by obtain rfl : i = 0 := Nat.lt_one_iff.1 h; rfl⟩

/-- A table with an ENDED, an ACTIVE and a QUEUED entry, the slot of the ACTIVE one bound. -/
def tableState : State :=
  { withJobs .flash [job 0 .sum (.ended done), job 1 (.program 0 0 false false) (.active (active .compare)), job 2 .eraseLane .queued] (inState .resetHeld []) with
    slots := #v[{ state := .sealed 0, contents := [1, 2, 3, 4], binds := 1 }, { state := .empty, contents := [], binds := 0 },
                { state := .empty, contents := [], binds := 0 }, { state := .empty, contents := [], binds := 0 }] }

theorem tableState_jobTable : tableState.jobTable := by decide

theorem tableState_endsListed : tableState.endsListed :=
  ⟨by decide, fun n => ⟨fun h => ⟨job 0 .sum (.ended done), .head _, (List.mem_singleton.1 h).symm, rfl⟩, fun ⟨j, hj, hn, hu⟩ => by
    rcases List.mem_cons.1 hj with rfl | hj
    · exact List.mem_singleton.2 hn.symm
    · rcases List.mem_cons.1 hj with rfl | hj
      · cases hu
      · rcases List.mem_singleton.1 hj with rfl; cases hu⟩⟩

theorem witness_StepKeepsJobsAndBinds : (tableState.jobTable ∧ tableState.endsListed) ∧ tableState.jobTable ∧ tableState.bindsCount :=
  ⟨⟨tableState_jobTable, tableState_endsListed⟩, tableState_jobTable, by decide⟩

theorem witness_StepKeepsRunSound : (wired (holding (cycle .pass .read .held false) [claim 0] false)).runSound := by decide

theorem witness_MappedStateNeverStops : (withWindow (window .pass none none) ready).overlayReachable :=
  ⟨by decide +kernel, by decide, by decide, fun c h => (by cases h), fun h => absurd rfl h⟩

/-- A location past the last logical page. -/
def lost : Option Location := some { page := 256, offset := 0 }

theorem witness_UnmappedPageFaults :
    (let s := withWindow (window .overlay (some 256) none) (inState .running [])
     s.mayPresent = true ∧ (s.targetCycle 0 none false 0).location.all s.overlay.maps = false) ∧
    (let t := holding { cycle .overlay .read .held false with location := lost } [claim 0] false
     (t.takes (.halt 7) t ∧ t.takes (.setFloor 0) t ∧ t.takes (.release 255 0 none none) t) ∧ t.run.claims ≠ [] ∧ t.run.hold = .holding ∧
       t.writeActive = false ∧ t.cycleMapped = false ∧ (t.withFloor 0).run.anyHolding = false) ∧
    (let b : TransferByte := { byteOn .overlay none with location := lost }
     let s := withLink (moving .peek true [b]) [] (ownedBy .bench ready)
     s.bus.owner = .bench ∧ s.port.prst = false ∧ s.transferMapped = false ∧ s.pending = [] ∧ b.boardBound = false) ∧
    (let s := { holding { cycle .overlay .read .held false with location := lost } [claim 0] false with
                probes := Vector.replicate 4 { ProbeLine.initial false with sense := .rise, holdLevel := some 7 } }
     s.probes[(0 : Fin 4)].level ≠ true ∧ s.probes[(0 : Fin 4)].sense.admits true = true ∧ s.probes[(0 : Fin 4)].holdLevel = some 7 ∧ s.port.prst = false ∧
       s.cycleMapped = false) :=
  ⟨by decide +kernel, ⟨⟨takesNow (by decide) _, takesNow (by decide) _, takesNow (by decide) _⟩, by decide +kernel⟩, by decide +kernel, by decide +kernel⟩

theorem witness_SurveyEndReplacesRepairList :
    (State.reset.port.prst = false ∧ State.reset.overlay.survey = .powerOn) ∧
    ((surveying .commanded ready).port.prst = false ∧ (surveying .commanded ready).overlay.survey = .commanded) ∧ ready.overlay.survey = .idle ∧
    (inReset ready).port.prst = true := by decide

theorem witness_FramesQueueOrAreAnswered :
    benchCommand .identify = true ∧
    (∀ q ∈ [List.replicate 3 (Frame.discarded 0), List.replicate 4 (Frame.discarded 0), [Frame.receiving 0 (some 3)]],
      (withLink .reset q ready).port.prst = false ∧ (withLink .reset q ready).link.activity ≠ .idle ∧ (withLink .reset q ready).link.activity ≠ .sending ∧
        (withLink .idle q ready).link.activity = .idle) ∧
    (∀ c ∈ [Instr.identify, .frameError 0, .unknownCommand 0x06 []], ∀ q ∈ [[], [Instr.frame c]], let s := withLink .sending q ready
      s.port.prst = false ∧ s.link.activity = .sending ∧ Instr.mustWait c s = false ∧ s.link.queue = q ∧ (Instr.frame c).spells = .command c) ∧
    (withLink .reset (List.replicate 3 (.discarded 0)) ready).link.receiving = false ∧ (withLink .reset [.receiving 0 (some 3)] ready).link.receiving = true ∧
    ready.takesFrame (.frameError 0) ready ∧ ready.takesFrame (.unknownCommand 0x06 []) ready ∧ (0x06 : Byte) ∉ Config.commandCodes ∧
    (0x01 : Byte) ∈ Config.commandCodes :=
  ⟨by decide, by decide, by decide, by decide, by decide, (ready_takes _).1, (ready_takes _).1, by decide, by decide⟩

/-- A command whose row comes while a response is on the line is taken once that has left it (R186). -/
theorem test_taken_after_response : (withLink .sending [] ready).takes .identify ready ∧
    exec .identify (withLink .sending [] ready) = exec .identify ready ∧ step (withLink .sending [Instr.frame .identify] ready) =
      .next { withLink .idle [Instr.frame .identify] ready with timeBase := 1 } :=
  ⟨⟨⟨rfl, .inr rfl, rfl, .inl ⟨rfl, rfl⟩⟩, OverlaySurvey.noConfusion⟩, rfl, rfl⟩

theorem witness_FramesArriveAndEnd :
    (∀ n ∈ [3, 4], (withLink .idle (List.replicate n (.discarded 0)) ready).port.prst = false ∧
      (withLink .idle (List.replicate n (.discarded 0)) ready).link.receiving = false) ∧
    (∀ n ∈ [0, 49999, 50000], let s := at_ n (withLink .idle [.discarded 0, .receiving 0 (some 3)] ready)
      s.link.queue = [.discarded 0] ++ [.receiving 0 (some 3)] ∧ s.elapsed 0 = n ∧ s.holdDue = false ∧ s.pollDue = false) ∧
    (leBytes 2 0 ++ [0x01] ++ [] ++ [0xFF]).foldl (· + ·) 0 = 0#8 ∧ (leBytes 2 0 ++ [0x01] ++ [] ++ [0xFE]).foldl (· + ·) 0 ≠ 0#8 := by decide

/-- A held cycle whose hold limit is 50 ms. -/
def shortHold (q : List Frame) : State :=
  { withLink .idle q ready with
    port := { ready.port with inFlight := some (cycle .pass .read .held false) }
    run := { (inState .holding [claim 0]).run with origin := some { source := .halt, level := some 0 }, timer := some { start := 0, limit := 50 } } }

/-- A late frame at whose limit another is due: the hold limit, the limit of a READY_LINE poll. -/
theorem witness_FramesArriveAndEnd_otherLimits :
    ((shortHold [.discarded 0, .receiving 0 none]).link.queue = [.discarded 0] ++ [.receiving 0 none] ∧
      (let t := at_ 50000 (shortHold [.discarded 0, .discarded 3])
       t.elapsed 0 = 50000 ∧ t.holdDue = true ∧ t.takeDue.run.hold = .resetHeld)) ∧
    ((withLink .idle [.receiving 0 (some 3)] (pollingState .eraseSector .readyLine)).link.queue = [] ++ [.receiving 0 (some 3)] ∧
      (let t := at_ 50000 (withLink .idle [.discarded 3] (pollingState .eraseSector .readyLine))
       t.pollDue = true ∧ t.takeDue.bus.owner ≠ .free)) ∧
    ((at_ 50000 (shortHold [])).link.receiving = false ∧ (at_ 50000 (shortHold [])).holdDue = true) := by decide +kernel

theorem test_late_frame_ends_hold :
    exec (.lateFrame (some 3)) (shortHold [.discarded 0, .receiving 0 none]) = .next (at_ 50000 (shortHold [.discarded 0, .discarded 3])).takeDue := rfl

/-- The echo of a late frame: its code byte, or 0x00 where none had arrived (R185). -/
theorem test_late_echo : (at_ 50000 (withLink .idle [.receiving 0 (some 3)] ready)).dropDue.link.queue = [.discarded 3] ∧
    (at_ 50000 (withLink .idle [.receiving 0 none] ready)).dropDue.link.queue = [.discarded 0] := by decide

theorem witness_LinkRateAndResetPart :
    (∀ c, ready.takes c ready) ∧ 3 < 4 ∧ ready.link.rate = 0 ∧ ready.link.rate ≠ 3 ∧
    (withLink (.rateChange 3) [.receiving 0 (some 3)] ready).link.activity = .rateChange 3 ∧ (withLink (.rateChange 3) [] ready).link.receiving = false ∧
    ready.link.activity = .idle :=
  ⟨ready_takes, by decide⟩

theorem reset_takesFrame (c : Instr) (h : Instr.mustWait c State.reset = false) : State.reset.takesFrame c State.reset :=
  ⟨by decide, .inl rfl, h, .inl ⟨by decide, rfl⟩⟩

theorem witness_IdentifyAnswersPart :
    ready.takesFrame .identify ready ∧ State.reset.takesFrame .identify State.reset ∧ State.reset.listFormed ∧ State.reset.overlay.survey = .powerOn :=
  ⟨(ready_takes _).1, reset_takesFrame _ rfl, by decide +kernel, rfl⟩

theorem witness_NoticesLatchUntilRead :
    ready.takesFrame .readNotices ready ∧ (ready.latch .hold).takesFrame .readNotices (ready.latch .hold) ∧ ready.endsReset .partReset ∧
    (inReset ready).endsReset .prstReleased ∧ benchCommand .resume = true ∧ benchCommand .readNotices = true ∧ State.reset.takesFrame .resume State.reset ∧
    State.reset.takesFrame .readNotices State.reset ∧ State.reset.overlay.survey = .powerOn :=
  ⟨(ready_takes _).1, (takesNow (by decide) _).1, endsReset_forms.2.1, endsReset_forms.1, by decide, by decide, reset_takesFrame _ rfl, reset_takesFrame _ rfl, rfl⟩

theorem witness_NoticeMaskDrivesAttn :
    ready.takes (.setNoticeMask 0x8000) ready ∧ ready.takesFrame .readNotices ready ∧ ready.endsReset .partReset ∧ (ending .bench).endsReset (.boardAccessEnd 0) :=
  ⟨ready_takes _, (ready_takes _).1, endsReset_forms.2.1, endsReset_forms.2.2.2.2.1⟩

theorem witness_SetWindowWritesOrRefuses :
    (∀ c, ready.takes c ready) ∧ (∀ c, (surveying .commanded ready).takes c (surveying .commanded ready)) ∧
    (15 < 16 ∧ 4095 < (windowFields 4096 4096 0 none none).firstPage ∧ 4095 < (windowFields 0 4096 0 none none).lastPage ∧
      (windowFields 1 0 0 none none).lastPage < 1 ∧ (3 < 4 ∧ 4 ≠ 8) ∧ 5 < (windowFields 0 0 6 none none).kind ∧
      (windowFields 0 0 4 none (some 8)).guardLevel = some 8) ∧
    (LaneSel.ofCode 8 = some .any ∧ LaneSel.ofCode 3 = some (.lane 3) ∧ Route.ofCode 5 = some .float ∧ Route.ofCode 4 = some .guard ∧
      Route.ofCode 1 = some .overlay ∧ Route.overlay.isOverlay = true) ∧
    (ready.overlay.capacity ≤ 1 + (255 - 0) ∧ 0 + (255 - 0) < ready.overlay.capacity) ∧ (surveying .commanded ready).overlay.survey = .commanded :=
  ⟨ready_takes, takesNow (by decide), by decide, by decide, by decide +kernel, rfl⟩

theorem witness_ClearWindowDisablesRecord : (∀ i ∈ [15, 16], ready.takes (.clearWindow i) ready) ∧ ready.windows[15].enabled = false :=
  ⟨fun _ _ => ready_takes _, by decide⟩

theorem witness_ReadWindowAndSetFloat : (∀ i ∈ [15, 16], ready.takes (.readWindow i) ready) ∧ ready.takes (.setFloat 0) ready :=
  ⟨fun _ _ => ready_takes _, ready_takes _⟩

theorem witness_ResolutionTakesLowestWindow :
    (∀ i : Fin 16, ready.windows[i].covers (0xFFFFF / 256) none = false) ∧
    (let ws := ready.windows.set 15 (window .shadow (some 0) none)
     ws[(15 : Fin 16)].covers (0xFFFFF / 256) none = true ∧ (∀ j : Fin 16, j < 15 → ws[j].covers (0xFFFFF / 256) none = false) ∧
       ws[(15 : Fin 16)].kind = .shadow ∧ ws[(15 : Fin 16)].origin = some 0) ∧
    (let ws := ready.windows.set 0 (window .float none none)
     ws[(0 : Fin 16)].covers 0 none = true ∧ ws[(0 : Fin 16)].kind = .float) := by decide

/-- All four selects and the fetch status wired. -/
def sensing : State := { ready with port := { ready.port with fetchWired := true, selectEnables := 15 } }

theorem witness_PresentationFillsCycle :
    (sensing.port.fetchWired = true ∧ sensing.port.selectEnables.getLsbD 0 = true) ∧
    (sensing.targetCycle 5 (some 7) false 3).contention = true ∧ (sensing.targetCycle 5 none true 2).lane = some 1 ∧
    (sensing.targetCycle 5 none true 2).kind = .fetch ∧ (ready.targetCycle 5 none true 0).kind = .read := by decide

theorem witness_OverlaySurveyCommands :
    (∀ c, ready.takes c ready) ∧ (∀ c, (surveying .commanded ready).takes c (surveying .commanded ready)) ∧
    (let t := withWindow (window .overlay (some 0) none) ready
     t.takes .surveyOverlay t ∧ t.overlay.survey ≠ .commanded ∧ t.windows[(0 : Fin 16)].enabled = true ∧ t.windows[(0 : Fin 16)].kind.isOverlay = true) ∧
    (let t := holding (cycle .shadow .read .held false) [claim 0] false
     t.takes .surveyOverlay t ∧ t.port.inFlight = some (cycle .shadow .read .held false) ∧ (cycle .shadow .read .held false).route.isOverlay = true) ∧
    (∀ i : Fin 16, ready.windows[i].enabled = true → ready.windows[i].kind.isOverlay = false) ∧ ready.port.inFlight = none :=
  ⟨ready_takes, takesNow (by decide), ⟨takesNow (by decide) _, by decide⟩, ⟨takesNow (by decide) _, by decide⟩, by decide, by decide⟩

/-- A command whose frame is the only one in the receive queue. -/
theorem takesQueued (c : Instr) (h : (Instr.frame c).spells = .command c ∧ Instr.mustWait c (withLink .idle [Instr.frame c] ready) = false) :
    (withLink .idle [Instr.frame c] ready).takes c ready := ⟨⟨rfl, .inl rfl, h.2, .inr ⟨_, _, rfl, h.1, rfl⟩⟩, OverlaySurvey.noConfusion⟩

theorem witness_OverlayBytesWrittenAndRead :
    (∀ c, ready.takes c ready) ∧ ready.memoryWf ∧ (∀ c, (surveying .commanded ready).takes c (surveying .commanded ready)) ∧
    ready.overlay.survey ≠ .commanded ∧ (([] : List Byte).length = 0 ∧ 256 < (List.replicate 257 (0 : Byte)).length) ∧
    (ready.overlay.capacity ≤ 256 ∧ 256 < 255 + ([1, 2] : List Byte).length) ∧
    (255 < ready.overlay.capacity ∧ 255 + ([1] : List Byte).length ≤ 256 ∧ 0 + (List.replicate 256 (0 : Byte)).length ≤ 256) ∧
    (∀ c ∈ [Instr.writeOverlay 255 255 [1], .readOverlay 255 255 1], (withLink .idle [Instr.frame c] ready).takes c ready ∧
      (withLink .idle [Instr.frame c] ready).link.queue ≠ []) ∧
    (∀ write ∈ [none, some 7], ∀ rest ∈ [[], [byteOn .overlay none]],
      let b : TransferByte := { address := 255 * 256 + 255, write := write, route := .overlay, location := some { page := 255, offset := 255 } }
      let tr : Transfer := { form := if write.isSome then .writeOverlay else .readOverlay, bytewise := true, todo := b :: rest, made := [], count := 0 }
      let s := withLink (.transfer tr) [.discarded 0] ready
      s.pending = [] ∧ s.port.prst = false ∧ s.link.activity = .transfer tr ∧ s.transferMapped = true ∧ ∀ b ∈ rest, b.route = .overlay) :=
  ⟨ready_takes, by decide, takesNow (by decide), by decide, by decide +kernel, by decide +kernel, by decide +kernel, fun c hc => by
    rcases List.mem_cons.1 hc with rfl | hc
    · exact ⟨takesQueued _ (by decide), List.cons_ne_nil _ _⟩
    · rcases List.mem_singleton.1 hc with rfl; exact ⟨takesQueued _ (by decide), List.cons_ne_nil _ _⟩, by decide +kernel⟩

theorem witness_LogicalPagesSkipListed :
    ({ cells := [], repairList := [0, 2], survey := .idle } : Overlay).physicalPage 255 = some 257 ∧
    ({ cells := [], repairList := [0, 2], survey := .idle } : Overlay).physicalPage 0 = some 1 ∧
    (∀ k ∈ [255, 256], ({ cells := [], repairList := [0, 2], survey := .idle } : Overlay).maps { page := k, offset := 0 } = decide (k = 255)) := by decide +kernel

theorem witness_WatchCommands :
    (∀ c, ready.takes c ready) ∧ (3 < 4 ∧ 3 < (watchFields 4 7 1).mode ∧ (watchFields 1 0 1).kinds = 0 ∧ 8 ≤ (watchFields 1 8 1).kinds.toNat ∧
      (watchFields 1 7 0).countA = 0 ∧ ({ watchFields 3 7 1 with countB := 0 } : WatchFields).countB = 0 ∧
      ({ watchFields 1 7 1 with probe := some (4, 0) } : WatchFields).probe = some (4, 0) ∧
      ({ watchFields 1 7 1 with actions := 1, holdLevel := 8 } : WatchFields).actions.getLsbD 0 = true) ∧
    (watchFields 0 7 1).mode = 0 ∧
    (let w := watchFields 3 7 1
     ¬(3 < 3 ∨ 3 < w.mode ∨ (w.mode ≠ 0 ∧
      ((3 < w.lane ∧ w.lane ≠ 8) ∨ 0xFFFFF < w.firstAddress ∨ 0xFFFFF < w.lastAddress ∨ w.lastAddress < w.firstAddress ∨ w.kinds = 0 ∨ 8 ≤ w.kinds.toNat ∨
       w.countA = 0 ∨ (w.mode = 3 ∧ w.countB = 0) ∨ (w.mode ≠ 3 ∧ w.actions.getLsbD 0 = true ∧ 7 < w.holdLevel)))) ∧
     w.probe = none ∧ WatchMode.ofCode w.mode = some .gate ∧ LaneSel.ofCode w.lane = some .any) :=
  ⟨ready_takes, by decide, rfl, by decide⟩

/-- A unit that tests every cycle. -/
def unit (mode : WatchMode) (state : WatchState) (mask : Byte) (left : Nat) : WatchUnit :=
  { WatchUnit.initial with mode := mode, state := state, lastAddress := 0xFFFFF, kinds := 7, dataMask := mask, countA := 2, countB := some 3, remaining := left,
                           chained := true }

theorem witness_WatchJudgesAndCounts :
    (unit .once .spent 0 1).state = .spent ∧ (unit .once .armed 0 1).meets (cycle .pass .read .arriving false) = true ∧
    ({ unit .once .armed 0 1 with kinds := 0 } : WatchUnit).meets (cycle .pass .read .arriving false) = false ∧ (unit .once .armed 0xFF 1).dataMask ≠ 0 ∧
    (cycle .pass .read .arriving false).kind ≠ .write ∧ (cycle .pass .write .arriving false).writeData = some 1 ∧ 1 < (unit .every .armed 0 2).remaining ∧
    (∀ u ∈ [unit .once .armed 0 1, unit .every .armed 0 1, unit .gate .opened 0 1, unit .gate .shut 0 1], u.remaining = 1 ∧ u.countB = some 3) ∧
    ((unit .once .dormant 0 1).chained = true ∧ (unit .once .dormant 0 1).state = .dormant) ∧ (unit .once .armed 0 1).state ≠ .dormant := by decide

/-- A unit that fires at its next match, with every action. -/
def firing (state : WatchState) (mask : Byte) (pending : Bool) : WatchUnit :=
  { unit .every state mask 1 with actions := { hold := some 7, note := true, traceStart := true, traceStop := true }, pendingData := pending }

theorem witness_WatchEvaluationSetsUnits :
    (cycle .pass .read .arriving false).matched = 0 ∧ (cycle .pass .read .arriving false).fired = 0 ∧
    (unit .once .armed 0 1).verdict (cycle .pass .read .arriving false) = .matched ∧
    (unit .once .armed 1 1).verdict (cycle .pass .read .arriving false) = .deferred ∧
    (unit .once .spent 0 1).verdict (cycle .pass .read .arriving false) = .ignored ∧
    ((firing .armed 0 false).verdict (cycle .pass .read .arriving false) = .matched ∧ (firing .armed 0 false).afterMatch.2 = true ∧
      (firing .armed 0 false).actions.hold = some 7 ∧ (inState .running []).run.hold ≠ .holding) ∧
    (∀ u ∈ [firing .armed 0xFF true, { firing .armed 0xFF true with remaining := 2 }, firing .armed 0xFF false],
      let s : State := { ready with watch := Vector.replicate 4 u }
      s.watch[(3 : Fin 4)] = u ∧ (0x55 : Byte) &&& u.dataMask ≠ u.dataValue &&& u.dataMask ∧ (0 : Byte) &&& u.dataMask = u.dataValue &&& u.dataMask ∧
        (recordMatch (3 : Fin 4) (s.watch.set 3 { u with pendingData := false })).2 = decide (u.remaining = 1)) ∧
    (∀ i : Fin 4, ready.watch[i].pendingData = false) ∧
    (∀ n ∈ [0, 1], ∀ x ∈ [CaptureState.recording, .waiting],
      let s : State := { ready with trace := { ready.trace with capture := x, setup := { ready.trace.setup with postCount := n } } }
      s.trace.capture = x ∧ s.trace.setup.postCount = n) ∧
    (∀ w ∈ [window .guard none none, window .guard none (some 7), window .overlay (some 0) none, window .pass none none],
      let s := withWindow w (inState .running [])
      s.mayPresent = true ∧ (s.targetCycle 5 (some 1) false 0).location.all s.overlay.maps = true ∧ (s.targetCycle 5 (some 1) false 0).route = w.kind ∧
        (resolve s.windows 5 none).guardLevel = w.guardLevel) := by decide +kernel

theorem witness_ProbeCommands :
    (∀ c, ready.takes c ready) ∧ 3 < 4 ∧ 3 < (probeFields 4 none).sense ∧ (probeFields 0 (some 8)).holdLevel = some 8 ∧ 7 < 8 ∧
    Sense.ofCode (probeFields 3 (some 7)).sense = some .both :=
  ⟨ready_takes, by decide⟩

theorem witness_ProbeEdgeStampsAndActs :
    (let s : State := { ready with probes := Vector.replicate 4 { ProbeLine.initial false with sense := .rise, holdLevel := some 7 } }
     s.port.prst = false ∧ s.probes[(3 : Fin 4)].level ≠ true ∧ s.probes[(3 : Fin 4)].sense = .rise ∧ s.probes[(3 : Fin 4)].level = false ∧
       s.probes[(3 : Fin 4)].holdLevel = some 7 ∧ s.cycleMapped = true) ∧
    ready.probes[(0 : Fin 4)].sense = .off ∧ ready.probes[(0 : Fin 4)].holdLevel = none := by decide

/-- No unit tests a cycle, and none waits for its data. -/
abbrev quietUnits (s : State) : Prop := ∀ i : Fin 4, s.watch[i].matching = false ∧ s.watch[i].pendingData = false

theorem witness_CycleServedInside :
    (∀ w ∈ [window .float none none, window .overlay (some 0) none, window .overlayRo (some 0) none, window .shadow (some 0) none, window .guard none none],
      let s := withWindow w (inState .running [])
      s.mayPresent = true ∧ quietUnits s ∧ s.run.hold = .running ∧ (s.targetCycle 5 none false 0).route = w.kind ∧ (s.targetCycle 5 (some 1) false 0).route = w.kind ∧
        (w.kind.isOverlay = true → (s.targetCycle 5 none false 0).location = some { page := 0, offset := 5 }) ∧ s.overlay.maps { page := 0, offset := 5 } = true ∧
        (resolve s.windows 5 none).guardLevel = none) ∧
    ready.mayPresent = false := by decide +kernel

theorem witness_CycleSentToBoard :
    (∀ w ∈ [window .pass none none, window .guard none none, window .shadow (some 0) none],
      let s := withWindow w (inState .running [])
      s.mayPresent = true ∧ quietUnits s ∧ s.run.hold = .running ∧ (s.targetCycle 5 none false 0).route = w.kind) ∧
    (withWindow (window .shadow (some 0) none) (inState .running [])).overlay.maps { page := 0, offset := 5 } = true ∧
    ((inState .running []).bus.owner = .free ∧ (inState .running []).busKept = true ∧ (wired (inState .running [])).busKept = false) ∧
    (∀ n ∈ [3, 4],
      let s := { wired (inState .running []) with bus := { ready.bus with bench := some n, engine := some { aging := n, work := .lineSurvey } } }
      s.mayPresent = true ∧ s.busKept = false ∧ s.bus.owner = .free ∧ s.bus.bench = some n) ∧
    (ownedBy .bench (inState .running [])).mayPresent = true ∧ (ownedBy .bench (inState .running [])).bus.owner = .bench := by decide +kernel

theorem witness_GuardedWriteIsHeld :
    (∀ level ∈ [0, 7],
      let s := withWindow (window .guard none (some level)) (wired (inState .running []))
      s.mayPresent = true ∧ quietUnits s ∧ s.run.hold = .running ∧ s.run.rehearsal = false ∧ s.run.claims = [] ∧
        (s.targetCycle 5 (some 1) false 0).route = .guard ∧ (resolve s.windows 5 none).guardLevel = some level ∧ level < s.run.floor ∧ s.port.waitWired = true) ∧
    (let s := withWindow (window .guard none (some 7)) (inState .running [])
     s.mayPresent = true ∧ s.port.waitWired = false ∧ 7 < s.run.floor) ∧
    ((inState .running []).withFloor 7).run.floor ≤ 7 := by decide +kernel

theorem witness_ArmedHoldTakesCycle :
    (∀ l ∈ [[claim 0], [stepClaim .any false], [stepClaim .fetch false]],
      let s := withWindow (window .float none none) (wired (inState .holdArmed l))
      s.mayPresent = true ∧ quietUnits s ∧ s.run.hold = .holdArmed ∧ (s.targetCycle 5 none false 0).location.all s.overlay.maps = true ∧
        (s.targetCycle 5 none false 0).route = .float ∧ s.run.anyLive = true) ∧
    ((wired (inState .holdArmed [claim 0])).run.anyHolding = true ∧ (wired (inState .holdArmed [stepClaim .any false])).run.stepAdmits .read = true) ∧
    ((wired (inState .holdArmed [stepClaim .fetch false])).run.anyHolding = false ∧
      (wired (inState .holdArmed [stepClaim .fetch false])).run.stepAdmits .read = false) ∧
    ((inState .holdArmed []).run.hold = .holdArmed ∧ (inState .holdArmed []).run.anyLive = false) ∧
    (∃ k ∈ (inState .holdArmed [claim 0]).run.claims, k.holding (inState .holdArmed [claim 0]).run.floor = true) ∧
    (let c := { cycle .guard .write .arriving false with raised := [.halt] }
     let s := inState .running [claim 7]
     s.run.hold = .running ∧ (∃ source ∈ c.raised, ∃ k, s.run.claimOf source = some k ∧ k.live s.run.floor = true) ∧ (wired s).port.waitWired = true ∧
       ¬(s.run.rehearsal = true ∨ s.port.waitWired = true)) ∧
    ¬(∃ source ∈ (cycle .pass .read .arriving false).raised, ∃ k, ready.run.claimOf source = some k ∧ k.live ready.run.floor = true) ∧
    (∀ h ∈ [HoldState.holding, .resetHeld, .unpowered], (inState h []).run.hold = h) :=
  ⟨by decide +kernel, by decide, by decide, by decide, ⟨claim 0, .head _, rfl⟩,
   ⟨rfl, ⟨.halt, .head _, claim 7, rfl, rfl⟩, rfl, by decide⟩, (fun ⟨_, h, _⟩ => nomatch h), by decide⟩

theorem witness_BoardAccessEnds :
    (∀ c ∈ [cycle .pass .read .performing false, cycle .pass .write .performing false, cycle .pass .read .performing true],
      let s := ownedBy .target { ready with port := { ready.port with inFlight := some c } }
      s.port.prst = false ∧ s.bus.owner = .target ∧ s.port.inFlight = some c ∧ c.stopAfter = false ∧ quietUnits s) ∧
    (∀ a ∈ [Activity.inject, .release, .floor, .sending, .idle], (withLink a [] ready).link.activity = a) ∧
    ((cycle .pass .read .performing true).injected = true ∧ (cycle .pass .read .performing false).injected = false) ∧
    (∀ o ∈ [Owner.engine (.accesses 0 [{ address := 0, write := none }]), .engine (.accesses 0 [{ address := 0, write := none }, { address := 1, write := none }]),
        .ended 0 { address := 0, write := none }, .free, .engine .lineSurvey], (ownedBy o ready).bus.owner = o ∧ (ownedBy o ready).port.prst = false) ∧
    (∀ form ∈ [TransferForm.peek, .poke], ∀ b ∈ [byteOn .pass none, byteOn .pass (some 7), byteOn .guard none, byteOn .shadow (some 7)],
      ∀ rest ∈ [[], [byteOn .pass none], [byteOn .overlay (some 7)]], ∀ bytewise ∈ [false, true],
      (ownedBy .bench (transferring form bytewise (b :: rest))).bus.owner = .bench ∧
        (ownedBy .bench (transferring form bytewise (b :: rest))).link.activity = moving form bytewise (b :: rest) ∧
        (ownedBy .bench (transferring form bytewise (b :: rest))).transferMapped = true) ∧
    (byteOn .pass none).boardBound = true := by
  decide +kernel

theorem witness_RaisedClaimIsEntered :
    (inState .holding []).run.claimOf .halt = none ∧ (inState .running [claim 7]).run.claimOf .halt = some (claim 7) ∧
    ¬((inState .running [claim 7]).run.hold = .holding ∧ (inState .running [claim 7]).writeActive = true) ∧
    (let s := withJobs .flash [job 0 .eraseLane (.active (active .eraseRun))] ((inState .holding [claim 0]).withFloor 1)
     s.run.claimsFormed ∧ s.run.hold = .holding ∧ s.writeActive = true ∧ (claim 0).holding s.run.floor = true ∧ (claim 7).holding s.run.floor = false ∧
       ∀ k ∈ s.run.claims, k.source ≠ .halt → k.holding s.run.floor = false) ∧
    (let s := withJobs .flash [job 0 .eraseLane (.active (active .eraseRun))]
       ((inState .holding [{ claim 0 with source := .probe 0 }, claim 0]).withFloor 1)
     s.run.claimOf .halt = some (claim 0) ∧ s.run.hold = .holding ∧ s.writeActive = true ∧ (claim 7).holding s.run.floor = false ∧
       ∃ k ∈ s.run.claims, k.source ≠ .halt ∧ k.holding s.run.floor = true) ∧
    ((inState .running [claim 7]).run.hold = .running ∧ (∃ k, (inState .running [claim 7]).run.claimOf .halt = some k ∧ k.live 8 = true) ∧
      (wired (inState .running [claim 7])).port.waitWired = true ∧ (rehearsing .running []).run.rehearsal = true ∧
      ¬((inState .running []).run.rehearsal = true ∨ (inState .running []).port.waitWired = true)) ∧
    ¬(∃ k, (inState .running []).run.claimOf .halt = some k ∧ k.live 8 = true) ∧
    ((inState .holdArmed [claim 7]).run.anyLive = true ∧ ((inState .holdArmed [claim 7]).withFloor 7).run.anyLive = false) ∧
    (∀ h ∈ [HoldState.holding, .resetHeld, .unpowered], (inState h []).run.hold = h) ∧
    (let r : Raise := { source := .halt, level := some 1, address := none, window := none, step := none }
     (((inState .holding [claim 0]).withFloor 1).enterClaim r).run.anyHolding = false ∧ ((inState .holding [claim 0]).enterClaim r).run.anyHolding = true) :=
  ⟨by decide, by decide, by decide, by decide, by decide, ⟨rfl, ⟨claim 7, rfl, rfl⟩, by decide⟩, (fun ⟨_, h, _⟩ => nomatch h), by decide, by decide, by decide⟩

/-- HALT's claim and PROBE 0's, at the floor 1. -/
def twoClaims (h : HoldState) : State := (inState h [{ claim 0 with source := .probe 0 }, claim 0]).withFloor 1

theorem witness_HaltRaisesClaim :
    (∀ h ∈ [HoldState.running, .holdArmed, .resetHeld, .unpowered], ∀ c, (inState h [claim 0]).takes c (inState h [claim 0])) ∧
    (let t := wired (holding (cycle .pass .read .held false) [claim 0] false)
     t.takes (.halt 7) t ∧ t.run.hold = .holding ∧ 7 < t.run.floor ∧ t.cycleMapped = true) ∧
    7 < 8 ∧ (wired (inState .running [])).port.waitWired = true ∧ (inState .running []).port.waitWired = false ∧ ((inState .running []).withFloor 7).run.floor ≤ 7 ∧
    (∀ h ∈ [HoldState.holdArmed, .holding],
      let t := (inState h [claim 0]).withFloor 1
      t.run.hold = h ∧ t.run.floor ≤ 1 ∧ t.run.claimsFormed ∧ (∀ k ∈ t.run.claims, k.source ≠ .halt → k.live t.run.floor = false) ∧
        (∀ k ∈ t.run.claims, k.source ≠ .halt → k.holding t.run.floor = false) ∧ t.writeActive = false ∧ t.cycleMapped = true ∧ t.port.prst = false) ∧
    (∀ h ∈ [HoldState.holdArmed, .holding],
      (∃ k ∈ (twoClaims h).run.claims, k.source ≠ .halt ∧ k.live (twoClaims h).run.floor = true) ∧
      ∃ k ∈ (twoClaims h).run.claims, k.source ≠ .halt ∧ k.holding (twoClaims h).run.floor = true) ∧
    (let t := withJobs .flash [job 0 .eraseLane (.active (active .eraseRun))] ((inState .holding [claim 0]).withFloor 1)
     t.takes (.halt 1) t ∧ t.writeActive = true ∧ t.run.claimsFormed ∧ t.run.claimOf .halt = some (claim 0) ∧ (claim 0).holding t.run.floor = true) :=
  ⟨fun h _ => takesNow ⟨rfl, rfl, rfl, OverlaySurvey.noConfusion, rfl⟩, ⟨takesNow (by decide) _, by decide⟩, by decide, by decide, by decide, by decide, by decide,
   by decide, ⟨takesNow (by decide) _, by decide⟩⟩

theorem witness_HoldOptionsReplaced :
    (∀ c, ready.takes c ready) ∧ 60000 < (holdFields true 60001 0).holdLimit ∧ 3 < (holdFields true 0 4).threshold ∧ (holdFields true 60000 3).threshold = (3 : Fin 4).val ∧
    (let t := holding (cycle .pass .read .held false) [claim 0] false
     t.takes (.setHoldOptions (holdFields true 0 1)) t ∧ t.run.hold = .holding ∧ (holdFields true 0 1).waitWired ≠ t.port.waitWired) ∧
    (ready.port.fetchWired = false ∧ ready.run.hold ≠ .holding ∧ (1 : Fin 4) = ready.run.threshold ∧ (3 : Fin 4) ≠ ready.run.threshold) ∧
    (let t := wired (inState .holdArmed [claim 0])
     t.takes (.setHoldOptions (holdFields false 0 1)) t ∧ t.port.waitWired = true ∧ t.run.rehearsal = false ∧ t.run.hold ≠ .holding ∧
       (holdFields false 0 1).fetchWired = true) :=
  ⟨ready_takes, by decide, by decide, by decide, ⟨takesNow (by decide) _, by decide⟩, by decide, ⟨takesNow (by decide) _, by decide⟩⟩

/-- A changed threshold index, not barred, with the wiring as it was and changed. -/
theorem witness_HoldOptionsReplaced_threshold :
    (∀ wait ∈ [true, false], (holdFields wait 60000 3).threshold = (3 : Fin 4).val ∧ (holdFields wait 60000 3).holdLimit ≤ 60000 ∧
      ready.takes (.setHoldOptions (holdFields wait 60000 3)) ready) ∧
    ready.run.hold ≠ .holding ∧ ready.port.fetchWired = false ∧ (3 : Fin 4) ≠ ready.run.threshold ∧
    (holdFields false 60000 3).waitWired = ready.port.waitWired ∧ (holdFields true 60000 3).waitWired ≠ ready.port.waitWired :=
  ⟨fun wait h => ⟨by revert h; revert wait; decide, by revert h; revert wait; decide, ready_takes _⟩, by decide⟩

theorem witness_FloorJudgesClaims :
    (∀ c, ready.takes c ready) ∧ 8 < 9 ∧ ready.run.hold = .resetHeld ∧
    (let t := wired (inState .holdArmed [claim 0])
     t.takes (.setFloor 0) t ∧ t.run.hold = .holdArmed ∧ (t.withFloor 0).run.anyLive = false ∧ (t.withFloor 8).run.anyLive = true) ∧
    (let t := (inState .running [claim 7]).withFloor 0
     t.takes (.setFloor 8) t ∧ t.run.hold = .running ∧ (claim 7).live 8 = true ∧ (claim 7).live t.run.floor = false ∧ t.run.rehearsal = false ∧
       t.port.waitWired = false ∧ (wired t).port.waitWired = true) ∧
    (∀ injected ∈ [true, false],
      let t := holding (cycle .pass .read .held injected) [claim 0] injected
      t.run.hold = .holding ∧ (t.withFloor 0).run.anyHolding = false ∧ t.writeActive = false ∧ t.cycleMapped = true ∧ (t.withFloor 8).run.anyHolding = true) ∧
    (withJobs .flash [job 0 .eraseLane (.active (active .eraseRun))] ready).writeActive = true :=
  ⟨ready_takes, by decide, rfl, ⟨takesNow (by decide) _, by decide⟩, ⟨takesNow (by decide) _, by decide⟩, by decide, by decide⟩

/-- A held read with a TRACE_STOP that waits for its record or with none, presented by the target or injected. -/
def stopping (r : Route) (stop injected : Bool) : Cycle := { cycle r .read .held injected with stopAfter := stop }

def heldAgain (r : Route) (stop injected : Bool) : State := holding (stopping r stop injected) [claim 0] injected

theorem witness_HoldEndsBeforeCycleGoesOn :
    (∀ r ∈ [Route.float, .pass], ∀ stop ∈ [false, true], ∀ injected ∈ [false, true],
      (heldAgain r stop injected).port.inFlight = some (stopping r stop injected) ∧ (stopping r stop injected).injected = injected ∧
        (stopping r stop injected).stopAfter = stop ∧ (heldAgain r stop injected).run.origin = some { source := .halt, level := some 0 } ∧
        quietUnits (heldAgain r stop injected)) ∧
    (ownedBy .bench ready).bus.owner ≠ .free ∧ (ownedBy .bench ready).bus.owner ≠ .target ∧
    (let asked : State → State := fun s => State.arbitrate { s with bus := { s.bus with target := true } }
     (asked ready).bus.owner = .target ∧ (asked (ownedBy .bench ready)).bus.owner ≠ .target) ∧
    (∀ r ∈ [Route.pass, .guard, .float, .overlayRo], (cycle r .write .arriving false).route = r ∧ (cycle r .write .arriving false).kind = .write) ∧
    (∀ r ∈ [Route.overlay, .overlayRo, .shadow],
      let c := { cycle r .fetch .arriving false with location := some { page := 0, offset := 255 } }
      c.route = r ∧ c.location = some { page := 0, offset := 255 } ∧ c.kind ≠ .write) ∧
    (∀ r ∈ [Route.overlay, .shadow],
      let c := { cycle r .write .arriving true with location := some { page := 0, offset := 255 } }
      c.route = r ∧ c.kind = .write ∧ c.writeData = some 1) := ⟨by decide, by decide⟩

theorem witness_ReleaseRemovesClaims :
    (∀ c, ready.takes c ready) ∧ ((10 < 11 ∧ 11 ≠ 255) ∧ 2 < 3 ∧ (some 2 : Option Nat) ≠ some 0) ∧ ready.run.hold ≠ .holding ∧ ready.run.claims = [] ∧
    ready.port.fetchWired = false ∧
    (∀ injected ∈ [true, false],
      let t := holding (cycle .pass .read .held injected) [claim 0] injected
      (∀ c, t.takes c t) ∧ t.run.hold = .holding ∧ (∃ k ∈ t.run.claims, k.source.code = 9) ∧ t.writeActive = false ∧ t.cycleMapped = true ∧
        releaseMode 0 none none = some .proceed ∧ (releaseMode 1 (some 7) none).isSome = true ∧ (releaseMode 2 none (some 0)).isSome = true) ∧
    (∀ h ∈ [HoldState.holdArmed, .running, .resetHeld, .unpowered], (inState h [claim 0]).run.hold = h ∧ (inState h [claim 0]).run.claims ≠ []) ∧
    ({ twoClaims .holding with run := { (twoClaims .holding).run with claims := (twoClaims .holding).run.claims.filter (fun k => decide (k.source.code ≠ 9)) } }
      : State).run.anyHolding = true ∧
    (withJobs .flash [job 0 .eraseLane (.active (active .eraseRun))] (inState .holding [claim 0])).writeActive = true ∧
    (let s := holding (cycle .pass .read .held false) [claim 0, stepClaim .any false] false
     s.port.inFlight = some (cycle .pass .read .held false) ∧ s.run.origin = some { source := .halt, level := some 0 }) :=
  ⟨ready_takes, by decide, by decide, by decide, by decide, fun i hi => by
    rcases List.mem_cons.1 hi with rfl | hi
    · exact ⟨takesNow (by decide), by decide⟩
    · rcases List.mem_singleton.1 hi with rfl; exact ⟨takesNow (by decide), by decide⟩, by decide, by decide, by decide, by decide⟩

theorem witness_TargetResetCutsOff :
    (∀ h ∈ [HoldState.unpowered, .running], ∀ c, (inState h []).takes c (inState h [])) ∧
    (let t := holding (cycle .pass .read .held false) [claim 0] false
     t.takes .resetTarget t ∧ t.run.hold ≠ .unpowered ∧ t.port.inFlight = some (cycle .pass .read .held false) ∧ (cycle .pass .read .held false).phase = .held ∧
       t.run.origin = some { source := .halt, level := some 0 } ∧ t.run.timer = some { start := 0, limit := 60000 } ∧ t.port.prst = false) ∧
    ready.port.inFlight = none ∧ ready.run.timer = none :=
  ⟨fun h _ => takesNow ⟨rfl, rfl, rfl, OverlaySurvey.noConfusion, rfl⟩, ⟨takesNow (by decide) _, by decide⟩, by decide⟩

/-- A cycle that a reset of the target meets: not begun in each of the three ways, begun, and injected with each command that may wait for it; and a cut with a hold and without. -/
theorem witness_TargetResetCutsOff_abandonment :
    (∀ injected ∈ [true, false], ∀ x ∈ [(Phase.arriving, false), (.held, false), (.performing, true), (.performing, false)],
      ∀ a ∈ [Activity.inject, .release, .floor, .idle],
      let c := cycle .pass .read x.1 injected
      let s : State := withLink a [] { inState .running [] with port := { ready.port with inFlight := some c }, bus := { ready.bus with target := x.2 } }
      s.port.inFlight = some c ∧ c.injected = injected ∧ s.link.activity = a ∧
        ((c.phase ≠ .performing ∨ s.bus.target = true) ↔ x ≠ (.performing, false))) ∧
    ready.port.inFlight = none ∧ ready.run.hold ≠ .holding ∧
    (let s := holding (cycle .pass .read .held false) [claim 0] false
     s.run.hold = .holding ∧ s.run.origin = some { source := .halt, level := some 0 }) := by decide

theorem witness_ResumeAndRehearse :
    (∀ c, ready.takes c ready) ∧ ready.run.hold = .resetHeld ∧ ready.run.rehearsal = false ∧ ready.writeActive = false ∧ ready.run.anyLive = false ∧
    (inState .resetHeld [claim 7]).run.anyLive = true ∧ (wired (inState .resetHeld [claim 7])).port.waitWired = true ∧ (inState .running []).run.hold ≠ .resetHeld ∧
    (∀ c, (rehearsing .running []).takes c (rehearsing .running [])) ∧ (rehearsing .running []).run.rehearsal = true ∧
    (let t := holding (cycle .pass .read .held true) [claim 0] true
     t.takes .endRehearsal t ∧ t.run.rehearsal = true ∧ t.run.hold = .holding) ∧
    (withJobs .flash [job 0 .eraseLane (.active (active .eraseRun))] ready).writeActive = true ∧
    (inState .running []).port.powered = true ∧ (inState .running []).netAsserted = false ∧ ready.netAsserted = true :=
  ⟨ready_takes, rfl, rfl, rfl, rfl, by decide, by decide, by decide, takesNow (by decide), rfl, ⟨takesNow (by decide) _, by decide⟩, by decide, rfl, rfl, rfl⟩

theorem witness_InjectPresentsCycle :
    (∀ c, ready.takes c ready) ∧ (0xFFFFF < 0x100000 ∧ (3 < 4 ∧ 4 ≠ 7) ∧ 2 < 3) ∧ ready.run.rehearsal = false ∧
    (let t := withWindow (window .float none none) (rehearsing .running [])
     t.takes (.inject 0xFFFFF 7 0 none) t ∧ cycleLaneOfCode 7 = some none ∧ Kind.ofCode 0 = some .read ∧ quietUnits t ∧ t.run.hold = .running ∧
       (t.present 0xFFFFF none .read none false true).route = .float ∧ (t.present 0xFFFFF none .read none false true).location = none) ∧
    (let t := withWindow (window .float none none) (rehearsing .holdArmed [claim 0])
     t.takes (.inject 0 3 1 none) t ∧ cycleLaneOfCode 3 = some (some 3) ∧ Kind.ofCode 1 = some .fetch ∧ t.run.hold = .holdArmed ∧ t.run.anyLive = true ∧
       t.run.anyHolding = true ∧ quietUnits t ∧ (t.present 0 (some 3) .fetch none false true).route = .float) ∧
    (∀ level ∈ [none, some 0, some 7],
      let t := withWindow (window .guard none level) (rehearsing .running [])
      t.takes (.inject 0 7 2 (some 0)) t ∧ Kind.ofCode 2 = some .write ∧ t.run.rehearsal = true ∧ t.run.hold ≠ .holding ∧
        (t.present 0 none .write (some 0) false true).route = .guard ∧ (resolve t.windows 0 none).guardLevel = level ∧
        (t.present 0 none .write (some 0) false true).location.all t.overlay.maps = true) ∧
    (let t := holding (cycle .pass .read .held true) [claim 0] true
     t.takes (.inject 0 7 2 (some 0)) t ∧ t.run.rehearsal = true ∧ t.run.hold = .holding) ∧
    (let t := withWindow (window .overlay (some 256) none) (rehearsing .running [])
     t.run.hold ≠ .holding ∧ (t.present 0 none .read none false true).location.all t.overlay.maps = false) :=
  ⟨ready_takes, by decide, rfl, ⟨takesNow (by decide) _, by decide⟩, ⟨takesNow (by decide) _, by decide⟩,
   fun level h => ⟨takesNow ⟨rfl, rfl, rfl, OverlaySurvey.noConfusion, rfl⟩ _, by revert h; revert level; decide⟩, ⟨takesNow (by decide) _, by decide⟩, by decide +kernel⟩

/-- With a cycle that is not held in flight in rehearsal, an INJECT that R116 refuses for a field is refused at once; one that it does not refuse waits (log 17). -/
theorem witness_InjectPresentsCycle_inFlight :
    let s : State := { rehearsing .running [] with port := { ready.port with inFlight := some (cycle .pass .read .performing false) } }
    (∀ x ∈ [(0x100000, 7, 0), (0, 4, 0), (0, 7, 3), (0, 7, 2)], s.takes (.inject x.1 x.2.1 x.2.2 none) s) ∧
    (∀ x ∈ [(0xFFFFF, 7, 0), (0, 3, 1), (0, 0, 2)], Instr.mustWait (.inject x.1 x.2.1 x.2.2 (some 0)) s = true) :=
  ⟨fun x h => State.takes_self rfl rfl (Instr.mustWait_badInject (by revert h; revert x; decide)) rfl OverlaySurvey.noConfusion, by decide⟩

theorem witness_ListClaimsByUrgency :
    ready.takes .listClaims ready ∧ (stepClaim .any true).before (claim 0) = true ∧ (claim 0).before (claim 7) = true ∧ (claim 7).before (stepClaim .any false) = true :=
  ⟨ready_takes _, by decide⟩

theorem witness_BoardResetSeenAndReleased :
    (let s := inState .running []
     s.port.prst = false ∧ s.port.powered = true ∧ s.port.resetSense = true ∧ s.netAsserted = false ∧ s.targetReset = false ∧ s.port.inFlight = none) ∧
    (let s := holding (cycle .pass .read .held false) [claim 0] false
     s.port.resetSense = true ∧ s.netAsserted = false ∧ s.port.inFlight = some (cycle .pass .read .held false) ∧ s.run.hold = .holding ∧
       s.run.origin = some { source := .halt, level := some 0 }) ∧
    (inReset ready).port.prst = true ∧ ready.netAsserted = true ∧ ready.targetReset = true := by decide

theorem witness_SupplyLostAndReturned :
    (∀ t : Fin 4, let s : State := { ready with run := { ready.run with threshold := t } }
      s.port.prst = false ∧ s.port.powered = true ∧ Config.lossLevel t - 1 < Config.lossLevel s.run.threshold ∧ s.jobTable) ∧
    ready.port.prst = false ∧ ready.port.inFlight = none ∧ ready.run.hold ≠ .holding ∧ tableState.jobTable ∧
    (let s := holding (cycle .pass .read .held false) [claim 0] false
     s.port.powered = true ∧ s.jobTable ∧ s.run.hold = .holding ∧ s.run.origin = some { source := .halt, level := some 0 }) ∧
    (let s : State := { inState .unpowered [claim 7] with port := { ready.port with powered := false }, run := { (inState .unpowered [claim 7]).run with powerUpHold := false } }
     s.port.prst = false ∧ s.port.powered = false ∧ s.run.powerUpHold = false ∧ s.run.anyLive = true ∧ s.run.rehearsal = false ∧ s.port.waitWired = false) ∧
    (∀ o ∈ [Owner.bench, .free], ∀ form ∈ [TransferForm.peek, .poke], ∀ b ∈ [byteOn .pass none, byteOn .float none],
      (ownedBy o (transferring form false [b, byteOn .pass none])).link.activity = moving form false [b, byteOn .pass none] ∧
        (ownedBy o (transferring form false [b, byteOn .pass none])).bus.owner = o ∧ (ownedBy o (transferring form false [b, byteOn .pass none])).jobTable ∧
        (ownedBy o (transferring form false [b, byteOn .pass none])).port.powered = true) ∧
    ((byteOn .pass none).boardBound = true ∧ (byteOn .float none).boardBound = false) := by decide

/-- A loss with each owner of the bus, and with jobs in the table, an abort waiting or not. -/
theorem witness_SupplyLostAndReturned_engine :
    (∀ o ∈ [Owner.free, .target, .engine .lineSurvey, .engine (.accesses 0 []), .engine (.accesses 0 [{ address := 0, write := none }]),
        .ended 0 { address := 0, write := none }], (ownedBy o ready).port.prst = false ∧ (ownedBy o ready).port.powered = true ∧ (ownedBy o ready).jobTable) ∧
    tableState.link.activity ≠ .abort ∧ (∃ k ∈ tableState.engine.jobs, k.state = .queued) ∧
    (let s : State := { tableState with link := { tableState.link with activity := .abort } }
     s.port.powered = true ∧ s.jobTable ∧ s.link.activity = .abort ∧ s.activeJob = some (job 1 (.program 0 0 false false) (.active (active .compare)))) := by decide

/-- A loss while a command waits for its injected cycle, with no access in progress. -/
theorem witness_SupplyLostAndReturned_link :
    ∀ a ∈ [Activity.inject, .release, .floor],
      let s := withLink a [] { rehearsing .running [] with port := { ready.port with inFlight := some (cycle .pass .read .arriving true) } }
      s.port.prst = false ∧ s.port.powered = true ∧ s.jobTable ∧ s.link.activity = a ∧ s.bus.owner = .free := by decide

/-- Capture in this state, with `n` records and this fill mode. -/
def capturing (x : CaptureState) (n : Nat) (m : FillMode) : State :=
  { ready with trace := { ready.trace with capture := x, records := List.replicate n { seq := 0, stamp := 0, body := .power true }, tail := 1,
                                            setup := { ready.trace.setup with fillMode := m } } }

theorem witness_TraceCommands :
    (∀ c, ready.takes c ready) ∧ (1 < (traceFields 2 0 1).fillMode ∧ 4095 < (traceFields 0 4096 1).postCount ∧ (traceFields 0 0 0).watermark = 0 ∧
      4096 < (traceFields 0 0 4097).watermark) ∧
    ¬(1 < (traceFields 1 4095 4096).fillMode ∨ 4095 < (traceFields 1 4095 4096).postCount ∨ (traceFields 1 4095 4096).watermark = 0 ∨
      4096 < (traceFields 1 4095 4096).watermark) ∧
    (∀ x ∈ [CaptureState.recording, .idle, .stopped], ∀ c, (capturing x 1 .ring).takes c (capturing x 1 .ring)) ∧ ready.trace.capture = .idle ∧ 64 < 65 ∧
    ready.traceConsecutive ∧ 0xFFFFF < 0x100000 ∧ (List.replicate 64 ()).length ≤ 255 :=
  ⟨ready_takes, by decide, by decide, fun x _ => takesNow ⟨rfl, rfl, rfl, OverlaySurvey.noConfusion, rfl⟩, rfl, by decide, ⟨by decide, fun i h => absurd h (Nat.not_lt_zero i)⟩, by decide, by decide⟩

theorem witness_TraceClearEmptiesStore :
    ready.takes .traceClear ready ∧ (capturing .recording 1 .ring).trace.appends true (.power true) = true := ⟨ready_takes _, by decide⟩

theorem witness_OfferAppendsOrDiscards :
    (∀ x ∈ [CaptureState.recording, .tailing], (capturing x 1 .ring).trace.capture = x ∧ (capturing x 1 .ring).trace.setup.markers = true) ∧
    ready.trace.capture = .idle ∧ (capturing .recording 4095 .fillStop).trace.records.length < 4096 ∧
    (4096 ≤ (capturing .recording 4096 .fillStop).trace.records.length ∧ (capturing .recording 4096 .fillStop).trace.setup.fillMode = .fillStop) ∧
    (capturing .tailing 1 .ring).trace.tail ≤ 1 := by decide +kernel

theorem witness_ArbiterGrantsByRule :
    (ownedBy .bench ready).bus.owner ≠ .free ∧ ready.bus.owner = .free ∧ ready.port.powered = true ∧ ready.port.prst = false ∧ ready.busKept = false ∧
    (inState .running []).busKept = true ∧
    (∀ n ∈ [0, 3, 4], ({ ready with bus := { ready.bus with bench := some n, engine := some { aging := n, work := .lineSurvey } } } : State).busKept = false) := by
  decide

theorem witness_PeekAndPoke :
    (∀ c, ready.takes c ready) ∧ (1 < 2 ∧ (3 < 4 ∧ 4 ≠ 7) ∧ 0xFFFFF < 0x100000 ∧ 256 < 257 ∧ 0x100000 < 0xFFFFF + 2) ∧
    ¬(1 < 0 ∨ 0xFFFFF < 0xFFFFF ∨ 1 = 0 ∨ 256 < 1 ∨ 0x100000 < 0xFFFFF + 1) ∧ (ready.port.powered = true ∧ ready.busKept = false ∧ ready.activeJob = none) ∧
    (inState .running []).busKept = true ∧ ({ ready with port := { ready.port with powered := false } } : State).port.powered = false ∧
    (let t := withJobs .flash [job 0 .eraseLane (.active (active .eraseRun))] ready
     t.takes (.peek 0 1023 1 0) t ∧ t.activeJob = some (job 0 .eraseLane (.active (active .eraseRun))) ∧ t.lanes[(0 : Fin 4)].profile = some (profile .flash) ∧
       1023 < (profile .flash).base + (profile .flash).size ∧ (profile .flash).base ≤ 1023 ∧ t.busKept = false ∧ t.port.powered = true) ∧
    cycleLaneOfCode 7 = some none ∧
    (∀ w ∈ [window .float none none, window .overlay (some 0) none, window .overlayRo (some 0) none, window .shadow (some 0) none, window .guard none none,
        window .pass none none],
      (resolve (withWindow w ready).windows 5 none).route = w.kind ∧
        (w.kind.isOverlay = true → (resolve (withWindow w ready).windows 5 none).location = some { page := 0, offset := 5 })) ∧
    ready.overlay.maps { page := 0, offset := 5 } = true ∧
    (surveying .commanded (withWindow (window .overlay (some 0) none) ready)).overlay.survey = .commanded ∧
    ((withLink .idle [Instr.frame (.peek 1 0xFFFFF 1 7)] ready).takes (.peek 1 0xFFFFF 1 7) ready ∧
      (withLink .idle [Instr.frame (.poke 0 0 [1] 0)] ready).takes (.poke 0 0 [1] 0) ready) ∧
    (∀ form ∈ [TransferForm.peek, .poke], ∀ bytewise ∈ [false, true], ∀ b ∈ [byteOn .pass none, byteOn .shadow (some 7), byteOn .guard none, byteOn .float none, byteOn .overlay (some 7)],
      (transferring form bytewise [b, byteOn .pass none]).link.activity = moving form bytewise [b, byteOn .pass none] ∧
        b.boardBound = decide (b.route = .pass ∨ b.route = .shadow ∨ b.route = .guard)) ∧
    ((ownedBy .bench (transferring .peek false [byteOn .pass none])).bus.owner = .bench ∧ (transferring .peek false [byteOn .pass none]).bus.owner ≠ .bench) ∧
    (∀ tr2, ready.link.activity ≠ .transfer tr2) :=
  ⟨ready_takes, by decide, by decide, by decide, by decide, rfl, ⟨takesNow (by decide) _, by decide⟩, by decide, by decide, by decide +kernel, rfl,
   ⟨takesQueued _ (by decide), takesQueued _ (by decide)⟩, by decide, by decide, fun _ h => nomatch h⟩

theorem witness_LineSurveyAndMap :
    (∀ c, ready.takes c ready) ∧ ready.run.hold = .resetHeld ∧ ready.bus.survey = false ∧ ready.activeJob = none ∧
    (∀ c, (rehearsing .running []).takes c (rehearsing .running [])) ∧ (withJobs .flash [job 0 .sum (.active (active .reading))] ready).activeJob.isSome = true ∧
    ((ownedBy (.engine .lineSurvey) ready).bus.owner = .engine .lineSurvey ∧ (ownedBy (.engine .lineSurvey) ready).port.prst = false) ∧
    (let high : List (BitVec 28) := [0, 2, 0xC, 0xC] ++ List.replicate 24 0
     let low : List (BitVec 28) := [0, 2] ++ List.replicate 26 0
     let read (phases : List (BitVec 28)) (m l : Fin 28) := (phases.getD m.val 0).getLsbD l.val
     read high 0 0 = false ∧ (read high 1 1 = true ∧ read low 1 1 = true) ∧ (read high 2 2 = true ∧ read low 2 2 = false ∧ read high 3 2 = true ∧ read low 3 2 = false) ∧
       (∀ k : Fin 28, k < 3 → k ≠ 2 → ¬(read high k 2 = true ∧ read low k 2 = false))) ∧
    (let good : List (BitVec 28) := (List.range 28).map (fun i => 1#28 <<< i)
     let read (phases : List (BitVec 28)) (m l : Fin 28) := (phases.getD m.val 0).getLsbD l.val
     read good 27 27 = true ∧ ∀ m : Fin 28, m ≠ 27 → ¬(read good m 27 = true)) :=
  ⟨ready_takes, rfl, rfl, rfl, takesNow (by decide), by decide, by decide, by decide, by decide⟩

theorem witness_SlotCommands :
    (∀ c, ready.takes c ready) ∧ (∀ c, (sealedSlots ready).takes c (sealedSlots ready)) ∧ 3 < 4 ∧ ready.slots[3].state = .empty ∧
    (sealedSlots ready).slots[3].state.isSealed = true ∧ (([] : List Byte).length = 0 ∧ 1024 < (List.replicate 1025 (0 : Byte)).length) ∧
    (let t : State := { ready with slots := Vector.replicate 4 { state := .filling, contents := List.replicate 4095 0, binds := 0 } }
     t.takes (.loadSlot 3 [0]) t ∧ t.slots[3].state = .filling ∧ t.slots[3].contents.length + 1 ≤ 4096 ∧ 4096 < t.slots[3].contents.length + 2) ∧
    (tableState.takes (.freeSlot 0) tableState ∧ 0 < tableState.slots[0].binds) ∧ ready.slots[3].binds = 0 :=
  ⟨ready_takes, takesNow (by decide), by decide, rfl, rfl, by decide +kernel, ⟨takesNow (by decide) _, by decide +kernel⟩, ⟨takesNow (by decide) _, by decide⟩, rfl⟩

theorem witness_ProfileCommands :
    (∀ c, ready.takes c ready) ∧ (∀ c, tableState.takes c tableState) ∧ (∃ j ∈ tableState.engine.jobs, j.unfinished = true ∧ j.lane.val = 0) ∧
    (¬∃ j ∈ ready.engine.jobs, j.unfinished = true ∧ j.lane.val = 3) ∧
    (let f := profileFields 1 0xFFC00 1024 [{ size := 256, count := 4 }]
     f.base % 256 = 0 ∧ f.base ≤ 0xFFF00 ∧ f.size = 1024 * 2 ^ 0 ∧ f.base + f.size ≤ 0x100000 ∧ f.unlock.length ≤ 4 ∧ (∀ r ∈ f.sectors, r.size = 256 * 2 ^ 0 ∧ r.count ≠ 0) ∧
       (f.sectors.map (fun r => r.size * r.count)).sum = f.size ∧ f.program.offset < f.size ∧ LaneClass.ofCode f.cls = some .flash ∧
       PollMethod.ofCode f.pollMethod = some .readyLine) ∧
    (2 < (profileFields 3 0 1024 []).cls ∧ (profileFields 0 128 1024 []).base % 256 ≠ 0 ∧ 0x100000 < (profileFields 0 0xFFF00 1024 []).base + 1024 ∧
      1024 * 2 ^ 10 < (profileFields 0 0 2097152 []).size ∧ LaneClass.ofCode 0 = some .romOnly) ∧
    ((profile .romOnly).flash = none ∧ (profile .flash).flash = some flash ∧ (profile .flash).sectors[3]? = some (768, 256)) :=
  ⟨ready_takes, takesNow (by decide), by decide, by decide, by decide, by decide, by decide⟩

/-- Two runs of sectors, the second laid behind the first (R159). -/
theorem test_sectors_end_to_end : sectorsFrom 0x40000 [{ size := 0x1000, count := 2 }, { size := 0x200, count := 2 }] =
    [(0x40000, 0x1000), (0x41000, 0x1000), (0x42000, 0x200), (0x42200, 0x200)] := by decide

theorem witness_SubmitEntersJob :
    (∀ c, ready.takes c ready) ∧ 5 < (submitFields 6 0 0 0).operation ∧ submitOperation (submitFields 5 0 0 1) = some .sum ∧ ready.lanes[(3 : Fin 4)].profile = none ∧
    (let t := sealedSlots (withJobs .flash [] ready)
     t.takes (.submit (submitFields 2 0 1020 4)) t ∧ submitOperation (submitFields 2 0 1020 4) = some (.program 0 0 false false) ∧ t.engine.jobs.length < 8 ∧
       t.lanes[(0 : Fin 4)].profile = some (profile .flash) ∧ (profile .flash).cls = .flash ∧ ¬((profile .flash).base + (profile .flash).size < 1020 + 4) ∧
       t.slots[(0 : Fin 4)].state.isSealed = true ∧ 0 + 4 ≤ t.slots[(0 : Fin 4)].contents.length ∧ t.slots[(0 : Fin 4)].contents.length < 0 + 5) ∧
    (8 ≤ (withJobs .flash (List.replicate 8 (job 0 .sum .queued)) ready).engine.jobs.length) ∧
    ((profile .flash).sectors.find? (fun q => decide (q.1 = 768)) = some (768, 256) ∧ (∀ q ∈ (profile .flash).sectors, q.1 ≠ 1)) ∧
    (profile .romOnly).cls ≠ .flash ∧ ready.slots[(0 : Fin 4)].state.isSealed = false :=
  ⟨ready_takes, by decide, rfl, rfl, ⟨takesNow (by decide) _, by decide⟩, by decide, by decide, by decide, rfl⟩

/-- The ACTIVE job of a lane with this FLASH part, and the state in which it works. -/
def working (f : FlashPart) (op : Operation) (a : Active) : State :=
  { withJobs .flash [job 0 op (.active a)] (sealedSlots ready) with
    lanes := Vector.replicate 4 { profile := some { profile .flash with flash := some f }, owed := true } }

/-- A SUM that is aborted while it reads counts the byte of the access let end; one that is cancelled has read none (R177, R178, R181; log 46). -/
theorem test_sum_crc :
    (let t := withJobs .ram [job 1 .sum (.active { active .reading with aborting := true })] ready
     (t.engineAccessEnd 0x31).engine.jobs.map (fun j => match j.state with | .ended c => (c.outcome, c.crc) | _ => (.done, none)) =
       [(.aborted, some (crc32 [0x31]))]) ∧
    (let t := withJobs .ram [job 1 .sum .queued] ready
     (t.cancel (job 1 .sum .queued)).engine.jobs.map (fun j => match j.state with | .ended c => (c.outcome, c.crc) | _ => (.done, none)) =
       [(.cancelled, some 0)]) := by decide +kernel

theorem witness_JobTableCommands :
    (∀ c, ready.takes c ready) ∧ ready.engine.endOrder = [] ∧ ready.activeJob = none ∧
    (tableState.takes .collect tableState ∧ tableState.jobTable ∧ tableState.endsListed ∧ tableState.engine.endOrder = 0 :: []) ∧
    (∀ n ∈ [0, 1, 2], ∃ j ∈ tableState.engine.jobs, j.number = n) ∧ (∀ j ∈ tableState.engine.jobs, j.number ≠ 255) ∧
    ((∃ k ∈ tableState.engine.jobs, k.state = .queued ∨ k.state = .waiting) ∧ ∀ k ∈ ready.engine.jobs, ¬(k.state = .queued ∨ k.state = .waiting)) ∧
    (let j := job 1 (.program 0 0 false false) (.active (active .compare))
     tableState.activeJob = some j ∧ j.state = .active (active .compare) ∧ tableState.lanes[j.lane].profile = some (profile .flash) ∧
       (profile .flash).flash = some flash ∧ tableState.busKept = false ∧ tableState.bus.owner = .free ∧
       (ownedBy (.engine (.accesses 0 [])) tableState).bus.owner = .engine (.accesses 0 [])) ∧
    (let t := withJobs .ram [job 1 .sum (.active (active .reading))] ready
     t.takes .abortEngine t ∧ t.jobTable ∧ t.bus.owner = .free ∧ t.lanes[(0 : Fin 4)].profile = some (profile .ram) ∧ (profile .ram).flash = none) ∧
    (∀ phase ∈ [JobPhase.owedReset, .compare, .reading, .timeoutReset, .abortReset],
      let a := { active phase with aborting := true }
      let s := working flash .eraseLane a
      s.activeJob = some (job 0 .eraseLane (.active a)) ∧ s.lanes[(0 : Fin 4)].profile = some (profile .flash) ∧ a.aborting = true ∧ s.busKept = false ∧
        ({ s with run := { s.run with hold := .running } } : State).busKept = true) ∧
    (let s : State := { working flash .eraseLane (active .abortReset) with bus := { ready.bus with engine := some { aging := 0, work := .accesses 0 [] } },
                                                                           run := { ready.run with hold := .running } }
     s.bus.engine.isSome = true ∧ s.busKept = true) ∧ ready.bus.engine = none :=
  ⟨ready_takes, rfl, rfl, ⟨takesNow (by decide) _, tableState_jobTable, tableState_endsListed, by decide⟩, by decide, by decide, by decide, by decide,
   ⟨takesNow (by decide) _, by decide⟩, by decide, by decide, rfl⟩

/-- A FLASH part that is polled in this way. -/
def polled (m : PollMethod) : FlashPart := { flash with pollMethod := m }

/-- The same work at another address. -/
def atAddress (n : Nat) (a : Active) : Active := { a with current := n }

theorem witness_StartRuleAndPolls_start :
    ready.port.prst = false ∧ (inReset ready).port.prst = true ∧ tableState.jobTable ∧ ready.activeJob = none ∧ ready.engine.jobs = [] ∧
    (∀ op ∈ [Operation.eraseLane, .sum],
      (queuedState op).activeJob = none ∧
        (queuedState op).engine.jobs.find? (fun k => decide (k.state = .queued ∨ k.state = .waiting)) = some (job 0 op .queued) ∧
        (queuedState op).mayStart (job 0 op .queued) = true ∧ (queuedState op).lanes[(0 : Fin 4)].profile = some (profile .flash) ∧
        (queuedState op).lanes[(0 : Fin 4)].owed = true) ∧
    (withJobs .flash [job 0 .eraseLane .queued] (inState .running [])).mayStart (job 0 .eraseLane .queued) = false ∧
    -- lines 20 to 27, and 9 but not 10 of a lane of 1024 bytes at 0
    (∀ n ∈ [(9 : Fin 28), 20, 27],
      let s : State := { queuedState .eraseLane with bus := { ready.bus with lineMap := ready.bus.lineMap.set n .stuckLow } }
      ∃ i : Fin 28, (20 ≤ i.val ∨ 2 ^ i.val < (profile .flash).size ∨ (profile .flash).base.testBit i.val = true) ∧
        s.bus.lineMap[i] ≠ .untested ∧ s.bus.lineMap[i] ≠ .good) ∧
    (let s : State := { queuedState .eraseLane with bus := { ready.bus with lineMap := ready.bus.lineMap.set 10 .stuckLow } }
     ¬∃ i : Fin 28, (20 ≤ i.val ∨ 2 ^ i.val < (profile .flash).size ∨ (profile .flash).base.testBit i.val = true) ∧
        s.bus.lineMap[i] ≠ .untested ∧ s.bus.lineMap[i] ≠ .good) ∧
    ((profile .flash).flash = some flash ∧ (profile .ram).flash = none ∧ (withJobs .ram [] ready).lanes[(0 : Fin 4)].owed = false) ∧
    ((Operation.program 0 0 false false).options.isSome = true ∧ Operation.sum.writeClass = false) ∧
    -- a program pass over [0xFF, 0xFF, 3, 0xFF], and past its last byte that is not erased
    (let contents : List Byte := [0xFF, 0xFF, 3, 0xFF]
     0 + 4 ≤ contents.length ∧ contents.getD (0 + 2) 0 ≠ (profile .flash).erased ∧ (∀ i, i < 2 → 0 ≤ 0 + i → contents.getD (0 + i) 0 = (profile .flash).erased) ∧
       (∀ i, i < 4 → 3 ≤ 0 + i → contents.getD (0 + i) 0 = (profile .flash).erased)) ∧
    (flash.laneErase = [] ∧ (profile .flash).sectors.find? (fun x => decide (0 < x.1)) = some (256, 256) ∧ ∀ q ∈ (profile .flash).sectors, q.1 ≤ 768) := by
  refine ⟨rfl, rfl, tableState_jobTable, rfl, rfl, by decide, by decide, ?_, by decide, ⟨rfl, rfl, rfl⟩, ⟨rfl, rfl⟩, by decide, by decide⟩
  decide

theorem witness_StartRuleAndPolls_flash :
    (∀ m ∈ [PollMethod.toggle, .data, .readyLine], ∀ op ∈ [Operation.program 0 0 true true, .eraseSector],
      ∀ phase ∈ [JobPhase.owedReset, .precheck, .stepRun, .eraseRun, .poll 0 .toggleFirst, .poll 0 (.toggleSecond 0), .poll 0 .data, .compare, .timeoutReset],
      (working (polled m) op (active phase)).activeJob = some (job 0 op (.active (active phase))) ∧
        (working (polled m) op (active phase)).lanes[(0 : Fin 4)].profile = some { profile .flash with flash := some (polled m) } ∧
        (active phase).aborting = false) ∧
    -- the first and the last byte of the job lie inside it; want is the slot's byte 1 at the first
    ((job 0 .sum .queued).address ≤ (atAddress 3 (active .compare)).current ∧ (atAddress 3 (active .compare)).current < 0 + (job 0 .sum .queued).length) ∧
    ((sealedSlots ready).slots[(0 : Fin 4)].contents.getD (0 + (0 - 0)) 0 = (1 : Byte) ∧ (2 : Byte) &&& 1 ≠ 1 ∧ (3 : Byte) &&& 1 = 1) ∧
    ((0 : Byte).getLsbD 7 = (0x7F : Byte).getLsbD 7 ∧ (0 : Byte).getLsbD 7 ≠ (0x80 : Byte).getLsbD 7 ∧ (0xFF : Byte).getLsbD 7 = (profile .flash).erased.getLsbD 7) ∧
    (∀ n ∈ [999, 1000], (at_ n (working (polled .data) .eraseSector (active (.poll 0 .data)))).elapsed 0 = n) ∧
    (Operation.program 0 0 true true).slot.isSome = true ∧ Operation.eraseSector.slot = none := by
  refine ⟨?_, by decide, by decide, by decide, by decide, rfl, rfl⟩
  intro m _ op _ phase _
  exact ⟨rfl, rfl, rfl⟩

theorem witness_StartRuleAndPolls_reads :
    (∀ op ∈ [Operation.program 0 0 false true, .verify 0 0 .first, .verify 0 0 .count, .verify 0 0 .retry, .blankCheck, .sum],
      ∀ phase ∈ [JobPhase.ramWrite, .ramRead, .verifyPass, .reading, .retry 5 1 true, .retry 5 1 false, .retry 5 2 true, .retry 5 3 true], ∀ n ∈ [0, 3],
      (working flash op (atAddress n (active phase))).activeJob = some (job 0 op (.active (atAddress n (active phase)))) ∧
        (working flash op (atAddress n (active phase))).lanes[(0 : Fin 4)].profile = some (profile .flash) ∧ (atAddress n (active phase)).aborting = false) ∧
    ((job 0 .sum .queued).address ≤ 0 ∧ 3 < 0 + (job 0 .sum .queued).length) ∧
    ((Operation.verify 0 0 .retry).policy = some .retry ∧ (Operation.verify 0 0 .first).policy = some .first ∧ (Operation.verify 0 0 .count).policy = some .count ∧
      Operation.sum.policy = none) ∧
    ({ active .reading with firstBad := some (3, 4, 5) } : Active).firstBad = some (3, 4, 5) ∧ (active .reading).firstBad = none := by
  refine ⟨?_, by decide, by decide, rfl, rfl⟩
  intro op _ phase _ n _
  exact ⟨rfl, rfl, rfl⟩

theorem witness_StartRuleAndPolls_polls :
    (∀ op ∈ [Operation.program 0 0 false false, .eraseSector], ∀ stage ∈ [PollStage.readyLine, .data],
      (pollingState op stage).polling = some (pollingJob op stage, active (.poll 0 stage), profile .flash, flash, 0, stage) ∧
        (pollingState op stage).port.prst = false ∧ (pollingJob op stage).op.writeClass = true) ∧
    ready.polling = none := by
  refine ⟨?_, rfl⟩
  intro op hop stage hstage
  rcases List.mem_cons.1 hop with rfl | hop
  · rcases List.mem_cons.1 hstage with rfl | hstage
    · exact ⟨rfl, rfl, rfl⟩
    · rcases List.mem_singleton.1 hstage with rfl; exact ⟨rfl, rfl, rfl⟩
  · rcases List.mem_singleton.1 hop with rfl
    rcases List.mem_cons.1 hstage with rfl | hstage
    · exact ⟨rfl, rfl, rfl⟩
    · rcases List.mem_singleton.1 hstage with rfl; exact ⟨rfl, rfl, rfl⟩

/-- The hypotheses of every clause are met: at the start of a job, in the work of a FLASH lane, in the reads of the other operations, and in a poll. -/
theorem witness_StartRuleAndPolls :
    (pollingState .eraseSector .readyLine).polling = some (pollingJob .eraseSector .readyLine, active (.poll 0 .readyLine), profile .flash, flash, 0, .readyLine) ∧
    (working (polled .toggle) (.program 0 0 true true) (active .precheck)).activeJob = some (job 0 (.program 0 0 true true) (.active (active .precheck))) ∧
    (working flash .sum (atAddress 3 (active .reading))).activeJob = some (job 0 .sum (.active (atAddress 3 (active .reading)))) ∧
    (queuedState .eraseLane).mayStart (job 0 .eraseLane .queued) = true := ⟨rfl, rfl, rfl, rfl⟩

end Sys2Proof.Tests
end

section
/-! PROOFS. The Window Table (chapter 2): CLEAR WINDOW. -/

namespace Sys2Proof.WindowTable

open Sys2Proof Sys2Proof.Machine

/-- A record already disabled is the one that disabling it gives (R39). -/
theorem disable_of_disabled {w : Window} (h : w.enabled = false) : { w with enabled := false } = w := by
  cases w; cases h; rfl

/-- Disabling a disabled record in its place leaves the state as it was: the table, and so everything (R39). -/
theorem set_disable_of_disabled {t : State} {index : Nat} (inRange : index < 16) (h : t.windows[index].enabled = false) :
    ({ t with windows := t.windows.set index { t.windows[index] with enabled := false } inRange } : State) = t := by
  have table : t.windows.set index { t.windows[index] with enabled := false } inRange = t.windows := by
    rw [disable_of_disabled h, Vector.set_getElem_self]
  rw [table]

/-- The row CLEAR WINDOW has the meaning `execClearWindow`. -/
theorem exec_clearWindow (index : Nat) (s : State) : exec (.clearWindow index) s = execClearWindow index s := rfl

/-- For an index that the table has, the record is disabled in its place and the answer is OK (R39). -/
theorem exec_clearWindow_inRange {index : Nat} {s t : State} (taken : s.takes (.clearWindow index) t) (inRange : index < 16) :
    exec (.clearWindow index) s =
      .next (({ t with windows := t.windows.set index { t.windows[index] with enabled := false } inRange } : State).respond .ok 0x11 .empty) := by
  rw [exec_clearWindow, execClearWindow, State.onTaken_takes taken, dif_pos inRange]
  rfl

/-- An index that the table does not have is refused (R39). -/
theorem exec_clearWindow_outOfRange {index : Nat} {s t : State} (taken : s.takes (.clearWindow index) t) (outOfRange : ¬index < 16) :
    exec (.clearWindow index) s = .next (t.respond .badValue 0x11 .empty) := by
  rw [exec_clearWindow, execClearWindow, State.onTaken_takes taken, dif_neg outOfRange]
  rfl

/-- Settles O21: for an index of the table by the record's own update, which is none on a disabled record; above it by the refusal. -/
theorem clearWindowDisablesRecord : Obligations.ClearWindowDisablesRecord := by
  intro index s t taken
  refine ⟨fun inRange => ⟨exec_clearWindow_inRange taken inRange, fun disabled => ?_⟩, fun above => ?_⟩
  · rw [exec_clearWindow_inRange taken inRange, set_disable_of_disabled inRange disabled]
  · exact exec_clearWindow_outOfRange taken (by omega)

end Sys2Proof.WindowTable
end

section
/-! PROOFS. The Trace Store (chapter 7): TRACE CLEAR. -/

namespace Sys2Proof.TraceClear

open Sys2Proof Sys2Proof.Machine

/-- What TRACE CLEAR does to the state before it is answered (R135). -/
def clearTrace (t : State) : State :=
  { t with trace := { t.trace with records := [], capture := .idle, tail := 0, markLatch := false } }

/-- The row TRACE CLEAR, once taken, clears the store and answers OK in every capture state (R135). -/
theorem exec_traceClear {s t : State} (taken : s.takes .traceClear t) :
    exec .traceClear s = .next ((clearTrace t).respond .ok 0x43 .empty) := by
  have meaning : exec .traceClear s = execTraceClear s := rfl
  rw [meaning, execTraceClear, State.onTaken_takes taken]
  rfl

/-- Cleared, the capture state is IDLE; the answer does not touch the store (R135). -/
theorem cleared_capture (t : State) (x : Status) (k : Byte) (a : Answer) : ((clearTrace t).respond x k a).trace.capture = .idle := rfl

/-! ### The store with the capture IDLE or with no record -/

/-- TRACE_START has an effect in WAITING alone (R122). -/
theorem traceStart_of_idle {s : State} (h : s.trace.capture = .idle) : s.traceStart = s := by
  simp [State.traceStart, h]

/-- No record is considered in IDLE (R120). -/
theorem offer_of_idle {s : State} (h : s.trace.capture = .idle) (b : RecordBody) (sent : Bool) (stamp : Stamp) : s.offer b sent stamp = s :=
  offer_discards (.inl (by simp [TraceStore.capturing, h]))

/-- An empty store's oldest sequence number is the next one (R119). -/
theorem oldest_of_empty {store : TraceStore} (h : store.records = []) : store.oldest = store.next := by
  simp [TraceStore.oldest, h]

/-- A record that is appended uses the next sequence number (R127). -/
theorem offer_next_of_appends {s : State} {b : RecordBody} {sent : Bool} (h : s.trace.appends sent b = true) (stamp : Stamp) :
    (s.offer b sent stamp).trace.next = s.trace.next + 1 := by
  rw [offer_appends h]
  exact (appendRecord_spec b stamp s).2

/-- Settles O51: by the state that the clear leaves, whose store is empty and whose capture is IDLE. -/
theorem traceClearEmptiesStore : Obligations.TraceClearEmptiesStore := by
  intro s t taken
  have idle := cleared_capture t .ok 0x43 .empty
  exact ⟨_, exec_traceClear taken, rfl, rfl, rfl, rfl, rfl, oldest_of_empty rfl, traceStart_of_idle idle, offer_of_idle idle,
    fun _ _ stamp appended => offer_next_of_appends appended stamp⟩

end Sys2Proof.TraceClear
end

section
/-! PROOFS. The bench link (chapter 11): IDENTIFY, the notices, the notice mask and ATTN. -/

namespace Sys2Proof.BenchLink

open Sys2Proof Sys2Proof.Machine

/-! ### A frame taken -/

/-- The taking of a frame changes the link's activity and queue alone (R186). -/
theorem takesFrame_eq {c : Instr} {s t : State} (taken : s.takesFrame c t) :
    t = { s with link := { s.link with activity := t.link.activity, queue := t.link.queue } } := by
  obtain ⟨-, -, -, ⟨-, rfl⟩ | ⟨_, _, -, -, rfl⟩⟩ := taken <;> rfl

theorem takesFrame_overlay {c : Instr} {s t : State} (taken : s.takesFrame c t) : t.overlay = s.overlay := by
  rw [takesFrame_eq taken]

theorem takesFrame_pending {c : Instr} {s t : State} (taken : s.takesFrame c t) : t.link.pending = s.link.pending := by
  rw [takesFrame_eq taken]

theorem takesFrame_mask {c : Instr} {s t : State} (taken : s.takesFrame c t) : t.link.mask = s.link.mask := by
  rw [takesFrame_eq taken]

/-- IDENTIFY answers at any time (R191). -/
theorem exec_identify {s t : State} (taken : s.takesFrame .identify t) :
    exec .identify s = .next (t.respond .ok 0x01 (.identify t.overlay.capacity (decide (t.overlay.survey = .powerOn)))) := by
  have meaning : exec .identify s = execIdentify s := rfl
  rw [meaning, execIdentify, State.onTaken_takesFrame taken rfl]
  rfl

/-- READ NOTICES answers the pending set and the mask at any time, and clears the pending set (R189). -/
theorem exec_readNotices {s t : State} (taken : s.takesFrame .readNotices t) :
    exec .readNotices s =
      .next (({ t with link := { t.link with pending := 0 } } : State).respond .ok 0x02 (.notices t.link.pending t.link.mask)) := by
  have meaning : exec .readNotices s = execReadNotices s := rfl
  rw [meaning, execReadNotices, State.onTaken_takesFrame taken rfl]
  rfl

/-- SET NOTICE MASK replaces the mask by the low 15 bits of its field (R190). -/
theorem exec_setNoticeMask {mask : BitVec 16} {s t : State} (taken : s.takes (.setNoticeMask mask) t) :
    exec (.setNoticeMask mask) s =
      .next (({ t with link := { t.link with mask := mask.setWidth 15 } } : State).respond .ok 0x03 .empty) := by
  have meaning : exec (.setNoticeMask mask) s = execSetNoticeMask mask s := rfl
  rw [meaning, execSetNoticeMask, State.onTaken_takes taken]
  rfl

/-! ### Bench commands -/

/-- A row with the code 0x00, or one that stands for an unknown code, is no bench command (11.5). -/
theorem not_benchCommand_of_code_zero {c : Instr} (h : Instr.code c = 0) : benchCommand c = false := by
  have absent : Config.commandCodes.contains (0 : Byte) = false := by decide
  rw [benchCommand, h, absent, Bool.and_false]

theorem not_benchCommand_unknownCommand (code : Byte) (payload : List Byte) : benchCommand (.unknownCommand code payload) = false := by
  by_cases h : code ∈ Config.commandCodes <;> simp [benchCommand, Instr.wf, Instr.code, h]

/-- Every bench command goes through the link: its meaning is an action on its frame taken (R186, R187). -/
theorem exec_eq_onTaken {c : Instr} (bench : benchCommand c = true) (s : State) : ∃ act, exec c s = s.onTaken c act := by
  cases c
  case unknownCommand code payload =>
    rw [not_benchCommand_unknownCommand] at bench
    cases bench
  case powerOn | prstAsserted | prstReleased | partReset | powerOnSurveyEnd | overlaySurveyEnd | lineSurveyEnd | cyclePresented | lostCycle
      | boardAccessEnd | boardResetSeen | boardResetReleased | supplyLost | supplyReturned | probeEdge | holdLimitExpiry | jobStart
      | readyLineAsserted | pollTimeout | lateFrame | overlongFrame | startByteNoRoom | frameError | linkRateChange | startByteReceived
      | checkByteReceived =>
    rw [not_benchCommand_of_code_zero rfl] at bench
    cases bench
  all_goals exact ⟨_, rfl⟩

/-- Of the bench commands IDENTIFY and READ NOTICES alone are taken during the power-on survey (R50, R189). -/
theorem takenInSurvey_eq_false {c : Instr} (bench : benchCommand c = true) (notIdentify : c ≠ .identify) (notRead : c ≠ .readNotices) :
    Instr.takenInSurvey c = false := by
  unfold Instr.takenInSurvey
  split
  · exact absurd rfl notIdentify
  · exact absurd rfl notRead
  · rw [not_benchCommand_of_code_zero rfl] at bench
    cases bench
  · rw [not_benchCommand_unknownCommand] at bench
    cases bench
  · rfl

/-- Every other bench command is refused WRONG_STATE during the power-on survey (R50, R187, R189). -/
theorem exec_during_powerOnSurvey {c : Instr} {s t : State} (bench : benchCommand c = true) (taken : s.takesFrame c t)
    (survey : s.overlay.survey = .powerOn) (notIdentify : c ≠ .identify) (notRead : c ≠ .readNotices) :
    exec c s = .next (t.respond .wrongState (Instr.code c) .empty) := by
  obtain ⟨act, meaning⟩ := exec_eq_onTaken bench s
  rw [meaning, State.onTaken_survey taken survey (takenInSurvey_eq_false bench notIdentify notRead)]

/-- IDENTIFY and READ NOTICES are answered OK in every state that takes them (R189, R191). -/
theorem exec_answers_ok {c : Instr} {s t : State} (taken : s.takesFrame c t) (either : c = .identify ∨ c = .readNotices) :
    ∃ u a, exec c s = .next u ∧ u.link.sent = some { status := .ok, code := Instr.code c, answer := a } := by
  rcases either with rfl | rfl
  · exact ⟨_, _, exec_identify taken, rfl⟩
  · exact ⟨_, _, exec_readNotices taken, rfl⟩

/-! ### The notices and their bits -/

/-- The notices in the order of their bits (11.3). -/
def noticesByBit : List Notice :=
  [.restart, .claim, .hold, .holdMissed, .holdExpired, .note, .guard, .probe, .contention, .targetReset, .power, .traceMark, .traceStopped,
   .jobEnded, .surveyDone]

theorem noticesByBit_bit (n : Notice) : noticesByBit[n.bit]? = some n := by cases n <;> rfl

theorem bit_lt (n : Notice) : n.bit < 15 := (List.getElem?_eq_some_iff.1 (noticesByBit_bit n)).1

theorem bit_injective : Function.Injective Notice.bit := by
  intro a b same
  have found := noticesByBit_bit a
  rw [same, noticesByBit_bit b] at found
  exact (Option.some.inj found).symm

/-- Each of the 15 bits is some notice's. -/
theorem exists_bit_eq {i : Nat} (h : i < 15) : ∃ n : Notice, n.bit = i := by
  have listed : ∀ k : Fin 15, (noticesByBit[k.val]'k.isLt).bit = k.val := by decide
  exact ⟨_, listed ⟨i, h⟩⟩

/-- A notice's flag is its bit alone. -/
theorem getLsbD_flag (n : Notice) (i : Nat) : n.flag.getLsbD i = decide (n.bit = i) := by
  have power : n.flag = BitVec.twoPow 15 n.bit := rfl
  rw [power, BitVec.getLsbD_twoPow, decide_eq_true (bit_lt n), Bool.true_and]

/-- After a cause a flag is pending if it was, or if it is the cause's own (R189). -/
theorem noticed_latch (n m : Notice) (s : State) : (s.latch n).noticed m = (s.noticed m || decide (n = m)) := by
  rw [State.noticed, State.latch_pending_flags, BitVec.getLsbD_or, getLsbD_flag, State.noticed]
  exact congrArg _ (decide_eq_decide.2 bit_injective.eq_iff)

theorem noticed_latch_self (n : Notice) (s : State) : (s.latch n).noticed n = true := by simp [noticed_latch]

theorem noticed_latch_of_noticed {m : Notice} {s : State} (h : s.noticed m = true) (n : Notice) : (s.latch n).noticed m = true := by
  simp [noticed_latch, h]

theorem noticed_latch_of_ne {n m : Notice} (h : m ≠ n) (s : State) : (s.latch n).noticed m = s.noticed m := by
  simp [noticed_latch, h.symm]

/-- With an empty pending set no flag is pending. -/
theorem noticed_of_pending_zero {s : State} (h : s.link.pending = 0) (n : Notice) : s.noticed n = false := by
  rw [State.noticed, h]
  exact BitVec.getLsbD_zero

/-! ### ATTN -/

/-- A set of flags is not empty exactly where it has some notice's flag. -/
theorem ne_zero_iff_exists_notice (x : BitVec 15) : x ≠ 0 ↔ ∃ n : Notice, x.getLsbD n.bit = true := by
  constructor
  · intro nonzero
    by_contra clear
    refine nonzero (BitVec.eq_of_getLsbD_eq fun i hi => ?_)
    obtain ⟨n, rfl⟩ := exists_bit_eq hi
    rw [Bool.eq_false_iff.2 fun h => clear ⟨n, h⟩]
    exact BitVec.getLsbD_zero.symm
  · rintro ⟨n, set⟩ rfl
    exact absurd set (by simp)

/-- ATTN is asserted while the part is not held in reset and some flag is pending and enabled (R190, R192). -/
theorem attn_iff (s : State) :
    s.attn = true ↔ s.port.prst = false ∧ ∃ n : Notice, s.noticed n = true ∧ s.link.mask.getLsbD n.bit = true := by
  rw [State.attn, Bool.and_eq_true, Bool.not_eq_true', decide_eq_true_iff, ne_zero_iff_exists_notice]
  simp only [BitVec.getLsbD_and, Bool.and_eq_true, State.noticed]

/-! ### The notices after a reset -/

/-- What power-on and a part reset leave of the link and of the hold in reset (R189, R190, R192). -/
def LinkReset (t : State) : Prop := t.link = Link.initial ∧ t.port.prst = false

theorem LinkReset.noticed_iff {t : State} (h : LinkReset t) (n : Notice) : t.noticed n = true ↔ n = .restart := by
  have initial : t.link.pending = Notice.restart.flag := by rw [h.1]; rfl
  rw [State.noticed, initial, getLsbD_flag, decide_eq_true_iff, bit_injective.eq_iff]
  exact eq_comm

theorem LinkReset.mask {t : State} (h : LinkReset t) : t.link.mask = BitVec.allOnes 15 := by rw [h.1]; rfl

theorem LinkReset.attn {t : State} (h : LinkReset t) : t.attn = true := by
  refine (attn_iff t).2 ⟨h.2, .restart, (h.noticed_iff _).2 rfl, ?_⟩
  rw [h.mask]
  rfl

theorem afterReset_linkReset (overlay : Overlay) (supply : Nat) (boardReset : Bool) (levels : Fin 4 → Bool) (freeIndex : Nat)
    (pending : List Instr) : LinkReset (State.afterReset overlay supply boardReset levels freeIndex pending) := ⟨rfl, rfl⟩

theorem partReset_linkReset (s : State) : LinkReset s.partReset := afterReset_linkReset ..

theorem powerOn_linkReset (supply : Nat) (probes : BitVec 4) (boardReset : Bool) (s : State) :
    ∃ t, exec (.powerOn supply probes boardReset) s = .next t ∧ LinkReset t := ⟨_, rfl, afterReset_linkReset ..⟩

/-- With no board access to let end the part reset ends at once (R137). -/
theorem endReset_of_free {s : State} (free : s.bus.owner.lastAccess = .free) : s.endReset = s.partReset := if_pos free

/-- An access for which the part reset waits ends it (R137, R192; log 34). -/
theorem heldAccessEnd_of_waiting {s : State} (access : s.bus.owner.lastAccess ≠ .free) (waits : s.port.resetEnds = true) :
    s.heldAccessEnd = s.freeBus.partReset := by rw [State.heldAccessEnd, if_neg access, if_pos waits]

/-- Each row that ends a part reset leaves the state of a part reset (R137, R192). -/
theorem exec_endsReset {c : Instr} {s : State} (ends : s.endsReset c) : ∃ u : State, exec c s = .next u.partReset := by
  rcases ends with ⟨rfl, held, free⟩ | ⟨rfl, running, owner⟩ | ⟨data, rfl, held, waits, owner⟩
  · have meaning : exec .prstReleased s = .next (if s.port.prst then s.endReset else s) := rfl
    exact ⟨s, by rw [meaning, if_pos held, endReset_of_free (by rw [free]; rfl)]⟩
  · have meaning : exec .partReset s = .next (if s.port.prst then s else s.holdInReset.endReset) := rfl
    have free : s.holdInReset.bus.owner.lastAccess = .free := by
      rw [holdInReset_owner]
      rcases owner with h | h <;> rw [h] <;> rfl
    exact ⟨s.holdInReset, by rw [meaning, if_neg (by simp [running]), endReset_of_free free]⟩
  · have meaning : exec (.boardAccessEnd data) s = execBoardAccessEnd data s := rfl
    have access : s.bus.owner.lastAccess ≠ .free := by
      rcases owner with h | h | ⟨_, _, h⟩ <;> rw [h] <;> exact Owner.noConfusion
    exact ⟨s.freeBus, by rw [meaning, execBoardAccessEnd, if_pos held, heldAccessEnd_of_waiting access waits]⟩

theorem endsReset_linkReset {c : Instr} {s : State} (ends : s.endsReset c) : ∃ t, exec c s = .next t ∧ LinkReset t := by
  obtain ⟨u, next⟩ := exec_endsReset ends
  exact ⟨_, next, partReset_linkReset u⟩

/-! ### The statements of the family -/

/-- The 13 bytes of the answer to IDENTIFY (R191). -/
theorem payload_identify (capacity : Nat) (survey : Bool) : (Answer.identify capacity survey).payload =
    [0x20, 0x04, 0x01, BitVec.ofNat 8 capacity, BitVec.ofNat 8 (capacity / 256), 16, 4, 4, 4, 8, 0x00, 0x10, if survey then 1 else 0] := rfl

/-- Settles O17: by the answer that the row gives wherever its frame is taken; the capacity is bounded by its definition, and is 0 with every page listed. -/
theorem identifyAnswersPart : Obligations.IdentifyAnswersPart := by
  intro s t taken
  refine ⟨_, exec_identify taken, ?_, s.overlay.capacity_le, fun formed survey => Overlay.capacity_allListed (formed.2.2 survey)⟩
  rw [payload_identify, takesFrame_overlay taken]
  simp only [decide_eq_true_iff]

/-- A cause latched before READ NOTICES is in the answer and is cleared; one that comes after it is pending (R189). -/
theorem readNotices_after_latch {n : Notice} {s t : State} (taken : (s.latch n).takesFrame .readNotices t) :
    ∃ u pending mask, exec .readNotices (s.latch n) = .next u ∧
      u.link.sent = some { status := .ok, code := 0x02, answer := .notices pending mask } ∧
      pending.getLsbD n.bit = true ∧ u.noticed n = false ∧ (u.latch n).noticed n = true := by
  refine ⟨_, _, _, exec_readNotices taken, rfl, ?_, noticed_of_pending_zero rfl n, noticed_latch_self n _⟩
  rw [takesFrame_pending taken]
  exact noticed_latch_self n s

/-- Settles O18: a latch by its effect on each bit, READ NOTICES by its meaning, the resets by the link's reset values, the power-on survey by the link's check
before the command's action. -/
theorem noticesLatchUntilRead : Obligations.NoticesLatchUntilRead := by
  refine ⟨fun n => by cases n <;> rfl, fun _ _ => rfl,
    fun n s => ⟨noticed_latch_self n s, fun _ pending => noticed_latch_of_noticed pending n, fun _ other => noticed_latch_of_ne other s, rfl⟩,
    fun _ _ => exec_readNotices, fun _ _ => rfl, fun _ _ _ => readNotices_after_latch, ?_, ?_,
    fun c s t bench taken survey => ⟨fun others => exec_during_powerOnSurvey bench taken survey others.1 others.2, exec_answers_ok taken⟩⟩
  · intro supply probes boardReset s
    obtain ⟨t, next, reset⟩ := powerOn_linkReset supply probes boardReset s
    exact ⟨t, next, reset.noticed_iff⟩
  · intro c s ends
    obtain ⟨t, next, reset⟩ := endsReset_linkReset ends
    exact ⟨t, next, reset.noticed_iff⟩

/-- Settles O19: the resets by the link's reset values, the mask by the row's meaning, ATTN bit by bit. -/
theorem noticeMaskDrivesAttn : Obligations.NoticeMaskDrivesAttn := by
  refine ⟨?_, ?_, ?_, fun n s => ⟨noticed_latch_self n s, rfl⟩, ?_, attn_iff⟩
  · intro supply probes boardReset s
    obtain ⟨t, next, reset⟩ := powerOn_linkReset supply probes boardReset s
    exact ⟨t, next, reset.mask, reset.attn⟩
  · intro c s ends
    obtain ⟨t, next, reset⟩ := endsReset_linkReset ends
    exact ⟨t, next, reset.mask, reset.attn⟩
  · intro mask s t taken
    exact ⟨mask.setWidth 15, fun i inMask => by simp [inMask], exec_setNoticeMask taken⟩
  · intro s t taken
    refine ⟨_, exec_readNotices taken, ?_⟩
    rw [← takesFrame_pending taken, ← takesFrame_mask taken]
    rfl

end Sys2Proof.BenchLink
end

section
/-! PROOFS. The job table (chapter 10): what the engine's operations make of its entries, of the list of ends and of the slots' bind counts. -/

namespace Sys2Proof.JobTable

open Sys2Proof Sys2Proof.Machine

/-! ### Entries and their states -/

theorem unfinished_iff {j : Job} : j.unfinished = true ↔ j.active?.isSome = true ∨ j.waits = true := by
  unfold Job.unfinished Job.active? Job.waits
  cases j.state <;> simp

theorem unfinished_of_active {j : Job} (h : j.active?.isSome = true) : j.unfinished = true := unfinished_iff.2 (.inl h)

theorem unfinished_of_waits {j : Job} (h : j.waits = true) : j.unfinished = true := unfinished_iff.2 (.inr h)

/-- Change the entry with this number: what `State.setJob` does to the table. -/
def setEntry (n : Nat) (state : JobState) (jobs : List Job) : List Job :=
  jobs.map (fun k => if k.number = n then { k with state := state } else k)

theorem setJob_jobs_eq (n : Nat) (state : JobState) (s : State) : (s.setJob n state).engine.jobs = setEntry n state s.engine.jobs := rfl

theorem setEntry_numbers (n : Nat) (state : JobState) (jobs : List Job) : (setEntry n state jobs).map Job.number = jobs.map Job.number := by
  rw [setEntry, List.map_map]
  refine List.map_congr_left fun k _ => ?_
  simp only [Function.comp_apply]
  split <;> rfl

theorem setEntry_of_absent {n : Nat} {jobs : List Job} (h : ∀ k ∈ jobs, k.number ≠ n) (state : JobState) : setEntry n state jobs = jobs :=
  (List.map_congr_left fun k hk => if_neg (h k hk)).trans (List.map_id jobs)

/-- In a table without repeated numbers the change is one of one entry. -/
theorem setEntry_split {pre post : List Job} {k : Job} (distinct : ((pre ++ k :: post).map Job.number).Nodup) (state : JobState) :
    setEntry k.number state (pre ++ k :: post) = pre ++ { k with state := state } :: post := by
  have apart : ∀ x ∈ pre ++ post, x.number ≠ k.number := by
    simp only [List.map_append, List.map_cons, List.nodup_append, List.nodup_cons, List.mem_map, List.mem_cons] at distinct
    obtain ⟨-, ⟨notPost, -⟩, across⟩ := distinct
    intro x hx same
    rcases List.mem_append.1 hx with hx | hx
    · exact across x.number ⟨x, hx, rfl⟩ k.number (.inl rfl) same
    · exact notPost ⟨x, hx, same⟩
  have before := setEntry_of_absent (fun x hx => apart x (List.mem_append_left _ hx)) state
  have after := setEntry_of_absent (fun x hx => apart x (List.mem_append_right _ hx)) state
  rw [setEntry] at before after ⊢
  rw [List.map_append, List.map_cons, before, after, if_pos rfl]

/-! ### What is kept -/

/-- The job table's form is kept, and with it the list of ends and the bind counts (R157, R165, R179). -/
structure JobsKept (s t : State) : Prop where
  table : s.jobTable → t.jobTable
  ends : s.jobTable → s.endsListed → t.endsListed
  binds : s.jobTable → s.bindsCount → t.bindsCount

theorem JobsKept.refl (s : State) : JobsKept s s := ⟨id, fun _ h => h, fun _ h => h⟩

theorem JobsKept.trans {s t u : State} (h : JobsKept s t) (k : JobsKept t u) : JobsKept s u :=
  ⟨fun w => k.table (h.table w), fun w e => k.ends (h.table w) (h.ends w e), fun w b => k.binds (h.table w) (h.binds w b)⟩

/-- An update outside the engine and the slots. -/
theorem JobsKept.of_same {s t : State} (engine : t.engine = s.engine) (slots : t.slots = s.slots) : JobsKept s t := by
  have named : ∀ i, t.naming i = s.naming i := fun i => by rw [State.naming, engine, State.naming]
  exact ⟨fun h => by rw [State.jobTable, engine]; exact h, fun _ h => by rw [State.endsListed, engine]; exact h,
    fun _ h i => by rw [slots, named i]; exact h i⟩

/-- A change that rests on the form of the table. -/
theorem JobsKept.of_table {s t : State} (h : s.jobTable → JobsKept s t) : JobsKept s t :=
  ⟨fun w => (h w).table w, fun w => (h w).ends w, fun w => (h w).binds w⟩

/-! ### Changing one entry -/

/-- An entry of the table that is not ENDED, with this number and this operation. -/
def Open (j : Job) (s : State) : Prop := ∃ k ∈ s.engine.jobs, k.number = j.number ∧ k.op = j.op ∧ k.unfinished = true

/-- The entry that is ACTIVE or may become so: before it there are ENDED entries alone, after it none is ACTIVE (R165, R168). -/
def Leads (j : Job) (s : State) : Prop :=
  ∃ pre k post, s.engine.jobs = pre ++ k :: post ∧ k.number = j.number ∧ k.op = j.op ∧ k.unfinished = true ∧
    (∀ x ∈ pre, x.unfinished = false) ∧ ∀ x ∈ post, x.active?.isSome = false

theorem Leads.isOpen {j : Job} {s : State} (h : Leads j s) : Open j s := by
  obtain ⟨pre, k, post, jobs, number, op, unfinished, -, -⟩ := h
  exact ⟨k, by simp [jobs], number, op, unfinished⟩

theorem Leads.congr {j : Job} {s t : State} (h : Leads j s) (engine : t.engine = s.engine) : Leads j t := by rw [Leads, engine]; exact h

theorem Open.congr {j : Job} {s t : State} (h : Open j s) (engine : t.engine = s.engine) : Open j t := by rw [Open, engine]; exact h

/-- The ACTIVE entry leads the table (R165). -/
theorem leads_of_active {j : Job} {s : State} (table : s.jobTable) (h : s.activeJob = some j) : Leads j s := by
  obtain ⟨active, pre, post, jobs, notBefore⟩ := List.find?_eq_some_iff_append.1 h
  refine ⟨pre, j, post, jobs, rfl, rfl, unfinished_of_active active, ?_⟩
  have order := table.2.2
  rw [jobs, List.pairwise_append, List.pairwise_cons] at order
  obtain ⟨-, ⟨after, -⟩, before⟩ := order
  refine ⟨fun x hx => before x hx j List.mem_cons_self active, fun x hx => ?_⟩
  by_contra activeLater
  have ended := after x hx (Bool.eq_true_of_not_eq_false activeLater)
  rw [unfinished_of_active active] at ended
  cases ended

/-- With no ACTIVE entry the candidate leads the table (R168). -/
theorem leads_of_candidate {j : Job} {s : State} (none : s.activeJob = none) (h : s.candidate = some j) : Leads j s := by
  obtain ⟨waits, pre, post, jobs, notBefore⟩ := List.find?_eq_some_iff_append.1 h
  have inactive : ∀ x ∈ s.engine.jobs, x.active?.isSome = false := fun x hx => by simpa using List.find?_eq_none.1 none x hx
  rw [jobs] at inactive
  refine ⟨pre, j, post, jobs, rfl, rfl, unfinished_of_waits waits, fun x hx => ?_,
    fun x hx => inactive x (List.mem_append_right _ (List.mem_cons_of_mem _ hx))⟩
  by_contra unfinished
  rcases unfinished_iff.1 (by simpa using unfinished) with active | waits
  · rw [inactive x (List.mem_append_left _ hx)] at active
    cases active
  · simpa [waits] using notBefore x hx

theorem jobTable_setJob {n : Nat} {state : JobState} {s : State} (table : s.jobTable)
    (order : (setEntry n state s.engine.jobs).Pairwise (fun a b => b.active?.isSome = true → a.unfinished = false)) : (s.setJob n state).jobTable := by
  refine ⟨?_, ?_, order⟩
  · rw [setJob_jobs_eq, setEntry, List.length_map]
    exact table.1
  · rw [setJob_jobs_eq, setEntry_numbers]
    exact table.2.1

/-- An entry of the table in its place. -/
theorem split_of_mem {k : Job} {s : State} (h : k ∈ s.engine.jobs) : ∃ pre post, s.engine.jobs = pre ++ k :: post := List.append_of_mem h

/-- A change that leaves an entry unfinished leaves the ends and the bind counts (R157, R179). -/
theorem jobsKept_setJob_unfinished {j : Job} {state : JobState} {s : State} (opened : Open j s)
    (unfinished : ∀ k : Job, ({ k with state := state } : Job).unfinished = true)
    (order : s.jobTable → (setEntry j.number state s.engine.jobs).Pairwise (fun a b => b.active?.isSome = true → a.unfinished = false)) :
    JobsKept s (s.setJob j.number state) := by
  refine JobsKept.of_table fun table => ?_
  obtain ⟨k, mem, number, op, open'⟩ := opened
  obtain ⟨pre, post, jobs⟩ := split_of_mem mem
  have after : (s.setJob j.number state).engine.jobs = pre ++ { k with state := state } :: post := by
    rw [setJob_jobs_eq, jobs, ← number]
    exact setEntry_split (jobs ▸ table.2.1) state
  refine ⟨fun _ => jobTable_setJob table (order table), fun _ ends => ⟨ends.1, fun n => ?_⟩, fun _ binds i => ?_⟩
  · rw [State.setJob_endOrder, ends.2 n, after, jobs]
    simp only [List.mem_append, List.mem_cons]
    constructor
    · rintro ⟨x, hx, rfl, hu⟩
      rcases hx with hx | rfl | hx
      · exact ⟨x, .inl hx, rfl, hu⟩
      · rw [open'] at hu; cases hu
      · exact ⟨x, .inr (.inr hx), rfl, hu⟩
    · rintro ⟨x, hx, rfl, hu⟩
      rcases hx with hx | rfl | hx
      · exact ⟨x, .inl hx, rfl, hu⟩
      · rw [unfinished k] at hu; cases hu
      · exact ⟨x, .inr (.inr hx), rfl, hu⟩
  · have count : ((s.setJob j.number state).naming i).length = (s.naming i).length := by
      rw [State.naming, State.naming, after, jobs]
      simp [List.filter_cons, unfinished k, open']
      split <;> simp
    rw [count]
    exact binds i

/-- The leading entry becomes, or stays, ACTIVE (R168, R170). -/
theorem jobsKept_setActive {j : Job} {s : State} (leads : s.jobTable → Leads j s) (a : Active) : JobsKept s (s.setJob j.number (.active a)) := by
  refine JobsKept.of_table fun table => jobsKept_setJob_unfinished (leads table).isOpen (fun _ => rfl) fun _ => ?_
  obtain ⟨pre, k, post, jobs, number, -, -, before, after⟩ := leads table
  have order := table.2.2
  have distinct := table.2.1
  rw [jobs] at order distinct ⊢
  rw [← number, setEntry_split distinct]
  rw [List.pairwise_append, List.pairwise_cons] at order ⊢
  refine ⟨order.1, ⟨fun b hb active => ?_, order.2.1.2⟩, fun a ha b _ _ => before a ha⟩
  rw [after b hb] at active
  cases active

theorem leads_setActive {j : Job} {s : State} (table : s.jobTable) (leads : Leads j s) (a : Active) : Leads j (s.setJob j.number (.active a)) := by
  obtain ⟨pre, k, post, jobs, number, op, -, before, after⟩ := leads
  refine ⟨pre, { k with state := .active a }, post, ?_, number, op, rfl, before, after⟩
  rw [setJob_jobs_eq, jobs, ← number]
  exact setEntry_split (jobs ▸ table.2.1) _

/-- With no ACTIVE entry the candidate becomes, or stays, WAITING (R168). -/
theorem jobsKept_setWaiting {j : Job} {s : State} (none : s.activeJob = none) (h : s.candidate = some j) : JobsKept s (s.setJob j.number .waiting) := by
  refine jobsKept_setJob_unfinished (leads_of_candidate none h).isOpen (fun _ => rfl) fun _ => ?_
  have inactive : ∀ x ∈ setEntry j.number .waiting s.engine.jobs, x.active?.isSome = false := by
    intro x hx
    obtain ⟨k, hk, rfl⟩ := List.mem_map.1 hx
    split
    · rfl
    · simpa using List.find?_eq_none.1 none k hk
  refine List.pairwise_of_forall_mem_list fun a _ b hb active => ?_
  rw [inactive b hb] at active
  cases active

/-! ### The end of an entry -/

theorem unbind_slots (op : Operation) (s : State) (i : Fin 4) :
    (s.unbind op).slots[i] = { s.slots[i] with binds := s.slots[i].binds - (if op.slot.any (fun p => decide (p.1 = i)) then 1 else 0) } := by
  unfold State.unbind
  split
  · rename_i slot offset named
    by_cases h : slot = i
    · subst h; simp [named]
    · have : slot.val ≠ i.val := fun e => h (Fin.ext e)
      simp [named, h, this]
  · rename_i named
    simp [named]

theorem endJob_engine (j : Job) (c : Completion) (s : State) :
    (s.endJob j c).engine =
      { s.engine with jobs := setEntry j.number (.ended c) s.engine.jobs, endOrder := s.engine.endOrder ++ [j.number] } := by
  unfold State.endJob State.unbind
  split <;> rfl

theorem endJob_slots (j : Job) (c : Completion) (s : State) (i : Fin 4) :
    (s.endJob j c).slots[i] = { s.slots[i] with binds := s.slots[i].binds - (if j.op.slot.any (fun p => decide (p.1 = i)) then 1 else 0) } := by
  unfold State.endJob
  exact unbind_slots j.op _ i

/-- An unfinished entry ends: it joins the list of ends and its slot's bind count goes down by 1 (R157, R178, R179). -/
theorem jobsKept_endJob {j : Job} {s : State} (opened : s.jobTable → Open j s) (c : Completion) : JobsKept s (s.endJob j c) := by
  refine JobsKept.of_table fun table => ?_
  obtain ⟨k, mem, number, op, open'⟩ := opened table
  obtain ⟨pre, post, jobs⟩ := split_of_mem mem
  have distinct := table.2.1
  rw [jobs] at distinct
  have after : (s.endJob j c).engine.jobs = pre ++ { k with state := .ended c } :: post := by
    rw [endJob_engine, jobs, ← number]
    exact setEntry_split distinct _
  have apart : ∀ x ∈ s.engine.jobs, x.number = j.number → x = k := by
    intro x hx same
    exact List.inj_on_of_nodup_map table.2.1 hx mem (same.trans number.symm)
  refine ⟨fun _ => ⟨?_, ?_, ?_⟩, fun _ ends => ⟨?_, fun n => ?_⟩, fun _ binds i => ?_⟩
  · rw [endJob_engine]
    simpa [setEntry] using table.1
  · rw [endJob_engine]
    simpa [setEntry_numbers] using table.2.1
  · have order := table.2.2
    rw [jobs, List.pairwise_append, List.pairwise_cons] at order
    rw [after, List.pairwise_append, List.pairwise_cons]
    refine ⟨order.1, ⟨fun _ _ _ => rfl, order.2.1.2⟩, fun a ha b hb active => ?_⟩
    rcases List.mem_cons.1 hb with rfl | hb
    · cases active
    · exact order.2.2 a ha b (List.mem_cons_of_mem _ hb) active
  · rw [endJob_engine]
    refine List.nodup_append.2 ⟨ends.1, List.nodup_singleton _, fun n hn m hm same => ?_⟩
    obtain rfl := List.mem_singleton.1 hm
    obtain ⟨x, hx, hxn, ended⟩ := (ends.2 n).1 hn
    rw [apart x hx (hxn.trans same), open'] at ended
    cases ended
  · rw [after, endJob_engine]
    simp only [List.mem_append, ends.2 n, jobs, List.mem_cons, List.not_mem_nil, or_false]
    constructor
    · rintro (⟨x, hx, rfl, hu⟩ | rfl)
      · rcases hx with hx | rfl | hx
        · exact ⟨x, .inl hx, rfl, hu⟩
        · rw [open'] at hu; cases hu
        · exact ⟨x, .inr (.inr hx), rfl, hu⟩
      · exact ⟨_, .inr (.inl rfl), number, rfl⟩
    · rintro ⟨x, hx, rfl, hu⟩
      rcases hx with hx | rfl | hx
      · exact .inl ⟨x, .inl hx, rfl, hu⟩
      · exact .inr number
      · exact .inl ⟨x, .inr (.inr hx), rfl, hu⟩
  · have count : ((s.endJob j c).naming i).length = (s.naming i).length - (if j.op.slot.any (fun p => decide (p.1 = i)) then 1 else 0) := by
      rw [State.naming, State.naming, after, jobs, ← op]
      have ended : ({ k with state := .ended c } : Job).unfinished = false := rfl
      simp only [List.filter_append, List.filter_cons, open', ended, Bool.true_and, Bool.false_and, Bool.false_eq_true, if_false]
      split <;> simp
    rw [count, endJob_slots]
    refine ⟨by rw [(binds i).1], fun bound => (binds i).2 ?_⟩
    simp only at bound
    omega

/-! ### Cancelling -/

theorem cancel_engine (j : Job) (s : State) : ∃ c, s.cancel j = s.endJob j c := ⟨_, rfl⟩

/-- Entries of the table that wait end CANCELLED one after the other (R180, R181). -/
theorem jobsKept_cancelFold {l : List Job} {s : State} (distinct : (l.map Job.number).Nodup) (waiting : ∀ j ∈ l, j ∈ s.engine.jobs ∧ j.unfinished = true) :
    JobsKept s (l.foldl (fun t j => t.cancel j) s) := by
  induction l generalizing s with
  | nil => exact JobsKept.refl s
  | cons j l ih =>
    obtain ⟨c, cancelled⟩ := cancel_engine j s
    rw [List.map_cons, List.nodup_cons] at distinct
    have here := waiting j List.mem_cons_self
    rw [List.foldl_cons, cancelled]
    refine (jobsKept_endJob (fun _ => ⟨j, here.1, rfl, rfl, here.2⟩) c).trans (ih distinct.2 fun k hk => ?_)
    have later := waiting k (List.mem_cons_of_mem _ hk)
    refine ⟨?_, later.2⟩
    have other : k.number ≠ j.number := fun same => distinct.1 (List.mem_map.2 ⟨k, hk, same⟩)
    rw [endJob_engine]
    exact List.mem_map.2 ⟨k, later.1, if_neg other⟩

theorem jobsKept_cancelAll (s : State) : JobsKept s s.cancelAll := by
  refine JobsKept.of_table fun table => jobsKept_cancelFold ?_ fun j hj => ?_
  · exact table.2.1.sublist (List.filter_sublist.map _)
  · obtain ⟨mem, waits⟩ := List.mem_filter.1 hj
    exact ⟨mem, unfinished_of_waits waits⟩

theorem jobsKept_respond (x : Status) (k : Byte) (a : Answer) (s : State) : JobsKept s (s.respond x k a) := .of_same rfl rfl

theorem jobsKept_finishAbort {j : Job} {s : State} (opened : s.jobTable → Open j s) (a : Active) : JobsKept s (s.finishAbort j a) :=
  ((jobsKept_endJob opened _).trans (jobsKept_cancelAll _)).trans (jobsKept_respond ..)

/-! ### What a job's work can come to -/

/-- What the work of the ACTIVE job comes to as it begins or as an access of it ends: it asks for the bus, waits for the board ready input, ends, or is aborted; the
reset-owed flag of a lane may change before that (R164, R169 to R177, R181). -/
inductive Work (j : Job) : State → State → Prop where
  | rests (s : State) : Work j s s
  | asks (a : Active) (l : List Access) (s : State) : Work j s (s.askBoard j a l)
  | awaits (a : Active) (s : State) : Work j s (s.setJob j.number (.active a))
  | ends (c : Completion) (s : State) : Work j s (s.endJob j c)
  | aborts (a : Active) (s : State) : Work j s (s.finishAbort j a)
  | owes (lane : Fin 4) (b : Bool) {s t : State} (h : Work j (s.setOwed lane b) t) : Work j s t

theorem work_finishJob (j : Job) (a : Active) (o : JobOutcome) (r : Option Nat) (e d : Option Byte) (c : Option Crc) (s : State) :
    Work j s (s.finishJob j a o r e d c) := .ends _ s

theorem work_programDone (j : Job) (a : Active) (s : State) : Work j s (s.programDone j a) := by
  unfold State.programDone
  split
  · exact .asks ..
  · exact work_finishJob ..

theorem work_programStep (j : Job) (a : Active) (p : Profile) (f : FlashPart) (s : State) : Work j s (s.programStep j a p f) := by
  unfold State.programStep
  dsimp only
  split
  · exact work_programDone ..
  · split <;> exact .asks ..

theorem work_ramStep (j : Job) (a : Active) (s : State) : Work j s (s.ramStep j a) := by
  unfold State.ramStep
  split
  · exact work_programDone ..
  · exact .asks ..

theorem work_eraseStep (j : Job) (a : Active) (p : Profile) (f : FlashPart) (s : State) : Work j s (s.eraseStep j a p f) := by
  unfold State.eraseStep
  split <;> exact .asks ..

theorem work_eraseDone (j : Job) (a : Active) (p : Profile) (f : FlashPart) (s : State) : Work j s (s.eraseDone j a p f) := by
  unfold State.eraseDone
  split
  · split
    · exact work_eraseStep ..
    · exact work_finishJob ..
  · exact work_finishJob ..

theorem work_pollAgain (j : Job) (a : Active) (f : FlashPart) (start : Stamp) (s : State) : Work j s (s.pollAgain j a f start) := by
  unfold State.pollAgain
  split
  · exact .asks ..
  · exact .asks ..
  · exact .awaits ..

theorem work_pollDone (j : Job) (a : Active) (p : Profile) (f : FlashPart) (s : State) : Work j s (s.pollDone j a p f) := by
  unfold State.pollDone
  split
  · exact .asks ..
  · exact work_eraseDone ..

theorem work_timeOut (j : Job) (a : Active) (p : Profile) (f : FlashPart) (s : State) : Work j s (s.timeOut j a p f) := .asks ..

theorem work_pollBusy (j : Job) (a : Active) (p : Profile) (f : FlashPart) (start : Stamp) (s : State) : Work j s (s.pollBusy j a p f start) := by
  unfold State.pollBusy
  split
  · exact work_timeOut ..
  · exact work_pollAgain ..

theorem work_readingDone (j : Job) (a : Active) (s : State) : Work j s (s.readingDone j a) := by
  unfold State.readingDone
  repeat' split
  all_goals exact work_finishJob ..

theorem work_nextRead (j : Job) (a : Active) (s : State) : Work j s (s.nextRead j a) := by
  unfold State.nextRead
  split
  · exact work_readingDone ..
  · exact .asks ..

theorem work_readByteDone (j : Job) (a : Active) (p : Profile) (d : Byte) (s : State) : Work j s (s.readByteDone j a p d) := by
  unfold State.readByteDone
  dsimp only
  repeat' split
  all_goals first
    | with_reducible exact work_nextRead ..
    | with_reducible exact work_readingDone ..
    | with_reducible exact work_finishJob ..
    | with_reducible exact .asks ..

theorem work_retryDone (j : Job) (a : Active) (x : Byte) (n : Nat) (b : Bool) (d : Byte) (s : State) : Work j s (s.retryDone j a x n b d) := by
  unfold State.retryDone
  dsimp only
  repeat' split
  all_goals first
    | with_reducible exact work_nextRead ..
    | with_reducible exact .asks ..

theorem work_beginWork (j : Job) (a : Active) (p : Profile) (s : State) : Work j s (s.beginWork j a p) := by
  unfold State.beginWork
  repeat' split
  all_goals first
    | with_reducible exact work_eraseStep ..
    | with_reducible exact work_programStep ..
    | with_reducible exact work_ramStep ..
    | with_reducible exact .asks ..
    | with_reducible exact .rests ..

theorem work_abortReset (j : Job) (a : Active) (p : Profile) (s : State) : Work j s (s.abortReset j a p) := by
  unfold State.abortReset
  split
  · split
    · exact .owes j.lane true (.aborts ..)
    · exact .asks ..
  · exact .aborts ..

theorem work_flashPhaseEnd (j : Job) (a : Active) (p : Profile) (f : FlashPart) (d : Byte) (s : State) : Work j s (s.flashPhaseEnd j a p f d) := by
  unfold State.flashPhaseEnd
  dsimp only
  repeat' split
  all_goals first
    | with_reducible exact .rests ..
    | with_reducible exact work_beginWork ..
    | with_reducible exact work_finishJob ..
    | with_reducible exact .asks ..
    | with_reducible exact work_pollAgain ..
    | with_reducible exact work_pollDone ..
    | with_reducible exact work_pollBusy ..
    | with_reducible exact work_programStep ..
    | with_reducible exact .aborts ..

theorem work_phaseEnd (j : Job) (a : Active) (p : Profile) (d : Byte) (s : State) : Work j s (s.phaseEnd j a p d) := by
  unfold State.phaseEnd
  dsimp only
  repeat' split
  all_goals first
    | with_reducible exact .rests ..
    | with_reducible exact work_finishJob ..
    | with_reducible exact .asks ..
    | with_reducible exact work_ramStep ..
    | with_reducible exact work_readByteDone ..
    | with_reducible exact work_retryDone ..
    | with_reducible exact work_flashPhaseEnd ..

/-- The end of an engine access is the ACTIVE job's work, or nothing where none is ACTIVE (R170). -/
theorem work_engineAccessEnd (d : Byte) (s : State) :
    s.engineAccessEnd d = s ∨ ∃ j, s.activeJob = some j ∧ Work j s (s.engineAccessEnd d) := by
  unfold State.engineAccessEnd
  split
  · exact .inl rfl
  · rename_i j active
    split
    · rename_i a p _ _
      refine .inr ⟨j, active, ?_⟩
      have goesOn : ∀ t : State, Work j t (if a.aborting = true ∧ a.phase ≠ .abortReset then t.abortReset j (a.countRead d) p else t.phaseEnd j a p d) := by
        intro t
        split
        · exact work_abortReset ..
        · exact work_phaseEnd ..
      by_cases reset : a.phase.writesReset = true
      · rw [if_pos reset]
        exact .owes j.lane false (goesOn _)
      · rw [if_neg reset]
        exact goesOn _
    · exact .inl rfl

/-- Whatever the work of the leading entry comes to, the table is kept. -/
theorem jobsKept_work {j : Job} {s t : State} (work : Work j s t) (leads : s.jobTable → Leads j s) : JobsKept s t := by
  induction work with
  | rests s => exact JobsKept.refl s
  | asks a l s => exact (jobsKept_setActive leads a).trans (.of_same rfl rfl)
  | awaits a s => exact jobsKept_setActive leads a
  | ends c s => exact jobsKept_endJob (fun w => (leads w).isOpen) c
  | aborts a s => exact jobsKept_finishAbort (fun w => (leads w).isOpen) a
  | @owes lane b s _ _ ih =>
    have flag : JobsKept s (s.setOwed lane b) := .of_same rfl rfl
    exact flag.trans (ih fun w => (leads w).congr rfl)

theorem jobsKept_activeWork {j : Job} {s t : State} (work : Work j s t) (active : s.activeJob = some j) : JobsKept s t :=
  jobsKept_work work fun w => leads_of_active w active

theorem jobsKept_engineAccessEnd (d : Byte) (s : State) : JobsKept s (s.engineAccessEnd d) := by
  rcases work_engineAccessEnd d s with same | ⟨j, active, work⟩
  · rw [same]; exact JobsKept.refl s
  · exact jobsKept_activeWork work active

/-! ### The start rule -/

theorem jobsKept_cycle {s t : State} (h : s.cycleKeeps t) : JobsKept s t := .of_same h.engine h.slots

/-- What a started job comes to: it is ACTIVE, a transfer in its lane may have been cut short, and then its work begins or it ends at once (R168, R169). -/
theorem startJob_course (j : Job) (s : State) :
    ∃ u, (u = s.setJob j.number (.active (j.startWork s.timeBase)) ∨ ∃ cut, u = (s.setJob j.number (.active (j.startWork s.timeBase))).cutTransfer cut) ∧
      Work j u (s.startJob j) := by
  unfold State.startJob
  dsimp only
  split
  · exact ⟨_, .inl rfl, .rests _⟩
  · rename_i p _
    refine ⟨if j.op.writeClass then
        (s.setJob j.number (.active (j.startWork s.timeBase))).cutTransfer (fun b => b.boardBound && p.inRange b.address)
        else s.setJob j.number (.active (j.startWork s.timeBase)), ?_, ?_⟩
    · split
      · exact .inr ⟨_, rfl⟩
      · exact .inl rfl
    · generalize (if j.op.writeClass then
        (s.setJob j.number (.active (j.startWork s.timeBase))).cutTransfer (fun b => b.boardBound && p.inRange b.address)
        else s.setJob j.number (.active (j.startWork s.timeBase))) = u
      split
      · exact work_finishJob ..
      · split
        · exact .asks ..
        · exact work_beginWork ..

theorem jobsKept_startJob {j : Job} {s : State} (none : s.activeJob = none) (candidate : s.candidate = some j) : JobsKept s (s.startJob j) := by
  refine JobsKept.of_table fun table => ?_
  obtain ⟨u, course, work⟩ := startJob_course j s
  have cut : (s.setJob j.number (.active (j.startWork s.timeBase))).cycleKeeps u := by
    rcases course with rfl | ⟨cut, rfl⟩
    · exact .keepsRefl _
    · exact cutTransfer_cycleKeeps ..
  have leads := leads_of_candidate none candidate
  exact ((jobsKept_setActive (fun _ => leads) _).trans (jobsKept_cycle cut)).trans
    (jobsKept_work work fun _ => (leads_setActive table leads _).congr cut.engine)

theorem jobsKept_judgeOnce (s : State) : JobsKept s s.judgeOnce := by
  unfold State.judgeOnce
  split
  · exact JobsKept.refl s
  · rename_i inactive
    have none : s.activeJob = none := by simpa using inactive
    split
    · exact JobsKept.refl s
    · rename_i j candidate
      split
      · exact jobsKept_startJob none candidate
      · exact jobsKept_setWaiting none candidate

theorem jobsKept_judgeTimes (n : Nat) (s : State) : JobsKept s (s.judgeTimes n) := by
  induction n generalizing s with
  | zero => exact JobsKept.refl s
  | succ n ih => exact (jobsKept_judgeOnce s).trans (ih _)

theorem jobsKept_settleAbort (s : State) : JobsKept s s.settleAbort := by
  unfold State.settleAbort
  split
  · exact JobsKept.refl s
  · rename_i j active
    split
    · rename_i a _
      have aborted : ∀ u : State, u.engine = s.engine → u.slots = s.slots → JobsKept s (u.finishAbort j a) := fun u engine slots =>
        (JobsKept.of_same engine slots).trans <| jobsKept_finishAbort (fun table =>
          (leads_of_active table (by rw [State.activeJob, engine]; exact active)).isOpen) a
      split
      · exact aborted _ rfl rfl
      · exact JobsKept.refl s
    · exact JobsKept.refl s

/-- The judgement of the start rule, a waiting abort and the arbiter keep the table, the ends and the bind counts. -/
theorem jobsKept_settle (s : State) : JobsKept s s.settle :=
  ((jobsKept_judgeTimes _ s).trans (jobsKept_settleAbort _)).trans (jobsKept_cycle (arbitrate_cycleKeeps _))

theorem jobsKept_jobPowerLost (s : State) : JobsKept s s.jobPowerLost := by
  unfold State.jobPowerLost
  split
  · exact JobsKept.refl s
  · rename_i j active
    split
    · exact JobsKept.refl s
    · dsimp only
      have ended := jobsKept_endJob (j := j) (s := s) (fun table => (leads_of_active table active).isOpen)
      split
      · exact ((ended _).trans (jobsKept_cancelAll _)).trans (jobsKept_respond ..)
      · exact ended _

/-! ### ABORT ENGINE, COLLECT, SUBMIT -/

theorem jobsKept_abortActive {j : Job} {s : State} (active : s.activeJob = some j) (a : Active) : JobsKept s (s.abortActive j a) := by
  have withdrawn : JobsKept s { s with bus := { s.bus with engine := none } } := .of_same rfl rfl
  unfold State.abortActive
  split
  · exact jobsKept_setActive (fun table => leads_of_active table active) _
  · dsimp only
    split
    · exact (withdrawn.trans (jobsKept_activeWork (work_abortReset ..) active)).trans (jobsKept_settle _)
    · exact (withdrawn.trans (jobsKept_activeWork (.aborts ..) active)).trans (jobsKept_settle _)

/-- The entry that COLLECT takes is ENDED and its number is the first of the list of ends (R179). -/
theorem earliest_eq_some {e : Engine} {j : Job} {c : Completion} (h : e.earliest = some (j, c)) :
    j ∈ e.jobs ∧ j.state = .ended c ∧ ∃ rest, e.endOrder = j.number :: rest := by
  unfold Engine.earliest at h
  split at h
  · cases h
  · rename_i n rest order
    split at h
    · rename_i k found
      split at h <;> cases h
      rename_i state
      have number : j.number = n := by simpa using List.find?_some found
      exact ⟨List.mem_of_find?_eq_some found, state, rest, number ▸ order⟩
    · cases h

theorem jobsKept_remove {j : Job} {c : Completion} {s : State} (h : s.engine.earliest = some (j, c)) :
    JobsKept s { s with engine := s.engine.remove j.number } := by
  refine JobsKept.of_table fun table => ?_
  obtain ⟨mem, state, rest, order⟩ := earliest_eq_some h
  have finished : j.unfinished = false := by simp [Job.unfinished, state]
  have sub : (s.engine.jobs.filter (fun k => decide (k.number ≠ j.number))).Sublist s.engine.jobs := List.filter_sublist
  refine ⟨fun _ => ⟨le_trans sub.length_le table.1, table.2.1.sublist (sub.map _), table.2.2.sublist sub⟩, fun _ ends => ?_, fun _ binds i => ?_⟩
  · have nodup := ends.1
    rw [order, List.nodup_cons] at nodup
    refine ⟨by simpa [Engine.remove, order] using nodup.2, fun n => ?_⟩
    have listed := ends.2 n
    rw [order, List.mem_cons] at listed
    simp only [Engine.remove, order, List.drop_one, List.tail_cons, List.mem_filter, decide_eq_true_eq]
    constructor
    · intro hn
      obtain ⟨k, hk, rfl, hu⟩ := listed.1 (.inr hn)
      exact ⟨k, ⟨hk, fun same => nodup.1 (same ▸ hn)⟩, rfl, hu⟩
    · rintro ⟨k, ⟨hk, other⟩, rfl, hu⟩
      exact (listed.2 ⟨k, hk, rfl, hu⟩).resolve_left other
  · have named : ({ s with engine := s.engine.remove j.number } : State).naming i = s.naming i := by
      simp only [State.naming, Engine.remove, List.filter_filter]
      refine List.filter_congr fun k hk => ?_
      by_cases same : k.number = j.number
      · simp [List.inj_on_of_nodup_map table.2.1 hk mem same, finished]
      · simp [same]
    rw [named]
    exact binds i

/-- With fewer than 256 entries some job number is free (R165). -/
theorem newNumber_free {e : Engine} (h : e.jobs.length < 256) : e.holds e.newNumber = false := by
  have some' : ∃ n ∈ (List.range 256).map (fun i => (e.nextNumber + i) % 256), (!e.holds n) = true := by
    by_contra none
    push Not at none
    have held : ∀ n < 256, n ∈ e.jobs.map Job.number := by
      intro n hn
      have mem : n ∈ (List.range 256).map (fun i => (e.nextNumber + i) % 256) :=
        List.mem_map.2 ⟨(n + 256 - e.nextNumber % 256) % 256, List.mem_range.2 (by omega), by omega⟩
      have := none n mem
      simpa [Engine.holds] using this
    have many : (Finset.range 256).card ≤ (e.jobs.map Job.number).toFinset.card :=
      Finset.card_le_card fun n hn => List.mem_toFinset.2 (held n (Finset.mem_range.1 hn))
    have few := (e.jobs.map Job.number).toFinset_card_le
    rw [Finset.card_range] at many
    rw [List.length_map] at few
    omega
  obtain ⟨n, hn, free⟩ := some'
  unfold Engine.newNumber
  cases found : ((List.range 256).map (fun i => (e.nextNumber + i) % 256)).find? (fun n => !e.holds n) with
  | none => exact absurd free (by simpa using List.find?_eq_none.1 found n hn)
  | some m => simpa using List.find?_some found

theorem bind_slots (op : Operation) (s : State) (i : Fin 4) :
    (s.bind op).slots[i] = { s.slots[i] with binds := s.slots[i].binds + (if op.slot.any (fun p => decide (p.1 = i)) then 1 else 0) } := by
  unfold State.bind
  split
  · rename_i slot offset named
    by_cases h : slot = i
    · subst h; simp [named]
    · have : slot.val ≠ i.val := fun e => h (Fin.ext e)
      simp [named, h, this]
  · rename_i named
    simp [named]

theorem enterJob_engine (op : Operation) (lane : Fin 4) (address length : Nat) (s : State) :
    (s.enterJob op lane address length).engine =
      { s.engine with jobs := s.engine.jobs ++ [{ number := s.engine.newNumber, op, lane, address, length, state := .queued }],
                      nextNumber := (s.engine.newNumber + 1) % 256 } := by
  unfold State.enterJob State.bind
  dsimp only
  split <;> rfl

/-- A new entry joins a table that has room, its slot SEALED (R157, R165 to R167). -/
theorem jobsKept_enterJob {op : Operation} {s : State} (room : s.engine.jobs.length < Config.jobLimit)
    (ready : ∀ i : Fin 4, op.slot.any (fun p => decide (p.1 = i)) = true → s.slots[i].state.isSealed = true) (lane : Fin 4) (address length : Nat) :
    JobsKept s (s.enterJob op lane address length) := by
  have room' : s.engine.jobs.length < 8 := room
  have free : ∀ k ∈ s.engine.jobs, k.number ≠ s.engine.newNumber := by
    have := newNumber_free (e := s.engine) (by omega)
    simpa [Engine.holds] using this
  have fresh : ∀ k ∈ (s.enterJob op lane address length).engine.jobs, k ∈ s.engine.jobs ∨ (k.number = s.engine.newNumber ∧ k.unfinished = true) := by
    rw [enterJob_engine]
    intro k hk
    rcases List.mem_append.1 hk with hk | hk
    · exact .inl hk
    · rw [List.mem_singleton.1 hk]; exact .inr ⟨rfl, rfl⟩
  refine ⟨fun table => ⟨?_, ?_, ?_⟩, fun _ ends => ⟨?_, fun n => ?_⟩, fun _ binds i => ?_⟩
  · rw [enterJob_engine]
    simp only [List.length_append, List.length_singleton, Config.jobLimit]
    omega
  · rw [enterJob_engine]
    simp only [List.map_append, List.map_cons, List.map_nil]
    refine List.nodup_append.2 ⟨table.2.1, List.nodup_singleton _, fun a ha b hb => ?_⟩
    obtain ⟨k, hk, rfl⟩ := List.mem_map.1 ha
    rw [List.mem_singleton.1 hb]
    exact free k hk
  · rw [enterJob_engine]
    refine List.pairwise_append.2 ⟨table.2.2, List.pairwise_singleton _ _, fun a _ b hb active => ?_⟩
    rw [List.mem_singleton.1 hb] at active
    cases active
  · rw [enterJob_engine]; exact ends.1
  · rw [enterJob_engine]
    simp only [ends.2 n, List.mem_append, List.mem_singleton]
    constructor
    · rintro ⟨k, hk, hn⟩
      exact ⟨k, .inl hk, hn⟩
    · rintro ⟨k, hk | rfl, hn, hu⟩
      · exact ⟨k, hk, hn, hu⟩
      · cases hu
  · have slot : (s.enterJob op lane address length).slots[i] =
        { s.slots[i] with binds := s.slots[i].binds + (if op.slot.any (fun p => decide (p.1 = i)) then 1 else 0) } := bind_slots op _ i
    have count : ((s.enterJob op lane address length).naming i).length =
        (s.naming i).length + (if op.slot.any (fun p => decide (p.1 = i)) then 1 else 0) := by
      rw [State.naming, State.naming, enterJob_engine]
      simp only [List.filter_append, List.length_append, List.filter_cons, List.filter_nil, Job.unfinished, Bool.true_and]
      split <;> rfl
    rw [slot, count]
    refine ⟨by rw [(binds i).1], fun bound => ?_⟩
    by_cases named : op.slot.any (fun p => decide (p.1 = i)) = true
    · exact ready i named
    · simp only [named, Bool.false_eq_true, if_false, Nat.add_zero] at bound
      exact (binds i).2 bound

/-! ### The slots -/

/-- A slot's new contents: its bind count stays, and it is SEALED, or has no bind (R153 to R155). -/
theorem jobsKept_setSlot {s : State} {slot : Nat} (inRange : slot < 4) {x : Slot} (bound : x.binds = s.slots[slot].binds)
    (isSealed : s.bindsCount → 0 < x.binds → x.state.isSealed = true) : JobsKept s { s with slots := s.slots.set slot x inRange } := by
  refine ⟨id, fun _ h => h, fun _ binds i => ?_⟩
  have named : ({ s with slots := s.slots.set slot x inRange } : State).naming i = s.naming i := rfl
  rw [named]
  by_cases h : slot = i.val
  · subst h
    simp only [Fin.getElem_fin, Vector.getElem_set_self]
    exact ⟨bound.trans (binds i).1, isSealed binds⟩
  · simp only [Fin.getElem_fin, Vector.getElem_set, if_neg h]
    exact binds i

end Sys2Proof.JobTable
end

section
/-! PROOFS. What becomes of a command at the link, and the forms that every step keeps: overlay memory, the Trace Store, the job table (chapters 3, 7, 9, 10). -/

namespace Sys2Proof.StepForms

open Sys2Proof Sys2Proof.Machine Sys2Proof.JobTable State.cycleKeeps

/-! ### A command at the link -/

/-- All that can become of a command's frame: the receive queue changes alone, or the frame is taken and is answered WRONG_STATE or acted on (R50, R186). -/
theorem onTaken_cases (c : Instr) (s : State) (act : State → Result) :
    (∃ queue, s.onTaken c act = .next { s with link := { s.link with queue := queue } }) ∨
    ∃ t, s.takesFrame c t ∧ (s.onTaken c act = .next (t.respond .wrongState (Instr.code c) .empty) ∨
      ((s.overlay.survey = .powerOn → Instr.takenInSurvey c = true) ∧ s.onTaken c act = act t)) := by
  have queued : ∃ queue, (.next (s.queueFrame (Instr.frame c)) : Result) = .next { s with link := { s.link with queue := queue } } := by
    unfold State.queueFrame
    split
    · exact ⟨_, rfl⟩
    · exact ⟨s.link.queue, rfl⟩
  have judged : ∀ t, s.takesFrame c t → s.onTaken c act = .next (t.respond .wrongState (Instr.code c) .empty) ∨
      ((s.overlay.survey = .powerOn → Instr.takenInSurvey c = true) ∧ s.onTaken c act = act t) := by
    intro t taken
    rw [State.onTaken_judged taken, State.judged, State.takesFrame_survey taken]
    split
    · exact .inl rfl
    · rename_i admitted
      exact .inr ⟨fun survey => by simpa [survey] using admitted, rfl⟩
  by_cases prst : s.port.prst = true
  · exact .inl ⟨s.link.queue, State.onTaken_prst prst act⟩
  · rw [Bool.not_eq_true] at prst
    by_cases kept : s.link.activity.busy = true ∨ Instr.mustWait c s = true
    · rw [State.onTaken_busy prst kept]
      exact .inl queued
    · simp only [not_or, Bool.not_eq_true, Activity.busy_eq_false] at kept
      cases queue : s.link.queue with
      | nil => exact .inr ⟨_, ⟨prst, kept.1, kept.2, .inl ⟨queue, rfl⟩⟩, judged _ ⟨prst, kept.1, kept.2, .inl ⟨queue, rfl⟩⟩⟩
      | cons f rest =>
        by_cases spells : f.spells = .command c
        · exact .inr ⟨_, ⟨prst, kept.1, kept.2, .inr ⟨f, rest, queue, spells, rfl⟩⟩, judged _ ⟨prst, kept.1, kept.2, .inr ⟨f, rest, queue, spells, rfl⟩⟩⟩
        · rw [State.onTaken_behind prst queue spells]
          exact .inl queued

/-! ### The forms -/

/-- The forms of overlay memory, of the Trace Store and of the job table are kept. -/
structure Kept (s t : State) : Prop extends JobsKept s t where
  overlay : s.memoryWf ∧ s.listFormed → t.memoryWf ∧ t.listFormed
  trace : s.traceConsecutive → t.traceConsecutive

theorem Kept.refl (s : State) : Kept s s := ⟨.refl s, id, id⟩

theorem Kept.trans {s t u : State} (h : Kept s t) (k : Kept t u) : Kept s u :=
  ⟨h.toJobsKept.trans k.toJobsKept, k.overlay ∘ h.overlay, k.trace ∘ h.trace⟩

theorem overlay_of_same {s t : State} (overlay : t.overlay = s.overlay) : s.memoryWf ∧ s.listFormed → t.memoryWf ∧ t.listFormed := by
  simp only [State.memoryWf, State.listFormed, overlay]
  exact id

theorem trace_of_same {s t : State} (trace : t.trace = s.trace) : s.traceConsecutive → t.traceConsecutive := by
  simp only [State.traceConsecutive, trace]
  exact id

/-- An update of none of them. -/
theorem Kept.of_same {s t : State} (overlay : t.overlay = s.overlay) (trace : t.trace = s.trace) (engine : t.engine = s.engine)
    (slots : t.slots = s.slots) : Kept s t := ⟨.of_same engine slots, overlay_of_same overlay, trace_of_same trace⟩

/-- The course of a cycle, of a hold or of a claim. -/
theorem Kept.of_cycle {s t : State} (h : s.cycleKeeps t) : Kept s t where
  toJobsKept := jobsKept_cycle h
  overlay := fun ⟨wf, list⟩ => ⟨h.memoryWf wf, by rw [State.listFormed, h.repairList, h.survey]; exact list⟩
  trace := h.traceConsecutive

/-- The work of the engine, of the arbiter, of the slots. -/
theorem Kept.of_engine {s t : State} (h : s.engineOnly t) (jobs : JobsKept s t) : Kept s t := by
  obtain ⟨⟨-, -, overlay, -⟩, -, -, trace⟩ := h
  exact ⟨jobs, overlay_of_same overlay, trace_of_same trace⟩

/-- A change of overlay memory alone. -/
theorem Kept.of_overlay {s : State} {o : Overlay} (h : s.memoryWf ∧ s.listFormed → ({ s with overlay := o } : State).memoryWf ∧ ({ s with overlay := o } : State).listFormed) :
    Kept s { s with overlay := o } := ⟨.of_same rfl rfl, h, id⟩

/-- A change of the Trace Store alone: its records lose some of the oldest, or all. -/
theorem Kept.of_trace {s : State} {store : TraceStore} (n : Nat) (records : store.records = s.trace.records.drop n) (next : store.next = s.trace.next) :
    Kept s { s with trace := store } := by
  refine ⟨.of_same rfl rfl, id, fun ⟨room, order⟩ => ?_⟩
  simp only [State.traceConsecutive, records, next]
  exact ⟨le_trans (by simp) room, consecutive_drop order n⟩

/-- A change of the slots that keeps the bind counts. -/
theorem Kept.of_jobs {s t : State} (jobs : JobsKept s t) (overlay : t.overlay = s.overlay) (trace : t.trace = s.trace) : Kept s t :=
  ⟨jobs, overlay_of_same overlay, trace_of_same trace⟩

theorem kept_settle (s : State) : Kept s s.settle := .of_engine (settle_engineOnly s) (jobsKept_settle s)

/-- A change of conditions that is followed by the judgement of the start rule and the arbiter's choice. -/
theorem Kept.settled {s t : State} (h : Kept s t) : Kept s t.settle := h.trans (kept_settle t)

theorem kept_latch (n : Notice) (s : State) : Kept s (s.latch n) := .of_same rfl rfl rfl rfl

/-! ### Results -/

/-- If the result is a next state, the forms are kept in it. -/
structure ResultKept (s : State) (r : Result) : Prop where
  next : ∀ t, r = .next t → Kept s t

theorem kept_next {s t : State} (h : Kept s t) : ResultKept s (.next t) := ⟨fun _ same => (Host.Outcome.next.inj same) ▸ h⟩

theorem kept_fault {s : State} (f : Fault) : ResultKept s (.fault f) := ⟨fun _ same => nomatch same⟩

theorem ResultKept.after {s t : State} {r : Result} (k : ResultKept t r) (h : Kept s t) : ResultKept s r := ⟨fun u same => h.trans (k.next u same)⟩

/-- A response leaves the forms to what was done before it. -/
theorem kept_accept {s t : State} (h : Kept s t) (c : Instr) (a : Answer) : ResultKept s (t.accept c a) :=
  kept_next (h.trans (.of_same rfl rfl rfl rfl))

theorem kept_reject (c : Instr) (status : Status) (s : State) : ResultKept s (s.reject c status) := kept_next (.of_same rfl rfl rfl rfl)

theorem kept_taken {c : Instr} {s t : State} (h : s.takesFrame c t) : Kept s t := by
  obtain ⟨-, -, -, ⟨-, rfl⟩ | ⟨_, _, -, -, rfl⟩⟩ := h <;> exact .of_same rfl rfl rfl rfl

/-- A command whose action keeps the forms keeps them, whatever becomes of its frame. -/
theorem kept_onTaken {c : Instr} {s : State} {act : State → Result}
    (h : ∀ t, (t.overlay.survey = .powerOn → Instr.takenInSurvey c = true) → ResultKept t (act t)) : ResultKept s (s.onTaken c act) := by
  rcases onTaken_cases c s act with ⟨queue, r⟩ | ⟨t, taken, r | ⟨admitted, r⟩⟩
  · rw [r]; exact kept_next (.of_same rfl rfl rfl rfl)
  · have answered : Kept t (t.respond .wrongState (Instr.code c) .empty) := .of_same rfl rfl rfl rfl
    rw [r]; exact (kept_next answered).after (kept_taken taken)
  · rw [r]; exact (h t (State.takesFrame_survey taken ▸ admitted)).after (kept_taken taken)

/-! ### Resets and surveys -/

theorem kept_stopSurvey (s : State) : Kept s s.stopSurvey := by
  unfold State.stopSurvey
  split
  · refine Kept.trans (Kept.of_overlay fun ⟨wf, list⟩ => ?_) (.of_same rfl rfl rfl rfl)
    exact ⟨Mem.wf_fillTo wf _, list.1, list.2.1, nofun⟩
  · exact Kept.refl s

/-- What a reset leaves has every form but that of overlay memory, which it is given. -/
theorem kept_afterReset {s : State} {o : Overlay} (h : s.memoryWf ∧ s.listFormed → ({ s with overlay := o } : State).memoryWf ∧ ({ s with overlay := o } : State).listFormed)
    (supply : Nat) (boardReset : Bool) (levels : Fin 4 → Bool) (freeIndex : Nat) (pending : List Instr) :
    Kept s (State.afterReset o supply boardReset levels freeIndex pending) where
  table := fun _ => ⟨Nat.zero_le _, List.nodup_nil, List.Pairwise.nil⟩
  ends := fun _ _ => ⟨List.nodup_nil, fun n => by simp [State.afterReset]⟩
  binds := fun _ _ i => by simp [State.afterReset, State.naming]
  overlay := h
  trace := fun _ => ⟨Nat.zero_le _, fun i h => absurd h (Nat.not_lt_zero i)⟩

theorem powerOn_repairList : Overlay.powerOn.repairList = List.range Config.physicalPages := by rw [Overlay.powerOn]

theorem powerOn_formed (s : State) : ({ s with overlay := Overlay.powerOn } : State).memoryWf ∧ ({ s with overlay := Overlay.powerOn } : State).listFormed := by
  simp only [State.memoryWf, State.listFormed, powerOn_repairList]
  exact ⟨Mem.wf_nil, List.pairwise_lt_range, fun _ h => List.mem_range.1 h, fun _ => trivial⟩

theorem kept_partReset (s : State) : Kept s s.partReset := by
  unfold State.partReset
  refine (kept_stopSurvey s).trans (kept_afterReset (fun formed => ?_) ..)
  split
  · exact powerOn_formed _
  · exact formed

theorem kept_finishGranted (s : State) : Kept s s.finishGranted := by
  unfold State.finishGranted
  split
  · split
    · exact .of_cycle (transferWrite_cycleKeeps ..)
    · exact Kept.refl s
  · exact Kept.refl s

theorem kept_holdInReset (s : State) : Kept s s.holdInReset :=
  ((kept_stopSurvey s).trans (kept_finishGranted _)).trans (.of_same rfl rfl rfl rfl)

theorem kept_endReset (s : State) : Kept s s.endReset := by
  unfold State.endReset
  split
  · exact kept_partReset s
  · exact .of_same rfl rfl rfl rfl

theorem kept_surveyEnds (readBacks : List ReadBack) (s : State) : Kept s (s.surveyEnds readBacks) := by
  refine Kept.trans (Kept.of_overlay fun _ => ?_) (kept_latch ..)
  obtain ⟨ascending, listed⟩ := surveyList_spec readBacks
  exact ⟨Mem.wf_nil, ascending, fun p hp => ((listed p).1 hp).1, nofun⟩

/-! ### The limits -/

theorem kept_passUntil (since : Stamp) (limit : Nat) (s : State) : Kept s (s.passUntil since limit) := by
  unfold State.passUntil
  split
  · exact .of_same rfl rfl rfl rfl
  · exact Kept.refl s

theorem kept_expireHold (timer : HoldTimer) (s : State) : Kept s (s.expireHold timer) :=
  (((kept_passUntil ..).trans (.of_cycle (cutOff_cycleKeeps ..))).trans (kept_latch ..)).settled

theorem kept_expireDue (s : State) : Kept s s.expireDue := by
  unfold State.expireDue
  split
  · split
    · exact kept_expireHold ..
    · exact Kept.refl s
  · exact Kept.refl s

/-- The poll of the ACTIVE job is one of the ACTIVE job. -/
theorem polling_active {s : State} {j : Job} {a : Active} {p : Profile} {f : FlashPart} {start : Stamp} {stage : PollStage}
    (h : s.polling = some (j, a, p, f, start, stage)) : s.activeJob = some j := by
  unfold State.polling at h
  split at h
  · cases h
  · rename_i k active
    split at h
    · split at h <;> cases h
      exact active
    · cases h

theorem kept_timeOut {s : State} {j : Job} (active : s.activeJob = some j) (a : Active) (p : Profile) (f : FlashPart) : Kept s (s.timeOut j a p f) :=
  .of_engine (timeOut_engineOnly ..) (jobsKept_activeWork (work_timeOut ..) active)

theorem kept_pollExpire (s : State) : Kept s s.pollExpire := by
  unfold State.pollExpire
  split
  · rename_i polls
    split
    · exact (kept_timeOut (polling_active polls) ..).settled
    · exact Kept.refl s
  · exact Kept.refl s

theorem kept_endReception (f : Frame) (s : State) : Kept s (s.endReception f) := by
  unfold State.endReception
  split
  · exact .of_same rfl rfl rfl rfl
  · exact Kept.refl s

theorem kept_dropLate (told : Option Byte) (s : State) : Kept s (s.dropLate told) := by
  unfold State.dropLate
  split
  · exact (kept_passUntil ..).trans (kept_endReception ..)
  · exact Kept.refl s

theorem kept_dropDue (s : State) : Kept s s.dropDue := by
  unfold State.dropDue
  split
  · exact kept_dropLate ..
  · exact Kept.refl s

theorem kept_takeDue (s : State) : Kept s s.takeDue := ((kept_expireDue s).trans (kept_pollExpire _)).trans (kept_dropDue _)

theorem kept_tick (s : State) : Kept s s.tick := .of_same rfl rfl rfl rfl

theorem kept_passTime (s : State) : Kept s s.passTime := (kept_tick s).trans (kept_takeDue _)

/-! ### Events of the board -/

theorem kept_freeBus (s : State) : Kept s s.freeBus := .of_same rfl rfl rfl rfl

theorem kept_recordAccess (lane : Fin 4) (a : Access) (data : Byte) (s : State) : Kept s (s.recordAccess lane a data) :=
  .of_cycle (mark_cycleKeeps ..)

theorem kept_targetAccessEnd (data : Byte) (s : State) : Kept s (s.targetAccessEnd data) := by
  unfold State.targetAccessEnd
  split
  · exact (kept_freeBus s).trans (.of_cycle (completeCycle_cycleKeeps ..))
  · exact kept_freeBus s

theorem kept_heldAccessEnd (s : State) : Kept s s.heldAccessEnd := by
  unfold State.heldAccessEnd
  split
  · exact Kept.refl s
  · split
    · exact (kept_freeBus s).trans (kept_partReset _)
    · exact kept_freeBus s

theorem kept_boardAccessEnd (data : Byte) (s : State) : ResultKept s (execBoardAccessEnd data s) := by
  unfold execBoardAccessEnd
  split
  · exact kept_next (kept_heldAccessEnd s)
  · split
    · exact kept_next (Kept.refl s)
    · exact kept_next (Kept.refl s)
    · exact kept_next (kept_targetAccessEnd data s).settled
    · split
      · exact kept_next ((kept_freeBus s).trans (.of_cycle (transferAccessEnd_cycleKeeps ..))).settled
      · exact kept_fault _
    · exact kept_next ((kept_recordAccess ..).trans (kept_freeBus _)).settled
    · exact kept_next (kept_freeBus s).settled
    · exact kept_next (((kept_recordAccess ..).trans (kept_freeBus _)).trans
        (.of_engine (engineAccessEnd_engineOnly ..) (jobsKept_engineAccessEnd ..))).settled
    · exact kept_next ((kept_recordAccess ..).trans (.of_same rfl rfl rfl rfl))

theorem kept_supplyLost (s : State) : Kept s s.supplyLost := by
  have pin : Kept s { s with port := { s.port with powered := false } } := .of_same rfl rfl rfl rfl
  have cut := (pin.trans (.of_cycle (cutOff_cycleKeeps .power .unpowered (.power true) _))).trans (kept_latch .power _)
  have bus := (cut.trans (.of_cycle (cutTransfer_cycleKeeps TransferByte.boardBound _))).trans
    (.of_same (t := State.engineBusLost _) rfl rfl rfl rfl)
  have job := bus.trans (.of_engine (jobPowerLost_engineOnly _) (jobsKept_jobPowerLost _))
  exact job.trans (.of_same rfl rfl rfl rfl)

theorem takeUpClaims_cycleKeeps (s : State) : s.cycleKeeps s.takeUpClaims := by
  unfold State.takeUpClaims
  dsimp only
  split
  · exact keepsTrans (setHold_cycleKeeps ..) (armOrMiss_cycleKeeps _)
  · exact setHold_cycleKeeps ..

theorem kept_supplyReturned (s : State) : Kept s s.supplyReturned := by
  have pin : Kept s { s with port := { s.port with powered := true, resetSense := false } } := .of_same rfl rfl rfl rfl
  have marked : ∀ t : State, Kept t ((t.mark (.power false)).latch .power) := fun t => (Kept.of_cycle (mark_cycleKeeps ..)).trans (kept_latch ..)
  unfold State.supplyReturned
  dsimp only
  split
  · exact (pin.trans (.of_cycle (setHold_cycleKeeps ..))).trans (marked _)
  · exact (pin.trans (.of_cycle (takeUpClaims_cycleKeeps _))).trans (marked _)

theorem kept_supervise (s : State) : Kept s s.supervise := by
  unfold State.supervise
  split
  · split
    · exact (kept_supplyLost s).settled
    · exact Kept.refl s
  · split
    · exact (kept_supplyReturned s).settled
    · exact Kept.refl s

theorem kept_supplyAt (level : Nat) (s : State) : Kept s (s.supplyAt level) := by
  have pin : Kept s (s.setSupply level) := .of_same rfl rfl rfl rfl
  unfold State.supplyAt
  split
  · exact pin
  · exact pin.trans (kept_supervise _)

theorem kept_edgeTaken (line : Fin 4) (rising : Bool) (p : ProbeLine) (s : State) : Kept s (s.edgeTaken line rising p) := by
  have stamped : Kept s (s.setProbeLine line (p.stamped rising s.timeBase)) := .of_same rfl rfl rfl rfl
  have recorded : Kept s (if p.record then (s.setProbeLine line (p.stamped rising s.timeBase)).offer (.edge line rising) true s.timeBase
      else s.setProbeLine line (p.stamped rising s.timeBase)) := by
    split
    · exact stamped.trans (.of_cycle (offer_cycleKeeps ..))
    · exact stamped
  unfold State.edgeTaken
  dsimp only
  split
  · exact recorded.trans (kept_latch ..)
  · exact recorded

theorem kept_probeEdge (line : Fin 4) (rising : Bool) (s : State) : ResultKept s (execProbeEdge line rising s) := by
  unfold execProbeEdge
  dsimp only
  split
  · exact kept_next (Kept.refl s)
  · split
    · exact kept_next (.of_same rfl rfl rfl rfl)
    · split
      · exact kept_next (kept_edgeTaken ..)
      · split
        · exact kept_next ((kept_edgeTaken ..).trans (.of_cycle (raiseClaim_cycleKeeps ..))).settled
        · exact kept_fault _

theorem kept_senseNet (s : State) : Kept s s.senseNet := by
  unfold State.senseNet
  split
  · exact .of_same rfl rfl rfl rfl
  · exact Kept.refl s

theorem kept_boardResetSeen (s : State) : ResultKept s (execBoardResetSeen s) := by
  have line : Kept s (s.setBoardReset true) := .of_same rfl rfl rfl rfl
  unfold execBoardResetSeen
  split
  · exact kept_next ((line.trans (.of_cycle (cutOff_cycleKeeps ..))).trans (kept_latch ..)).settled
  · exact kept_next line

theorem kept_boardResetReleased (s : State) : ResultKept s (execBoardResetReleased s) := by
  have line : Kept s (s.setBoardReset false) := .of_same rfl rfl rfl rfl
  unfold execBoardResetReleased
  dsimp only
  split
  · exact kept_next line
  · exact kept_next (line.trans (kept_senseNet _))

theorem kept_readyLineAsserted (s : State) : ResultKept s (execReadyLineAsserted s) := by
  unfold execReadyLineAsserted
  split
  · rename_i polls
    split
    · exact kept_next (Kept.refl s)
    · exact kept_next (Kept.of_engine (pollDone_engineOnly ..) (jobsKept_activeWork (work_pollDone ..) (polling_active polls))).settled
  all_goals exact kept_next (Kept.refl s)

theorem passUntil_engine (since : Stamp) (limit : Nat) (s : State) : (s.passUntil since limit).engine = s.engine := by
  unfold State.passUntil
  split <;> rfl

theorem kept_pollTimeout (s : State) : ResultKept s (execPollTimeout s) := by
  unfold execPollTimeout
  split
  · exact kept_next (Kept.refl s)
  · rename_i j a p f start stage polls
    have active : (s.passUntil start (pollLimit j.op f)).activeJob = some j := by
      rw [State.activeJob, passUntil_engine]
      exact polling_active polls
    split
    · exact kept_next (Kept.refl s)
    · dsimp only
      split
      · exact kept_next (((kept_passUntil ..).trans (kept_timeOut active ..)).settled.trans (kept_takeDue _))
      all_goals exact kept_next ((kept_passUntil ..).trans (kept_takeDue _))

theorem kept_lineSurveyEnd (high low : List (BitVec 28)) (s : State) : ResultKept s (execLineSurveyEnd high low s) := by
  unfold execLineSurveyEnd
  split
  · generalize Vector.ofFn (judgeLine high low) = map
    have replaced : Kept s (({ s with bus := { s.bus with owner := .free, lineMap := map, survey := false } } : State).latch .surveyDone) := .of_same rfl rfl rfl rfl
    exact kept_next replaced.settled
  · exact kept_next (Kept.refl s)

/-! ### Commands on the board bus and on overlay memory -/

theorem kept_startTransfer (c : Instr) (form : TransferForm) (bytewise view : Bool) (bytes : List TransferByte) (s : State) :
    ResultKept s (s.startTransfer c form bytewise view bytes) := by
  unfold State.startTransfer
  split
  · exact kept_reject ..
  · split
    · exact kept_next (Kept.of_cycle (runTransfer_cycleKeeps ..)).settled
    · exact kept_fault _

theorem kept_startOverlay (form : TransferForm) (bytewise : Bool) (bytes : List TransferByte) (s : State) :
    ResultKept s (s.startOverlay form bytewise bytes) := kept_next (.of_cycle (runTransfer_cycleKeeps ..))

theorem kept_surveyOverlay (s : State) : ResultKept s (execSurveyOverlay s) := by
  refine kept_onTaken fun t _ => ?_
  repeat' split
  · exact kept_reject ..
  · exact kept_reject ..
  · refine kept_accept ?_ ..
    exact Kept.of_overlay fun ⟨wf, ascending, below, _⟩ => ⟨wf, ascending, below, fun h => OverlaySurvey.noConfusion h⟩

theorem kept_surveyLines (s : State) : ResultKept s (execSurveyLines s) := by
  refine kept_onTaken fun t _ => ?_
  repeat' split
  · exact kept_reject ..
  · exact kept_reject ..
  · exact kept_reject ..
  · refine kept_accept (Kept.settled ?_) ..
    exact .of_same rfl rfl rfl rfl

/-! ### Commands on run control -/

theorem kept_rewired (s : State) : Kept s s.rewired := by
  unfold State.rewired
  repeat' split
  all_goals first | exact Kept.refl s | exact .of_same rfl rfl rfl rfl

theorem kept_optionsTaken (wiring threshold : Bool) (s : State) : Kept s (s.optionsTaken wiring threshold) := by
  have drawn : Kept s s.useFree := .of_same rfl rfl rfl rfl
  unfold State.optionsTaken
  split
  · exact Kept.refl s
  · exact kept_rewired s
  · exact kept_supervise s
  · split
    · exact (drawn.trans (kept_rewired _)).trans (kept_supervise _)
    · exact (drawn.trans (kept_supervise _)).trans (kept_rewired _)

theorem kept_setHoldOptions (f : HoldFields) (s : State) : ResultKept s (execSetHoldOptions f s) := by
  refine kept_onTaken fun t _ => ?_
  repeat' split
  · exact kept_reject ..
  · rename_i valid _
    have options : Kept t (t.setOptions f ⟨f.threshold, valid.1⟩) := .of_same rfl rfl rfl rfl
    exact kept_accept (options.trans (kept_optionsTaken ..)).settled ..
  · exact kept_reject ..

theorem floorTaken_cycleKeeps (floor : Nat) (s : State) : s.cycleKeeps (s.floorTaken floor) := by
  have new : s.cycleKeeps (s.withFloor floor) := keepsOf s ..
  unfold State.floorTaken
  dsimp only
  repeat' split
  all_goals first
    | with_reducible exact new
    | exact keepsTrans new (armOrMiss_cycleKeeps _)
    | exact keepsTrans new (setHold_cycleKeeps ..)

theorem kept_setFloor (floor : Nat) (s : State) : ResultKept s (execSetFloor floor s) := by
  refine kept_onTaken fun t _ => ?_
  have new : Kept t (t.withFloor floor) := .of_same rfl rfl rfl rfl
  repeat' split
  · exact kept_reject ..
  · exact kept_reject ..
  · exact kept_next ((new.trans (.of_cycle (occupy_cycleKeeps ..))).trans (.of_cycle (endHoldByFloor_cycleKeeps _))).settled
  · exact kept_accept (new.trans (.of_cycle (endHoldByFloor_cycleKeeps _))).settled ..
  · exact kept_fault _
  · exact kept_accept (Kept.of_cycle (floorTaken_cycleKeeps ..)).settled ..

theorem kept_halt (level : Nat) (s : State) : ResultKept s (execHalt level s) := by
  refine kept_onTaken fun t _ => ?_
  repeat' split
  · exact kept_reject ..
  · exact kept_accept (Kept.of_cycle (raiseClaim_cycleKeeps ..)).settled ..
  · exact kept_fault _

theorem releaseHold_cycleKeeps (mode : ReleaseMode) (s : State) : s.cycleKeeps (s.releaseHold mode) := by
  unfold State.releaseHold
  dsimp only
  split
  · exact keepsTrans (keepsTrans (endHold_cycleKeeps ..) (setHold_cycleKeeps ..)) (proceedHeld_cycleKeeps _)
  · exact keepsTrans (keepsTrans (endHold_cycleKeeps ..) (setHold_cycleKeeps ..)) (substituteHeld_cycleKeeps ..)
  · exact keepsTrans (keepsTrans (keepsTrans (endHold_cycleKeeps ..) (enterClaim_cycleKeeps ..)) (setHold_cycleKeeps ..)) (proceedHeld_cycleKeeps _)

theorem releaseQuietly_cycleKeeps (s : State) : s.cycleKeeps s.releaseQuietly := by
  unfold State.releaseQuietly
  split
  · exact setHold_cycleKeeps ..
  · exact keepsRefl s

theorem kept_releaseTaken (c : Instr) (target : ReleaseTarget) (mode : ReleaseMode) (s : State) : ResultKept s (s.releaseTaken c target mode) := by
  have removed : Kept s (s.withClaims (target.remaining s.run.claims)) := .of_same rfl rfl rfl rfl
  unfold State.releaseTaken
  dsimp only
  repeat' split
  · exact kept_reject ..
  · exact kept_reject ..
  · exact kept_reject ..
  · exact kept_reject ..
  · exact kept_next ((removed.trans (.of_cycle (occupy_cycleKeeps ..))).trans (.of_cycle (releaseHold_cycleKeeps ..))).settled
  · exact kept_accept (removed.trans (.of_cycle (releaseHold_cycleKeeps ..))).settled ..
  · exact kept_fault _
  · exact kept_accept (removed.trans (.of_cycle (releaseQuietly_cycleKeeps _))).settled ..

theorem kept_release (source mode : Nat) (byte : Option Byte) (stepKind : Option Nat) (s : State) :
    ResultKept s (execRelease source mode byte stepKind s) := by
  refine kept_onTaken fun t _ => ?_
  split
  · exact kept_releaseTaken ..
  · exact kept_reject ..

theorem kept_resetTarget (s : State) : ResultKept s (execResetTarget s) := by
  refine kept_onTaken fun t _ => ?_
  split
  · exact kept_reject ..
  · exact kept_accept (Kept.of_cycle (cutOff_cycleKeeps ..)).settled ..

theorem kept_resume (s : State) : ResultKept s (execResume s) := by
  refine kept_onTaken fun t _ => ?_
  repeat' split
  · exact kept_reject ..
  · exact kept_accept ((Kept.of_cycle (takeUpClaims_cycleKeeps _)).trans (kept_senseNet _)).settled ..
  · exact kept_reject ..

theorem kept_rehearse (s : State) : ResultKept s (execRehearse s) := by
  refine kept_onTaken fun t _ => ?_
  have flagged : Kept t (t.withRehearsal true) := .of_same rfl rfl rfl rfl
  repeat' split
  · exact kept_reject ..
  · exact kept_accept (flagged.trans (.of_cycle (takeUpClaims_cycleKeeps _))).settled ..
  · exact kept_reject ..

theorem kept_injectAnswered (s : State) : Kept s s.injectAnswered := by
  unfold State.injectAnswered
  repeat' split
  all_goals first | exact Kept.refl s | exact .of_same rfl rfl rfl rfl

theorem kept_inject (address lane kind : Nat) (data : Option Byte) (s : State) : ResultKept s (execInject address lane kind data s) := by
  refine kept_onTaken fun t _ => ?_
  repeat' split
  · exact kept_reject ..
  · exact kept_reject ..
  · exact kept_reject ..
  · dsimp only
    split
    · exact kept_next (((Kept.of_cycle (occupy_cycleKeeps ..)).trans (.of_cycle (presentCycle_cycleKeeps ..))).settled.trans (kept_injectAnswered _))
    · exact kept_fault _

theorem kept_endRehearsal (s : State) : ResultKept s (execEndRehearsal s) := by
  refine kept_onTaken fun t _ => ?_
  repeat' split
  · exact kept_reject ..
  · exact kept_reject ..
  · have ended : Kept t ((t.withRehearsal false).clearClaims.setHold .resetHeld) := .of_same rfl rfl rfl rfl
    exact kept_accept ended.settled ..

/-! ### Commands on the engine, the slots and the Trace Store -/

theorem kept_cancelAll (s : State) : Kept s s.cancelAll := .of_engine (cancelAll_engineOnly s) (jobsKept_cancelAll s)

/-- A SUBMIT past its checks finds room in the table, and its slot SEALED (R166). -/
theorem submitCheck_ok {op : Operation} {lane : Fin 4} {f : SubmitFields} {s : State} {range : Nat × Nat} (h : s.submitCheck op lane f = .ok range) :
    s.engine.jobs.length < Config.jobLimit ∧ ∀ i : Fin 4, op.slot.any (fun p => decide (p.1 = i)) = true → s.slots[i].state.isSealed = true := by
  unfold State.submitCheck at h
  split at h
  · cases h
  · rename_i room
    refine ⟨by omega, fun i named => ?_⟩
    split at h
    · cases h
    · split at h
      · cases h
      · split at h
        · cases h
        · split at h
          · rename_i ready
            unfold State.slotReady at ready
            split at ready
            · rename_i slot offset op'
              simp only [op', Option.any_some, decide_eq_true_eq] at named
              subst named
              simp only [Bool.and_eq_true] at ready
              unfold SlotState.isSealed
              exact ready.1
            · rename_i op'
              simp [op'] at named
          · cases h

theorem kept_submit (f : SubmitFields) (s : State) : ResultKept s (execSubmit f s) := by
  refine kept_onTaken fun t _ => ?_
  split
  · split
    · exact kept_reject ..
    · rename_i checked
      obtain ⟨room, ready⟩ := submitCheck_ok checked
      have entered := jobsKept_enterJob room ready
      refine kept_accept (Kept.of_jobs (entered ..) ?_ ?_).settled ..
      all_goals
        unfold State.enterJob State.bind
        dsimp only
        split <;> rfl
  · exact kept_reject ..

theorem kept_collect (s : State) : ResultKept s (execCollect s) := by
  refine kept_onTaken fun t _ => ?_
  split
  · rename_i found
    exact kept_accept (.of_jobs (jobsKept_remove found) rfl rfl) ..
  · exact kept_reject ..

theorem kept_cancelJob (number : Nat) (s : State) : ResultKept s (execCancelJob number s) := by
  refine kept_onTaken fun t _ => ?_
  split
  · exact kept_reject ..
  · rename_i j found
    have cancelled : j.unfinished = true → Kept t (t.cancel j) := fun unfinished =>
      .of_engine (cancel_engineOnly j t) (jobsKept_endJob (fun _ => ⟨j, List.mem_of_find?_eq_some found, rfl, rfl, unfinished⟩) _)
    split
    · rename_i state
      exact kept_accept (cancelled (by simp [Job.unfinished, state])).settled ..
    · rename_i state
      exact kept_accept (cancelled (by simp [Job.unfinished, state])).settled ..
    · exact kept_reject ..
    · exact kept_reject ..

theorem abortActive_engineOnly (j : Job) (a : Active) (s : State) : s.engineOnly (s.abortActive j a) := by
  have withdrawn : s.engineOnly { s with bus := { s.bus with engine := none } } := engineOnly_of s ..
  unfold State.abortActive
  split
  · exact setJob_engineOnly ..
  · dsimp only
    split
    · exact engineOnly_trans (engineOnly_trans withdrawn (abortReset_engineOnly ..)) (settle_engineOnly _)
    · exact engineOnly_trans (engineOnly_trans withdrawn (finishAbort_engineOnly ..)) (settle_engineOnly _)

theorem kept_abortEngine (s : State) : ResultKept s (execAbortEngine s) := by
  refine kept_onTaken fun t _ => ?_
  have quiet : Kept t (t.occupy .abort) := .of_same rfl rfl rfl rfl
  split
  · exact kept_accept (kept_cancelAll t).settled ..
  · rename_i active
    split
    · exact kept_next (quiet.trans (.of_engine (abortActive_engineOnly ..) (jobsKept_abortActive (s := t.occupy .abort) active _)))
    · exact kept_accept (kept_cancelAll t).settled ..

/-- A bound slot is SEALED (R157). -/
theorem unbound_of_not_sealed {s : State} {slot : Nat} (inRange : slot < 4) (h : s.slots[slot].state.isSealed = false) (binds : s.bindsCount) :
    ¬0 < s.slots[slot].binds := by
  intro bound
  have isSealed := (binds ⟨slot, inRange⟩).2 bound
  exact absurd (h.symm.trans isSealed) Bool.false_ne_true

theorem kept_loadSlot (slot : Nat) (data : List Byte) (s : State) : ResultKept s (execLoadSlot slot data s) := by
  refine kept_onTaken fun t _ => ?_
  dsimp only
  repeat' split
  · exact kept_reject ..
  · exact kept_reject ..
  · exact kept_reject ..
  · rename_i inRange _ unsealed _
    refine kept_accept ?_ ..
    refine .of_jobs (jobsKept_setSlot inRange rfl fun binds bound => ?_) rfl rfl
    exact absurd bound (unbound_of_not_sealed inRange (by simpa using unsealed) binds)
  · exact kept_reject ..

theorem kept_sealSlot (slot : Nat) (s : State) : ResultKept s (execSealSlot slot s) := by
  refine kept_onTaken fun t _ => ?_
  dsimp only
  repeat' split
  · refine kept_accept ?_ ..
    exact .of_jobs (jobsKept_setSlot _ rfl fun _ _ => rfl) rfl rfl
  · exact kept_reject ..
  · exact kept_reject ..
  · exact kept_reject ..

theorem kept_freeSlot (slot : Nat) (s : State) : ResultKept s (execFreeSlot slot s) := by
  refine kept_onTaken fun t _ => ?_
  repeat' split
  · exact kept_reject ..
  · rename_i inRange unbound
    refine kept_accept (.of_jobs (jobsKept_setSlot inRange ?_ fun _ bound => absurd bound (Nat.lt_irrefl 0)) rfl rfl) ..
    exact (Nat.eq_zero_of_not_pos unbound).symm
  · exact kept_reject ..

theorem kept_stopCapture (s : State) : Kept s s.stopCapture := .of_cycle ⟨rfl, rfl, rfl, rfl, rfl, rfl, rfl, rfl, rfl, rfl, rfl, id, id⟩

theorem kept_traceSetup (f : TraceFields) (s : State) : ResultKept s (execTraceSetup f s) := by
  refine kept_onTaken fun t _ => ?_
  repeat' split
  · exact kept_reject ..
  · refine kept_accept ?_ ..
    exact Kept.of_trace 0 rfl rfl
  · exact kept_reject ..

theorem kept_traceArm (mode : Nat) (s : State) : ResultKept s (execTraceArm mode s) := by
  refine kept_onTaken fun t _ => ?_
  repeat' split
  · exact kept_reject ..
  · refine kept_accept ?_ ..
    exact Kept.of_trace 0 rfl rfl
  · exact kept_reject ..

theorem kept_traceHalt (s : State) : ResultKept s (execTraceHalt s) := by
  refine kept_onTaken fun t _ => kept_accept ?_ ..
  split
  · exact Kept.refl t
  · exact kept_stopCapture t

theorem kept_traceClear (s : State) : ResultKept s (execTraceClear s) :=
  kept_onTaken fun t _ => by
    refine kept_accept ?_ ..
    exact Kept.of_trace t.trace.records.length List.drop_length.symm rfl

theorem kept_drain (count : Nat) (s : State) : ResultKept s (execDrain count s) := by
  refine kept_onTaken fun t _ => ?_
  split
  · exact kept_reject ..
  · refine kept_accept ?_ ..
    exact Kept.of_trace count rfl rfl

/-! ### Every command, every step -/

theorem kept_linkRateChange (code : Option Byte) (s : State) : ResultKept s (execLinkRateChange code s) := by
  unfold execLinkRateChange
  split
  · refine kept_next (Kept.trans ?_ (kept_endReception ..))
    exact .of_same rfl rfl rfl rfl
  all_goals exact kept_next (Kept.refl s)

theorem kept_checkByteReceived (code : Byte) (payload : List Byte) (check : Byte) (s : State) :
    ResultKept s (execCheckByteReceived code payload check s) := by
  refine kept_next ?_
  split
  · exact kept_dropDue s
  · exact kept_endReception ..

theorem kept_queueFrame (f : Frame) (s : State) : Kept s (s.queueFrame f) := by
  unfold State.queueFrame
  split
  · exact .of_same rfl rfl rfl rfl
  · exact Kept.refl s

/-- Every command keeps the forms. -/
theorem kept_exec (c : Instr) (s : State) : ResultKept s (exec c s) := by
  cases c
  case powerOn => exact kept_next (kept_afterReset (fun _ => powerOn_formed s) ..)
  case prstAsserted =>
    refine kept_next ?_
    split
    · exact .of_same rfl rfl rfl rfl
    · exact kept_holdInReset s
  case prstReleased =>
    refine kept_next ?_
    split
    · exact kept_endReset s
    · exact Kept.refl s
  case partReset =>
    refine kept_next ?_
    split
    · exact Kept.refl s
    · exact (kept_holdInReset s).trans (kept_endReset _)
  case powerOnSurveyEnd readBacks =>
    show ResultKept s (execPowerOnSurveyEnd readBacks s)
    unfold execPowerOnSurveyEnd
    split
    · exact kept_next (kept_surveyEnds ..)
    · exact kept_next (Kept.refl s)
  case overlaySurveyEnd readBacks =>
    show ResultKept s (execOverlaySurveyEnd readBacks s)
    unfold execOverlaySurveyEnd
    split
    · exact kept_next (kept_surveyEnds ..)
    · exact kept_next (Kept.refl s)
  case lineSurveyEnd high low => exact kept_lineSurveyEnd high low s
  case cyclePresented address write fetch selects =>
    show ResultKept s (execCyclePresented address write fetch selects s)
    unfold execCyclePresented
    dsimp only
    repeat' split
    · exact kept_next (Kept.of_cycle (presentCycle_cycleKeeps ..)).settled
    · exact kept_fault _
    · exact kept_next (Kept.refl s)
  case lostCycle => exact kept_next (Kept.refl s)
  case boardAccessEnd data => exact kept_boardAccessEnd data s
  case boardResetSeen => exact kept_boardResetSeen s
  case boardResetReleased => exact kept_boardResetReleased s
  case supplyLost level => exact kept_next (kept_supplyAt level s)
  case supplyReturned level => exact kept_next (kept_supplyAt level s)
  case probeEdge line rising => exact kept_probeEdge line rising s
  case holdLimitExpiry =>
    show ResultKept s (execHoldLimitExpiry s)
    unfold execHoldLimitExpiry
    repeat' split
    · exact kept_next ((kept_expireHold ..).trans (kept_takeDue _))
    · exact kept_next (Kept.refl s)
    · exact kept_next (Kept.refl s)
  case jobStart =>
    refine kept_next ?_
    split
    · exact Kept.refl s
    · exact kept_settle s
  case readyLineAsserted => exact kept_readyLineAsserted s
  case pollTimeout => exact kept_pollTimeout s
  case lateFrame code => exact kept_next ((kept_dropLate code s).trans (kept_takeDue _))
  case overlongFrame => exact kept_next (kept_endReception ..)
  case startByteNoRoom => exact kept_next (Kept.refl s)
  case startByteReceived code =>
    show ResultKept s (execStartByteReceived s code)
    unfold execStartByteReceived
    split
    · exact kept_next (Kept.refl s)
    · exact kept_next (kept_queueFrame ..)
  case checkByteReceived code payload check => exact kept_checkByteReceived code payload check s
  case unknownCommand code payload =>
    show ResultKept s (execUnknownCommand code payload s)
    unfold execUnknownCommand
    split
    · exact kept_next (Kept.refl s)
    · exact kept_onTaken fun t _ => kept_next (.of_same rfl rfl rfl rfl)
  case linkRateChange code => exact kept_linkRateChange code s
  case surveyOverlay => exact kept_surveyOverlay s
  case writeOverlay page offset data =>
    refine kept_onTaken fun t _ => ?_
    repeat' split
    all_goals first | exact kept_reject .. | exact kept_startOverlay ..
  case readOverlay page offset count =>
    refine kept_onTaken fun t _ => ?_
    repeat' split
    all_goals first | exact kept_reject .. | exact kept_startOverlay ..
  case peek path address count lane =>
    refine kept_onTaken fun t _ => ?_
    repeat' split
    all_goals first | exact kept_reject .. | exact kept_startTransfer ..
  case poke path address data lane =>
    refine kept_onTaken fun t _ => ?_
    repeat' split
    all_goals first | exact kept_reject .. | exact kept_startTransfer ..
  case surveyLines => exact kept_surveyLines s
  case setHoldOptions f => exact kept_setHoldOptions f s
  case setFloor floor => exact kept_setFloor floor s
  case halt level => exact kept_halt level s
  case release source mode byte stepKind => exact kept_release source mode byte stepKind s
  case resetTarget => exact kept_resetTarget s
  case resume => exact kept_resume s
  case rehearse => exact kept_rehearse s
  case inject address lane kind data => exact kept_inject address lane kind data s
  case endRehearsal => exact kept_endRehearsal s
  case traceSetup f => exact kept_traceSetup f s
  case traceArm mode => exact kept_traceArm mode s
  case traceHalt => exact kept_traceHalt s
  case traceClear => exact kept_traceClear s
  case drain count => exact kept_drain count s
  case loadSlot slot data => exact kept_loadSlot slot data s
  case sealSlot slot => exact kept_sealSlot slot s
  case freeSlot slot => exact kept_freeSlot slot s
  case submit f => exact kept_submit f s
  case collect => exact kept_collect s
  case cancelJob number => exact kept_cancelJob number s
  case abortEngine => exact kept_abortEngine s
  -- The others write none of the blocks concerned: windows, float byte, watch units, probe lines, profiles, the line map, the link, or nothing but their answer.
  all_goals
    refine kept_onTaken fun t _ => ?_
    repeat' split
    all_goals exact kept_next (.of_same rfl rfl rfl rfl)

theorem kept_takeFrame (s : State) : ResultKept s s.takeFrame := by
  unfold State.takeFrame
  split
  · exact kept_next (kept_passTime s)
  · split
    · exact kept_next (kept_passTime s)
    · refine kept_next ?_
      unfold State.answerBadLength
      split <;> exact .of_same rfl rfl rfl rfl
    · split
      · exact kept_next (kept_passTime s)
      · exact kept_exec ..

theorem kept_stepLink (s : State) : ResultKept s s.stepLink := by
  have left : Kept s s.lineFree := .of_same rfl rfl rfl rfl
  unfold State.stepLink
  repeat' split
  · exact kept_next (left.trans (kept_passTime _))
  · exact kept_takeFrame s
  · exact kept_next (kept_passTime s)

theorem kept_idle (s : State) : ResultKept s s.idle := by
  unfold State.idle
  repeat' split
  · exact kept_next (Kept.refl s)
  · exact kept_next (Kept.of_cycle (makeOwnByte_cycleKeeps ..)).settled
  · exact kept_fault _
  · exact kept_stepLink s

/-- Every step keeps the forms of overlay memory, of the Trace Store and of the job table. -/
theorem kept_step (s : State) : ResultKept s (step s) := by
  unfold step
  split
  · exact kept_idle s
  · exact (kept_exec ..).after (.of_same rfl rfl rfl rfl)

/-- Settles O7: every step keeps the forms. -/
theorem stepKeepsOverlayForm : Obligations.StepKeepsOverlayForm := fun s t formed next => ((kept_step s).next t next).overlay formed

/-- Settles O8: every step keeps the forms. -/
theorem stepKeepsTraceConsecutive : Obligations.StepKeepsTraceConsecutive := fun s t order next => ((kept_step s).next t next).trace order

/-- Settles O9: every step keeps the forms. -/
theorem stepKeepsJobsAndBinds : Obligations.StepKeepsJobsAndBinds :=
  ⟨fun s t ⟨table, ends⟩ next => ⟨((kept_step s).next t next).table table, ((kept_step s).next t next).ends table ends⟩,
   fun s t ⟨table, binds⟩ next => ((kept_step s).next t next).binds table binds⟩

end Sys2Proof.StepForms
end

section
/-! PROOFS. Run control stays sound in every step: its claims, the hold state with the cycle in flight, the supply status, the target's request and grant, and the guard
of a write-class job (chapters 6, 8 and 10). -/

namespace Sys2Proof.RunSound

open Sys2Proof Sys2Proof.Machine Sys2Proof.JobTable Sys2Proof.StepForms

/-! ### Claims -/

/-- The form of one claim (R94). -/
abbrev ClaimFormed (c : Claim) : Prop :=
  (c.step.isSome = true ↔ c.source = .step) ∧ (c.level = none ↔ c.source = .step) ∧ 1 ≤ c.repeats ∧ c.repeats ≤ 255

/-- What a raise supplies has the form of its source: STEP alone has a step kind and no level (R94, R95). -/
abbrev RaiseFormed (r : Raise) : Prop := (r.step.isSome = true ↔ r.source = .step) ∧ (r.level = none ↔ r.source = .step)

theorem mem_putClaim_self (c : Claim) (l : List Claim) : c ∈ putClaim c l := by
  induction l with
  | nil => exact List.mem_cons_self
  | cons d rest ih =>
    simp only [putClaim]
    split
    · exact List.mem_cons_self
    · split
      · exact List.mem_cons_self
      · exact List.mem_cons_of_mem _ ih

theorem mem_putClaim_of_ne {c k : Claim} {l : List Claim} (mem : k ∈ l) (other : k.source ≠ c.source) : k ∈ putClaim c l := by
  induction l with
  | nil => cases mem
  | cons d rest ih =>
    simp only [putClaim]
    split
    · exact List.mem_cons_of_mem _ mem
    · split <;> rename_i same
      · rcases List.mem_cons.1 mem with rfl | mem
        · exact absurd (Source.code_inj same).symm other
        · exact List.mem_cons_of_mem _ mem
      · rcases List.mem_cons.1 mem with rfl | mem
        · exact List.mem_cons_self
        · exact List.mem_cons_of_mem _ (ih mem)

/-- One claim per source (R94). -/
theorem claim_unique {l : List Claim} (order : l.Pairwise (fun a b => a.source.code < b.source.code)) {c k : Claim} (hc : c ∈ l) (hk : k ∈ l)
    (same : k.source = c.source) : k = c := by
  have distinct : (l.map (fun d => d.source.code)).Nodup := List.pairwise_map.2 (order.imp Nat.ne_of_lt)
  exact List.inj_on_of_nodup_map distinct hk hc (by rw [same])

theorem claimsFormed_put {r : RunControl} {c : Claim} (formed : r.claimsFormed) (h : ClaimFormed c) :
    ({ r with claims := putClaim c r.claims } : RunControl).claimsFormed := by
  refine ⟨putClaim_sorted formed.1 c, fun k mem => ?_⟩
  rcases mem_putClaim mem with rfl | mem
  · exact h
  · exact formed.2 k mem

/-- The claims after a raise: one formed claim of the raise's source is put into the list (R95, R104). -/
theorem claimsAfter_putFormed {r : Raise} {s : State} (formed : s.run.claimsFormed) (raise : RaiseFormed r) :
    ∃ c, ClaimFormed c ∧ c.source = r.source ∧ s.claimsAfter r = putClaim c s.run.claims := by
  unfold State.claimsAfter
  split
  · refine ⟨r.fresh s.timeBase, ⟨?_, raise.2, Nat.le_refl 1, show 1 ≤ 255 by decide⟩, rfl, rfl⟩
    simpa [Raise.fresh] using raise.1
  · rename_i c found
    have source : c.source = r.source := by simpa using List.find?_some found
    obtain ⟨step, level, -, -⟩ := formed.2 c (List.mem_of_find?_eq_some found)
    have count : 1 ≤ min 255 (c.repeats + 1) ∧ min 255 (c.repeats + 1) ≤ 255 := by omega
    dsimp only
    split
    · exact ⟨{ c with repeats := min 255 (c.repeats + 1), address := r.address }, ⟨step, level, count⟩, source, rfl⟩
    · refine ⟨r.again c, ⟨?_, raise.2, count⟩, rfl, rfl⟩
      simpa [Raise.again, Raise.fresh] using raise.1

theorem claimsAfter_formed {r : Raise} {s : State} (formed : s.run.claimsFormed) (raise : RaiseFormed r) : (s.enterClaim r).run.claimsFormed := by
  obtain ⟨c, good, -, put⟩ := claimsAfter_putFormed formed raise
  rw [State.enterClaim_run, put]
  exact claimsFormed_put formed good

/-- Over a write-class job a raise leaves a holding claim where one stood (R104). -/
theorem claimsAfter_holding {r : Raise} {s : State} (formed : s.run.claimsFormed) (hold : s.run.hold = .holding) (holding : s.run.anyHolding = true)
    (write : s.writeActive = true) : (s.enterClaim r).run.anyHolding = true := by
  obtain ⟨k, mem, keeps⟩ := List.any_eq_true.1 holding
  show (s.claimsAfter r).any (Claim.holding s.run.floor) = true
  unfold State.claimsAfter
  split
  · rename_i absent
    have other : k.source ≠ r.source := by simpa using List.find?_eq_none.1 absent k mem
    exact List.any_eq_true.2 ⟨k, mem_putClaim_of_ne mem other, keeps⟩
  · rename_i c found
    dsimp only
    split
    · refine List.any_eq_true.2 ?_
      by_cases same : k.source = c.source
      · refine ⟨_, mem_putClaim_self .., ?_⟩
        obtain rfl := claim_unique formed.1 (List.mem_of_find?_eq_some found) mem same
        exact keeps
      · exact ⟨k, mem_putClaim_of_ne mem same, keeps⟩
    · rename_i stays
      simpa [hold, write] using stays

/-- A live claim with a level is a holding claim (R96). -/
theorem holding_of_live {floor : Nat} {c : Claim} (formed : ClaimFormed c) (source : c.source ≠ .step) (live : c.live floor = true) :
    c.holding floor = true := by
  have noStep : c.step = none := by
    rw [← Option.not_isSome_iff_eq_none]
    exact fun h => source (formed.1.1 h)
  simpa [Claim.holding, noStep] using live

/-- A STEP claim is always live (R96). -/
theorem live_of_step {floor : Nat} {c : Claim} (formed : ClaimFormed c) (source : c.source = .step) : c.live floor = true := by
  simp [Claim.live, formed.2.1.2 source]

theorem anyLive_of_claimOf {r : RunControl} {source : Source} (live : (r.claimOf source).any (Claim.live r.floor) = true) : r.anyLive = true := by
  obtain ⟨c, found, live⟩ := (Option.any_eq_true _ _).1 live
  exact List.any_eq_true.2 ⟨c, List.mem_of_find?_eq_some found, live⟩

/-- A waiting step is a live claim (R96). -/
theorem anyLive_of_stepWaits {r : RunControl} (formed : r.claimsFormed) (waits : r.stepWaits = true) : r.anyLive = true := by
  obtain ⟨c, mem, waits⟩ := List.any_eq_true.1 waits
  obtain ⟨p, step, -⟩ := (Option.any_eq_true _ _).1 waits
  have good := formed.2 c mem
  exact List.any_eq_true.2 ⟨c, mem, live_of_step good (good.1.1 (by simp [step]))⟩

/-! ### The invariant, apart -/

/-- Run control is sound, but for the wiring that an arming or a hold needs; `w` says whether a write-class job is ACTIVE. -/
structure Loose (w : Bool) (s : State) : Prop where
  claims : s.run.claimsFormed
  held : s.run.hold = .holding ↔ s.port.inFlight.any (fun c => decide (c.phase = .held)) = true
  armed : s.run.hold = .holdArmed → s.run.anyLive = true
  holding : s.run.hold = .holding → s.run.anyHolding = true
  status : s.statusSound
  target : s.targetSound
  guarded : w = true → (s.run.hold = .holding ∨ s.run.hold = .resetHeld) ∧ s.run.rehearsal = false

/-- Run control is sound. -/
structure Sound (w : Bool) (s : State) : Prop extends Loose w s where
  possible : s.run.hold = .holdArmed ∨ s.run.hold = .holding → s.holdingPossible = true

/-- No cycle is held and run control, apart from the cycle in flight and an arming that may have lost its claim, is sound. -/
structure Free (w : Bool) (s : State) : Prop where
  claims : s.run.claimsFormed
  notHolding : s.run.hold ≠ .holding
  possible : s.run.hold = .holdArmed → s.holdingPossible = true
  status : s.statusSound
  guarded : w = true → s.run.hold = .resetHeld ∧ s.run.rehearsal = false

/-- The same with a claim for every arming: a cycle can be performed. -/
structure Ready (w : Bool) (s : State) : Prop extends Free w s where
  armed : s.run.hold = .holdArmed → s.run.anyLive = true

/-- The target neither has the bus nor asks for it. -/
structure Clear (s : State) : Prop where
  owner : s.bus.owner ≠ .target
  target : s.bus.target = false

/-- Run control is sound and the job table formed: what every step keeps. -/
structure Governed (s : State) : Prop where
  sound : Sound s.writeActive s
  table : s.jobTable

theorem governed_iff {s : State} : Governed s ↔ s.runSound := by
  constructor
  · rintro ⟨⟨⟨claims, held, armed, holding, status, target, guarded⟩, possible⟩, table⟩
    exact ⟨claims, ⟨held, armed, holding, possible⟩, status, target, guarded, table⟩
  · rintro ⟨claims, ⟨held, armed, holding, possible⟩, status, target, guarded, table⟩
    exact ⟨⟨⟨claims, held, armed, holding, status, target, guarded⟩, possible⟩, table⟩

/-- The supply stands in every state but UNPOWERED (R98). -/
theorem powered_of {s : State} (status : s.statusSound) (h : s.run.hold ≠ .unpowered) : s.port.powered = true := by
  by_contra lost
  exact h (status.1.2 (by simpa using lost))

theorem Sound.ready {w : Bool} {s : State} (h : Sound w s) (notHolding : s.run.hold ≠ .holding) : Ready w s where
  claims := h.claims
  notHolding := notHolding
  possible := fun armed => h.possible (.inl armed)
  status := h.status
  guarded := fun write => ⟨(h.guarded write).1.resolve_left notHolding, (h.guarded write).2⟩
  armed := h.armed

theorem Ready.sound {w : Bool} {s : State} (h : Ready w s) (notHeld : s.port.inFlight.any (fun c => decide (c.phase = .held)) = false)
    (target : s.targetSound) : Sound w s where
  claims := h.claims
  held := ⟨fun holding => absurd holding h.notHolding, fun held => absurd (notHeld.symm.trans held) Bool.false_ne_true⟩
  armed := h.armed
  holding := fun holding => absurd holding h.notHolding
  possible := fun either => h.possible (either.resolve_right h.notHolding)
  status := h.status
  target := target
  guarded := fun write => ⟨.inr (h.guarded write).1, (h.guarded write).2⟩

theorem Sound.notHeld {w : Bool} {s : State} (h : Loose w s) (notHolding : s.run.hold ≠ .holding) :
    s.port.inFlight.any (fun c => decide (c.phase = .held)) = false := by
  by_contra held
  exact notHolding (h.held.2 (by simpa using held))

/-- Where no cycle is in performance the target neither has the bus nor asks for it (R137). -/
theorem clear_of_notPerforming {s : State} (target : s.targetSound) (h : s.port.inFlight.any (fun c => decide (c.phase = .performing)) = false) : Clear s := by
  have neither : ¬(s.bus.owner = .target ∨ s.bus.target = true) := fun either => absurd (h.symm.trans (target.1 either)) Bool.false_ne_true
  rw [not_or, Bool.not_eq_true] at neither
  exact ⟨neither.1, neither.2⟩

theorem clear_of_none {s : State} (target : s.targetSound) (h : s.port.inFlight = none) : Clear s := clear_of_notPerforming target (by simp [h])

/-- A held cycle is not in performance. -/
theorem clear_of_holding {w : Bool} {s : State} (h : Loose w s) (holding : s.run.hold = .holding) : Clear s := by
  obtain ⟨c, inFlight, held⟩ := (Option.any_eq_true _ _).1 (h.held.1 holding)
  refine clear_of_notPerforming h.target ?_
  have : c.phase = .held := by simpa using held
  simp [inFlight, this]

theorem Clear.targetSound {s : State} (h : Clear s) : s.targetSound :=
  ⟨fun either => absurd (either.resolve_left h.owner) (by simp [h.target]), fun owner => absurd owner h.owner⟩

/-! ### Updates elsewhere -/

/-- What run control's soundness rests on stays. -/
structure Quiet (s t : State) : Prop where
  claims : t.run.claims = s.run.claims
  hold : t.run.hold = s.run.hold
  floor : t.run.floor = s.run.floor
  rehearsal : t.run.rehearsal = s.run.rehearsal
  inFlight : t.port.inFlight = s.port.inFlight
  powered : t.port.powered = s.port.powered
  waitWired : t.port.waitWired = s.port.waitWired
  owner : t.bus.owner = s.bus.owner
  target : t.bus.target = s.bus.target

theorem Quiet.refl (s : State) : Quiet s s := ⟨rfl, rfl, rfl, rfl, rfl, rfl, rfl, rfl, rfl⟩

theorem Quiet.trans {s t u : State} (h : Quiet s t) (k : Quiet t u) : Quiet s u :=
  ⟨k.claims.trans h.claims, k.hold.trans h.hold, k.floor.trans h.floor, k.rehearsal.trans h.rehearsal, k.inFlight.trans h.inFlight,
    k.powered.trans h.powered, k.waitWired.trans h.waitWired, k.owner.trans h.owner, k.target.trans h.target⟩

theorem Quiet.of_same {s t : State} (run : t.run = s.run) (port : t.port = s.port) (bus : t.bus = s.bus) : Quiet s t := by
  constructor <;> first | rw [run] | rw [port] | rw [bus]

section congruence
variable {w : Bool} {s t : State}

theorem Quiet.claimsFormed (q : Quiet s t) (h : s.run.claimsFormed) : t.run.claimsFormed := by
  simp only [RunControl.claimsFormed, q.claims]
  exact h

theorem Quiet.anyLive (q : Quiet s t) : t.run.anyLive = s.run.anyLive := by simp only [RunControl.anyLive, q.claims, q.floor]

theorem Quiet.anyHolding (q : Quiet s t) : t.run.anyHolding = s.run.anyHolding := by simp only [RunControl.anyHolding, q.claims, q.floor]

theorem Quiet.holdingPossible (q : Quiet s t) : t.holdingPossible = s.holdingPossible := by simp only [State.holdingPossible, q.rehearsal, q.waitWired]

theorem Quiet.statusSound (q : Quiet s t) (h : s.statusSound) : t.statusSound := by
  simp only [State.statusSound, q.hold, q.powered, q.rehearsal]
  exact h

theorem Quiet.targetSound (q : Quiet s t) (h : s.targetSound) : t.targetSound := by
  simp only [State.targetSound, q.owner, q.target, q.inFlight]
  exact h

theorem Quiet.clear (q : Quiet s t) (h : Clear s) : Clear t := ⟨q.owner ▸ h.owner, q.target.trans h.target⟩

theorem Quiet.free (q : Quiet s t) (h : Free w s) : Free w t where
  claims := q.claimsFormed h.claims
  notHolding := q.hold ▸ h.notHolding
  possible := by rw [q.hold, q.holdingPossible]; exact h.possible
  status := q.statusSound h.status
  guarded := by rw [q.hold, q.rehearsal]; exact h.guarded

theorem Quiet.ready (q : Quiet s t) (h : Ready w s) : Ready w t where
  toFree := q.free h.toFree
  armed := by rw [q.hold, q.anyLive]; exact h.armed

theorem Quiet.loose (q : Quiet s t) (h : Loose w s) : Loose w t where
  claims := q.claimsFormed h.claims
  held := by rw [q.hold, q.inFlight]; exact h.held
  armed := by rw [q.hold, q.anyLive]; exact h.armed
  holding := by rw [q.hold, q.anyHolding]; exact h.holding
  status := q.statusSound h.status
  target := q.targetSound h.target
  guarded := by rw [q.hold, q.rehearsal]; exact h.guarded

theorem Quiet.sound (q : Quiet s t) (h : Sound w s) : Sound w t where
  toLoose := q.loose h.toLoose
  possible := by rw [q.hold, q.holdingPossible]; exact h.possible

end congruence

theorem writeActive_of_engine {s t : State} (engine : t.engine = s.engine) : t.writeActive = s.writeActive := by
  simp only [State.writeActive, State.activeJob, engine]

theorem jobTable_of_engine {s t : State} (engine : t.engine = s.engine) (table : s.jobTable) : t.jobTable := by
  simp only [State.jobTable, engine]
  exact table

/-- A step of run control, of a cycle or of the bus that leaves the engine. -/
theorem Governed.of_sound {s t : State} (h : Governed s) (engine : t.engine = s.engine) (sound : Sound s.writeActive t) : Governed t :=
  ⟨writeActive_of_engine engine ▸ sound, jobTable_of_engine engine h.table⟩

theorem Governed.quiet {s t : State} (h : Governed s) (engine : t.engine = s.engine) (q : Quiet s t) : Governed t := h.of_sound engine (q.sound h.sound)

theorem Governed.of_same {s t : State} (h : Governed s) (run : t.run = s.run) (port : t.port = s.port) (bus : t.bus = s.bus) (engine : t.engine = s.engine) :
    Governed t := h.quiet engine (.of_same run port bus)

theorem quiet_latch (n : Notice) (s : State) : Quiet s (s.latch n) := .of_same rfl rfl rfl
theorem quiet_respond (x : Status) (k : Byte) (a : Answer) (s : State) : Quiet s (s.respond x k a) := .of_same rfl rfl rfl
theorem quiet_occupy (a : Activity) (s : State) : Quiet s (s.occupy a) := .of_same rfl rfl rfl
theorem quiet_offer (b : RecordBody) (sent : Bool) (stamp : Stamp) (s : State) : Quiet s (s.offer b sent stamp) := .of_same (by simp) (by simp) (by simp)
theorem quiet_mark (b : RecordBody) (s : State) : Quiet s (s.mark b) := quiet_offer ..

theorem quiet_traceStart (s : State) : Quiet s s.traceStart := by
  unfold State.traceStart
  split <;> exact .of_same rfl rfl rfl

theorem quiet_traceStop (s : State) : Quiet s s.traceStop := by
  unfold State.traceStop
  repeat' split
  all_goals exact .of_same rfl rfl rfl

theorem quiet_recordCycle (c : Cycle) (abandoned : Bool) (s : State) : Quiet s (s.recordCycle c abandoned).1 := by
  unfold State.recordCycle
  dsimp only
  split
  · exact (quiet_offer ..).trans (quiet_traceStop _)
  · exact quiet_offer ..

theorem quiet_driveData (c : Cycle) (data : Byte) (s : State) : Quiet s (s.driveData c data) := by
  unfold State.driveData
  split
  · exact .refl s
  · exact ⟨rfl, rfl, rfl, rfl, rfl, rfl, rfl, rfl, rfl⟩

theorem quiet_answerInjected (c : Cycle) (abandoned : Bool) (d : Delivery) (s : State) : Quiet s (s.answerInjected c abandoned d) := by
  unfold State.answerInjected State.answerInject
  repeat' split
  all_goals first
    | with_reducible exact .refl s
    | with_reducible exact quiet_respond ..

/-! ### Raising a claim, and the hold state's answer -/

/-- A change between RUNNING and HOLD_ARMED. -/
theorem free_setHold {w : Bool} {s : State} {h : HoldState} (free : Free w s) (before : s.run.hold = .running ∨ s.run.hold = .holdArmed)
    (after : h = .running ∨ h = .holdArmed ∧ s.holdingPossible = true) : Free w (s.setHold h) where
  claims := free.claims
  notHolding := by rcases after with rfl | ⟨rfl, -⟩ <;> exact HoldState.noConfusion
  possible := by
    rcases after with rfl | ⟨rfl, possible⟩
    · exact HoldState.noConfusion
    · exact fun _ => possible
  status := by
    have powered := powered_of free.status (by rcases before with b | b <;> rw [b] <;> exact HoldState.noConfusion)
    have stays : h = .running ∨ h = .holdArmed ∨ h = .holding := by rcases after with rfl | ⟨rfl, -⟩ <;> simp
    refine ⟨⟨fun lost => ?_, fun lost => ?_⟩, fun _ => stays⟩
    · have lost : h = .unpowered := lost
      rw [lost] at stays
      simp at stays
    · exact absurd (powered.symm.trans lost) Bool.false_ne_true.symm
  guarded := fun write => by
    have := (free.guarded write).1
    rcases before with b | b <;> rw [b] at this <;> cases this

/-- An arming, or its miss (R98). -/
theorem ready_armOrMiss {w : Bool} {s : State} (free : Free w s) (running : s.run.hold = .running) (live : s.run.anyLive = true) : Ready w s.armOrMiss := by
  unfold State.armOrMiss
  split
  · rename_i possible
    exact ⟨free_setHold free (.inl running) (.inr ⟨rfl, possible⟩), fun _ => live⟩
  · exact (quiet_latch ..).ready ⟨free, fun armed => nomatch running.symm.trans armed⟩

/-- The reaction to a raise puts the arming right (R98, R104). -/
theorem ready_actOnClaim {w : Bool} {s : State} (free : Free w s) (source : Source) : Ready w (s.actOnClaim source) := by
  unfold State.actOnClaim
  split <;> rename_i hold
  · have running : Ready w s := ⟨free, fun armed => nomatch hold.symm.trans armed⟩
    split
    · rename_i live
      exact ready_armOrMiss free hold (anyLive_of_claimOf live)
    · exact running
  · split
    · rename_i live
      exact ⟨free, fun _ => live⟩
    · exact ⟨free_setHold free (.inr hold) (.inl rfl), fun armed => nomatch armed⟩
  all_goals exact ⟨free, fun armed => nomatch hold.symm.trans armed⟩

@[simp] theorem armOrMiss_port (s : State) : s.armOrMiss.port = s.port := by
  unfold State.armOrMiss
  split <;> rfl

@[simp] theorem armOrMiss_bus (s : State) : s.armOrMiss.bus = s.bus := by
  unfold State.armOrMiss
  split <;> rfl

@[simp] theorem actOnClaim_port (source : Source) (s : State) : (s.actOnClaim source).port = s.port := by
  unfold State.actOnClaim
  repeat' split
  all_goals first | rfl | exact armOrMiss_port s

@[simp] theorem actOnClaim_bus (source : Source) (s : State) : (s.actOnClaim source).bus = s.bus := by
  unfold State.actOnClaim
  repeat' split
  all_goals first | rfl | exact armOrMiss_bus s

theorem free_enterClaim {w : Bool} {s : State} {r : Raise} (free : Free w s) (raise : RaiseFormed r) : Free w (s.enterClaim r) where
  claims := claimsAfter_formed free.claims raise
  notHolding := free.notHolding
  possible := free.possible
  status := free.status
  guarded := free.guarded

theorem ready_raise {w : Bool} {s : State} {r : Raise} (ready : Ready w s) (raise : RaiseFormed r) : Ready w ((s.enterClaim r).actOnClaim r.source) :=
  ready_actOnClaim (free_enterClaim ready.toFree raise) _

theorem watchRaise_formed (i : Fin 4) (level address : Nat) : RaiseFormed (watchRaise i level address) := by simp [RaiseFormed, watchRaise]
theorem probeRaise_formed (line : Fin 4) (level : Nat) : RaiseFormed (probeRaise line level) := by simp [RaiseFormed, probeRaise]
theorem guardRaise_formed (level : Nat) (c : Cycle) : RaiseFormed (guardRaise level c) := by simp [RaiseFormed, guardRaise]
theorem haltRaise_formed (level : Nat) : RaiseFormed (haltRaise level) := by simp [RaiseFormed, haltRaise]
theorem stepRaise_formed (kind : StepKind) (address : Option Nat) : RaiseFormed (stepRaise kind address) := by simp [RaiseFormed, stepRaise]

/-! ### The end of a cycle -/

/-- A cycle has ended: none is in flight, and the target neither has the bus nor asks for it. -/
structure Over (w : Bool) (s : State) : Prop extends Ready w s, Clear s where
  none : s.port.inFlight = none

theorem Over.sound {w : Bool} {s : State} (h : Over w s) : Sound w s := h.toReady.sound (by simp [h.none]) h.toClear.targetSound

theorem Quiet.over {w : Bool} {s t : State} (q : Quiet s t) (h : Over w s) : Over w t :=
  ⟨q.ready h.toReady, q.clear h.toClear, q.inFlight.trans h.none⟩

theorem over_raise {w : Bool} {s : State} {r : Raise} (h : Over w s) (raise : RaiseFormed r) : Over w ((s.enterClaim r).actOnClaim r.source) where
  toReady := ready_raise h.toReady raise
  toClear := ⟨by simpa using h.owner, by simpa using h.target⟩
  none := by simpa using h.none

theorem over_fireAtDelivery {w : Bool} (i : Fin 4) (a : Actions) (address : Nat) {p : Evaluation × State} (h : Over w p.2) :
    Over w (fireAtDelivery i a address p).2 := by
  obtain ⟨e, s⟩ := p
  have noted : ∀ t : State, Over w t → Over w (if a.note then t.latch .note else t) := fun t ended => by
    split
    · exact (quiet_latch ..).over ended
    · exact ended
  unfold fireAtDelivery
  dsimp only
  cases a.hold with
  | none => exact noted s h
  | some level => exact noted _ (over_raise (r := watchRaise i level address) h (watchRaise_formed i level address))

theorem over_deliverUnit {w : Bool} (data : Byte) (address : Nat) {p : Evaluation × State} (h : Over w p.2) (i : Fin 4) :
    Over w (deliverUnit data address p i).2 := by
  have units : ∀ u, Over w { p.2 with watch := u } := fun u =>
    have same : Quiet p.2 { p.2 with watch := u } := .of_same rfl rfl rfl
    same.over h
  unfold deliverUnit
  dsimp only
  repeat' split
  · exact over_fireAtDelivery _ _ _ (units _)
  · exact units _
  · exact units _
  · exact h

theorem over_readDataEvaluate {w : Bool} (data : Byte) (address : Nat) {s : State} (h : Over w s) : Over w (readDataEvaluate data address s).2 := by
  have fold : ∀ (l : List (Fin 4)) (p : Evaluation × State), Over w p.2 → Over w (l.foldl (deliverUnit data address) p).2 := by
    intro l
    induction l with
    | nil => exact fun p ended => ended
    | cons i rest ih => exact fun p ended => ih _ (over_deliverUnit data address ended i)
  unfold readDataEvaluate
  dsimp only
  have ended := fold [0, 1, 2, 3] ({ matched := 0, fired := 0, raised := [], start := false, stop := false }, s) h
  generalize List.foldl (deliverUnit data address) _ [0, 1, 2, 3] = p at ended ⊢
  have started : Over w (if p.1.start then p.2.traceStart else p.2) := by
    split
    · exact (quiet_traceStart _).over ended
    · exact ended
  generalize (if p.1.start then p.2.traceStart else p.2) = q at started ⊢
  split
  · exact (quiet_traceStop _).over started
  · exact started

theorem over_completeCycle {w : Bool} {s : State} (ready : Ready w s) (clear : Clear s) (c : Cycle) (data : Byte) : Over w (s.completeCycle c data) := by
  unfold State.completeCycle
  dsimp only
  generalize (if c.isWrite then c else { c with readData := some data }) = d
  have before : Quiet s ((s.recordCycle d false).1.driveData d data) := (quiet_recordCycle ..).trans (quiet_driveData ..)
  have ended : Over w ((s.recordCycle d false).1.driveData d data).clearCycle := by
    have r := before.ready ready
    have k := before.clear clear
    exact ⟨⟨⟨r.claims, r.notHolding, r.possible, r.status, r.guarded⟩, r.armed⟩, ⟨k.owner, k.target⟩, rfl⟩
  split
  · exact (quiet_answerInjected ..).over ended
  · exact (quiet_answerInjected ..).over (over_readDataEvaluate _ _ ended)

/-! ### Performance -/

/-- The arbiter does nothing, grants the target what it asks for, or grants another request (R139). -/
theorem arbitrate_cases (s : State) : s.arbitrate = s ∨ ∃ b : Bus, s.arbitrate = { s with bus := b } ∧
    ((s.bus.target = true ∧ b.owner = .target ∧ b.target = false) ∨ (s.bus.owner = .free ∧ b.owner ≠ .target ∧ b.target = s.bus.target)) := by
  unfold State.arbitrate
  split
  · exact .inl rfl
  · rename_i idle
    have free : s.bus.owner = .free := by
      by_contra owned
      exact idle (.inl owned)
    split
    · split
      · exact .inr ⟨_, rfl, .inl ⟨by assumption, rfl, rfl⟩⟩
      · exact .inl rfl
    · refine .inr ⟨_, rfl, ?_⟩
      unfold Bus.choose
      repeat' split
      all_goals first
        | exact .inl ⟨by assumption, rfl, rfl⟩
        | exact .inr ⟨free, Owner.noConfusion, rfl⟩
        | exact .inr ⟨free, free ▸ Owner.noConfusion, rfl⟩

/-- A cycle in performance at the board. -/
theorem Ready.performing {w : Bool} {s : State} (h : Ready w s) {c : Cycle} (inFlight : s.port.inFlight = some c) (phase : c.phase = .performing)
    (granted : s.bus.owner = .target → s.bus.target = false) : Sound w s :=
  h.sound (by simp [inFlight, phase]) ⟨fun _ => by simp [inFlight, phase], granted⟩

theorem sound_stretchCycle {w : Bool} {s : State} (h : Sound w s) : Sound w s.stretchCycle := by
  unfold State.stretchCycle
  split
  · exact h
  · rename_i c inFlight
    split
    · exact h
    · exact ⟨⟨h.claims, by simpa [inFlight] using h.held, h.armed, h.holding, h.status, by simpa [State.targetSound, inFlight] using h.target, h.guarded⟩, h.possible⟩

theorem sound_arbitrate {w : Bool} {s : State} (h : Sound w s) : Sound w s.arbitrate := by
  rcases arbitrate_cases s with same | ⟨b, same, change⟩
  · rw [same]; exact h
  · rw [same]
    refine ⟨⟨h.claims, h.held, h.armed, h.holding, h.status, ?_, h.guarded⟩, h.possible⟩
    rcases change with ⟨asks, owner, target⟩ | ⟨-, owner, target⟩
    · exact ⟨fun _ => h.target.1 (.inr asks), fun _ => target⟩
    · exact ⟨fun either => h.target.1 (.inr (target ▸ either.resolve_left owner)), fun own => absurd own owner⟩

theorem sound_performAtBoard {w : Bool} {s : State} (ready : Ready w s) (clear : Clear s) (c : Cycle) : Sound w (s.performAtBoard c) := by
  have asked : Sound w (State.requestTarget { s with port := { s.port with inFlight := some { c with phase := .performing } } }) := by
    have r : Ready w (State.requestTarget { s with port := { s.port with inFlight := some { c with phase := .performing } } }) :=
      ⟨⟨ready.claims, ready.notHolding, ready.possible, ready.status, ready.guarded⟩, ready.armed⟩
    exact r.performing rfl rfl fun owner => absurd owner clear.owner
  unfold State.performAtBoard
  dsimp only
  split
  · exact sound_arbitrate asked
  · exact sound_stretchCycle (sound_arbitrate asked)

theorem sound_performCycle {w : Bool} {s : State} (ready : Ready w s) (clear : Clear s) (c : Cycle) : Sound w (s.performCycle c) := by
  have written : ∀ o, Ready w { s with overlay := o } ∧ Clear { s with overlay := o } := fun o =>
    have same : Quiet s { s with overlay := o } := .of_same rfl rfl rfl
    ⟨same.ready ready, same.clear clear⟩
  unfold State.performCycle
  dsimp only
  split
  all_goals first
    | with_reducible exact sound_performAtBoard ready clear c
    | with_reducible exact (over_completeCycle ready clear c _).sound
    | exact (over_completeCycle (written _).1 (written _).2 c _).sound
    | exact sound_performAtBoard (written _).1 (written _).2 c

/-! ### The hold decision -/

/-- What a held cycle makes of one claim: a waiting step that admits it is satisfied (R99). -/
def satisfiedBy (k : Kind) (address : Nat) (c : Claim) : Claim :=
  match c.step with
  | some p => if !p.satisfied && p.kind.admits k then { c with step := some { p with satisfied := true }, address := some address } else c
  | none => c

theorem satisfySteps_claims (r : RunControl) (k : Kind) (address : Nat) : (r.satisfySteps k address).claims = r.claims.map (satisfiedBy k address) := rfl

theorem satisfiedBy_keeps (k : Kind) (address : Nat) (c : Claim) : (satisfiedBy k address c).source = c.source ∧
    (satisfiedBy k address c).step.isSome = c.step.isSome ∧ (satisfiedBy k address c).level = c.level ∧ (satisfiedBy k address c).repeats = c.repeats := by
  unfold satisfiedBy
  split
  · rename_i p step
    split <;> simp [step]
  · simp

theorem satisfiedBy_holding {k : Kind} {c : Claim} {floor : Nat} (h : c.holding floor = true ∨ c.step.any (fun p => !p.satisfied && p.kind.admits k) = true)
    (address : Nat) : (satisfiedBy k address c).holding floor = true := by
  unfold satisfiedBy
  split
  · rename_i p step
    split
    · rfl
    · rename_i stays
      exact h.resolve_right (by simpa [step] using stays)
  · rename_i step
    exact h.resolve_right (by simp [step])

/-- Satisfying the waiting steps changes no claim's source, level or count (R99). -/
theorem satisfySteps_formed {r : RunControl} (formed : r.claimsFormed) (k : Kind) (address : Nat) : (r.satisfySteps k address).claimsFormed := by
  rw [RunControl.claimsFormed, satisfySteps_claims]
  refine ⟨List.pairwise_map.2 (formed.1.imp fun {a b} lt => ?_), fun d mem => ?_⟩
  · rw [(satisfiedBy_keeps k address a).1, (satisfiedBy_keeps k address b).1]
    exact lt
  · obtain ⟨c, mem', rfl⟩ := List.mem_map.1 mem
    obtain ⟨source, step, level, repeats⟩ := satisfiedBy_keeps k address c
    rw [source, step, level, repeats]
    exact formed.2 c mem'

theorem satisfySteps_anyHolding {r : RunControl} {k : Kind} (h : r.anyHolding = true ∨ r.stepAdmits k = true) (address : Nat) :
    (r.satisfySteps k address).anyHolding = true := by
  have rests : ∃ c ∈ r.claims, c.holding r.floor = true ∨ c.step.any (fun p => !p.satisfied && p.kind.admits k) = true := by
    rcases h with h | h <;> obtain ⟨c, mem, h⟩ := List.any_eq_true.1 h
    · exact ⟨c, mem, .inl h⟩
    · exact ⟨c, mem, .inr h⟩
  obtain ⟨c, mem, rests⟩ := rests
  exact List.any_eq_true.2 ⟨_, List.mem_map_of_mem mem, satisfiedBy_holding rests address⟩

/-- What the beginning of a hold does to run control, and what it leaves (R100). -/
theorem beginHold_spec (k : Kind) (address : Nat) (s : State) :
    (s.beginHold k address).run.claims = (s.run.satisfySteps k address).claims ∧ (s.beginHold k address).run.hold = .holding ∧
    (s.beginHold k address).run.floor = s.run.floor ∧ (s.beginHold k address).run.rehearsal = s.run.rehearsal ∧
    (s.beginHold k address).port = s.port ∧ (s.beginHold k address).bus = s.bus := by
  unfold State.beginHold
  dsimp only
  split
  · simp only [State.mark, offer_run, offer_port, offer_bus]
    exact ⟨rfl, rfl, rfl, rfl, rfl, rfl⟩
  · exact ⟨rfl, rfl, rfl, rfl, rfl, rfl⟩

/-- A cycle is held where holding is possible and a claim to rest on stands (R8, R98, R100). -/
theorem sound_holdCycle {w : Bool} {s : State} (free : Free w s) (clear : Clear s) (before : s.run.hold = .running ∨ s.run.hold = .holdArmed)
    (possible : s.holdingPossible = true) {c : Cycle} (rests : s.run.anyHolding = true ∨ s.run.stepAdmits c.kind = true) : Sound w (s.holdCycle c) := by
  obtain ⟨claims, hold, floor, rehearsal, port, bus⟩ := beginHold_spec c.kind c.address s
  have powered := powered_of free.status (by rcases before with b | b <;> rw [b] <;> exact HoldState.noConfusion)
  have holding : (s.holdCycle c).run.hold = .holding := hold
  have clear' : Clear (s.holdCycle c) := ⟨by
    show (s.beginHold c.kind c.address).bus.owner ≠ .target
    rw [bus]; exact clear.owner, by
    show (s.beginHold c.kind c.address).bus.target = false
    rw [bus]; exact clear.target⟩
  have possible' : (s.holdCycle c).holdingPossible = true := by
    show ((s.beginHold c.kind c.address).run.rehearsal || (s.beginHold c.kind c.address).port.waitWired) = true
    rw [rehearsal, port]; exact possible
  refine ⟨⟨?_, ⟨fun _ => ?_, fun _ => holding⟩, fun armed => ?_, fun _ => ?_, ⟨⟨fun lost => ?_, fun lost => ?_⟩, fun _ => .inr (.inr holding)⟩, clear'.targetSound, fun write => ?_⟩,
    fun _ => possible'⟩
  · show (s.beginHold c.kind c.address).run.claimsFormed
    simp only [RunControl.claimsFormed, claims]
    exact satisfySteps_formed free.claims ..
  · simp [State.holdCycle]
  · exact nomatch holding.symm.trans armed
  · show (s.beginHold c.kind c.address).run.anyHolding = true
    simp only [RunControl.anyHolding, claims, floor]
    exact satisfySteps_anyHolding rests _
  · exact nomatch holding.symm.trans lost
  · have lost : (s.beginHold c.kind c.address).port.powered = false := lost
    rw [port] at lost
    exact absurd (powered.symm.trans lost) Bool.false_ne_true.symm
  · have := (free.guarded write).1
    rcases before with b | b <;> rw [b] at this <;> cases this

/-- A live claim that the cycle's own evaluation raised is a holding claim (R96, R98). -/
theorem anyHolding_of_ownLive {r : RunControl} (formed : r.claimsFormed) {raised : List Source} (own : ∀ src ∈ raised, src ≠ .step)
    (live : r.ownLive raised = true) : r.anyHolding = true := by
  obtain ⟨src, mem, live⟩ := List.any_eq_true.1 live
  obtain ⟨c, found, live⟩ := (Option.any_eq_true _ _).1 live
  have source : c.source = src := by simpa using List.find?_some found
  have mem' := List.mem_of_find?_eq_some found
  exact List.any_eq_true.2 ⟨c, mem', holding_of_live (formed.2 c mem') (source ▸ own src mem) live⟩

/-- The hold decision once an arming that rests on no claim has ended (R98, R99). -/
def decideHold (c : Cycle) (t : State) : State :=
  match t.run.hold with
  | .running =>
    if t.run.ownLive c.raised then
      if t.holdingPossible then t.holdCycle c else (t.latch .holdMissed).performCycle c
    else t.performCycle c
  | .holdArmed => if t.run.anyHolding || t.run.stepAdmits c.kind then t.holdCycle c else t.performCycle c
  | .holding => t.performCycle c
  | .resetHeld => t.performCycle c
  | .unpowered => t.performCycle c

theorem holdDecision_eq (c : Cycle) (s : State) :
    s.holdDecision c = decideHold c (if s.run.hold = .holdArmed ∧ s.run.anyLive = false then s.setHold .running else s) := rfl

theorem sound_decideHold {w : Bool} {t : State} (ready : Ready w t) (clear : Clear t) {c : Cycle} (own : ∀ src ∈ c.raised, src ≠ .step) :
    Sound w (decideHold c t) := by
  unfold decideHold
  split <;> rename_i hold
  · split
    · rename_i live
      split
      · rename_i possible
        exact sound_holdCycle ready.toFree clear (.inl hold) possible (.inl (anyHolding_of_ownLive ready.claims own live))
      · exact sound_performCycle ((quiet_latch ..).ready ready) ((quiet_latch ..).clear clear) c
    · exact sound_performCycle ready clear c
  · split
    · rename_i rests
      exact sound_holdCycle ready.toFree clear (.inr hold) (ready.possible hold) (by simpa using rests)
    · exact sound_performCycle ready clear c
  all_goals exact sound_performCycle ready clear c

theorem sound_holdDecision {w : Bool} {s : State} (free : Free w s) (clear : Clear s) {c : Cycle} (own : ∀ src ∈ c.raised, src ≠ .step) :
    Sound w (s.holdDecision c) := by
  rw [holdDecision_eq]
  split
  · rename_i lost
    exact sound_decideHold ⟨free_setHold free (.inr lost.1) (.inl rfl), HoldState.noConfusion⟩ ⟨clear.owner, clear.target⟩ own
  · rename_i rests
    refine sound_decideHold ⟨free, fun armed => ?_⟩ clear own
    simpa [armed] using rests

/-! ### Presentation -/

/-- A cycle under evaluation: nothing is held, and what it has raised are claims with a level. -/
structure Evaluated (w : Bool) (p : Cycle × State) : Prop extends Free w p.2, Clear p.2 where
  own : ∀ src ∈ p.1.raised, src ≠ .step

theorem evaluated_quiet {w : Bool} {p : Cycle × State} (h : Evaluated w p) {c : Cycle} (raised : c.raised = p.1.raised) {t : State} (q : Quiet p.2 t) :
    Evaluated w (c, t) := ⟨q.free h.toFree, q.clear h.toClear, raised ▸ h.own⟩

/-- The cycle's own evaluation raises a claim with a level. -/
theorem evaluated_raise {w : Bool} {p : Cycle × State} (h : Evaluated w p) {r : Raise} (raise : RaiseFormed r) (source : r.source ≠ .step) {c : Cycle}
    (raised : c.raised = p.1.raised ++ [r.source]) : Evaluated w (c, p.2.enterClaim r) where
  toFree := free_enterClaim h.toFree raise
  toClear := ⟨h.owner, h.target⟩
  own := by
    intro src mem
    rw [raised, List.mem_append, List.mem_singleton] at mem
    rcases mem with mem | rfl
    · exact h.own src mem
    · exact source

theorem evaluated_guardWrite {w : Bool} (level : Option Nat) {c : Cycle} {s : State} (h : Evaluated w (c, s)) : Evaluated w (guardWrite level c s) := by
  have latched : Evaluated w (c, s.latch .guard) := evaluated_quiet h rfl (quiet_latch ..)
  unfold guardWrite
  dsimp only
  split
  · split
    · rename_i l
      exact evaluated_raise latched (guardRaise_formed l c) Source.noConfusion rfl
    · exact latched
  · exact h

theorem evaluated_fireAtEvaluation {w : Bool} (i : Fin 4) (a : Actions) {p : Cycle × State} (h : Evaluated w p) : Evaluated w (fireAtEvaluation i a p) := by
  obtain ⟨c, s⟩ := p
  have acts : ∀ (d : Cycle) (t : State), Evaluated w (d, t) → ∀ e : Cycle, e.raised = d.raised →
      Evaluated w (e, if a.traceStart then (if a.note then t.latch .note else t).traceStart else if a.note then t.latch .note else t) := by
    intro d t evaluated e raised
    have noted : Quiet t (if a.note then t.latch .note else t) := by
      split
      · exact quiet_latch ..
      · exact .refl t
    generalize (if a.note then t.latch .note else t) = u at noted ⊢
    refine evaluated_quiet evaluated raised (noted.trans ?_)
    split
    · exact quiet_traceStart _
    · exact .refl _
  unfold fireAtEvaluation
  dsimp only
  cases a.hold with
  | none => exact acts c s h _ rfl
  | some level =>
    have raised : Evaluated w ({ c with raised := c.raised ++ [Source.watch i] }, s.enterClaim (watchRaise i level c.address)) :=
      evaluated_raise (r := watchRaise i level c.address) h (watchRaise_formed i level _) Source.noConfusion rfl
    exact acts _ _ raised _ rfl

theorem evaluated_evaluateUnit {w : Bool} (before : Vector WatchUnit 4) {p : Cycle × State} (h : Evaluated w p) (i : Fin 4) :
    Evaluated w (evaluateUnit before p i) := by
  have units : ∀ (m : BitVec 4) u, Evaluated w ({ p.1 with matched := m }, { p.2 with watch := u }) := fun m u =>
    have same : Quiet p.2 { p.2 with watch := u } := .of_same rfl rfl rfl
    evaluated_quiet h (c := { p.1 with matched := m }) rfl same
  unfold evaluateUnit
  dsimp only
  repeat' split
  · exact h
  · exact units p.1.matched _
  · exact evaluated_fireAtEvaluation _ _ (units ..)
  · exact units ..

theorem evaluated_watchEvaluate {w : Bool} {c : Cycle} {s : State} (h : Evaluated w (c, s)) : Evaluated w (watchEvaluate c s) := by
  have fold : ∀ (l : List (Fin 4)) (p : Cycle × State), Evaluated w p → Evaluated w (l.foldl (evaluateUnit s.watch) p) := by
    intro l
    induction l with
    | nil => exact fun p evaluated => evaluated
    | cons i rest ih => exact fun p evaluated => ih _ (evaluated_evaluateUnit s.watch evaluated i)
  exact fold [0, 1, 2, 3] (c, s) h

/-- A cycle is presented while none is in flight (R6, R7). -/
theorem sound_presentCycle {w : Bool} {s : State} (h : Sound w s) (empty : s.port.inFlight = none) {c : Cycle} (fresh : c.raised = []) :
    Sound w (s.presentCycle c) := by
  have notHolding : s.run.hold ≠ .holding := fun holding => by simpa [empty] using h.held.1 holding
  have start : Evaluated w (c, if c.contention then s.latch .contention else s) := by
    have q : Quiet s (if c.contention then s.latch .contention else s) := by
      split
      · exact quiet_latch ..
      · exact .refl s
    exact ⟨q.free (h.ready notHolding).toFree, q.clear (clear_of_none h.target empty), by simp [fresh]⟩
  have evaluated := evaluated_watchEvaluate (evaluated_guardWrite (resolve (if c.contention then s.latch .contention else s).windows c.address c.lane).guardLevel start)
  exact sound_holdDecision evaluated.toFree evaluated.toClear evaluated.own

end Sys2Proof.RunSound
end

section
/-! PROOFS. Run control stays sound in every step, continued: the ends of a hold, target reset, the engine's work and the start rule, and every command. -/

namespace Sys2Proof.RunSound

open Sys2Proof Sys2Proof.Machine Sys2Proof.JobTable Sys2Proof.StepForms

/-! ### Ends of a hold -/

/-- The end of a hold changes the origin and the timer of run control alone (R101). -/
theorem endHold_run (cause : EndCause) (s : State) : (s.endHold cause).run = { s.run with origin := none, timer := none } := by
  unfold State.endHold
  dsimp only
  split <;> simp [State.mark]

theorem quiet_endHold (cause : EndCause) (s : State) : Quiet s (s.endHold cause) := by
  have marked : (s.endHold cause).port = s.port ∧ (s.endHold cause).bus = s.bus := by
    unfold State.endHold
    dsimp only
    split <;> simp [State.mark]
  obtain ⟨port, bus⟩ := marked
  constructor <;> first | rw [endHold_run] | rw [port] | rw [bus]

/-- After a hold that the cycle survives (R102, R106). -/
theorem ready_afterHold {s : State} (claims : s.run.claimsFormed) (hold : s.run.hold = .holding) (possible : s.holdingPossible = true)
    (status : s.statusSound) (cause : EndCause) : Ready false (s.endHold cause).afterHold := by
  have q := quiet_endHold cause s
  have powered : (s.endHold cause).port.powered = true := q.powered.trans (powered_of status (by rw [hold]; exact HoldState.noConfusion))
  have after : (s.endHold cause).afterHold.run.hold = if (s.endHold cause).run.stepWaits then .holdArmed else .running := rfl
  refine ⟨⟨q.claimsFormed claims, ?_, fun _ => q.holdingPossible.trans possible, ⟨⟨fun lost => ?_, fun lost => ?_⟩, fun _ => ?_⟩, Bool.noConfusion⟩, fun armed => ?_⟩
  · rw [after]; split <;> exact HoldState.noConfusion
  · rw [after] at lost; split at lost <;> cases lost
  · exact absurd (powered.symm.trans lost) Bool.false_ne_true.symm
  · rw [after]; split <;> simp
  · rw [after] at armed
    split at armed
    · rename_i waits
      exact anyLive_of_stepWaits (q.claimsFormed claims) waits
    · cases armed

theorem sound_proceedHeld {w : Bool} {s : State} (ready : Ready w s) (clear : Clear s) : Sound w s.proceedHeld := by
  unfold State.proceedHeld
  split
  · exact sound_performCycle ready clear _
  · rename_i empty
    exact ready.sound (by simp [empty]) clear.targetSound

/-- A hold ended by a floor change or by a repeat (R102, R104). -/
theorem sound_endHoldByFloor {s : State} (claims : s.run.claimsFormed) (hold : s.run.hold = .holding) (possible : s.holdingPossible = true)
    (status : s.statusSound) (clear : Clear s) : Sound false s.endHoldByFloor :=
  sound_proceedHeld (ready_afterHold claims hold possible status .floor) (let c := (quiet_endHold .floor s).clear clear; ⟨c.owner, c.target⟩)

/-- A claim raised by no cycle's own evaluation (R95, R98, R104). -/
theorem sound_raiseClaim {s : State} (h : Sound s.writeActive s) {r : Raise} (raise : RaiseFormed r) : Sound s.writeActive (s.raiseClaim r) := by
  have claims := claimsAfter_formed h.claims raise
  unfold State.raiseClaim
  dsimp only
  split
  · rename_i ends
    obtain ⟨hold, quiet⟩ := ends
    have hold : s.run.hold = .holding := hold
    have idle : s.writeActive = false := by
      by_contra write
      have holding := claimsAfter_holding (r := r) h.claims hold (h.holding hold) (by simpa using write)
      exact absurd (quiet.symm.trans holding) Bool.false_ne_true
    have clear := clear_of_holding h.toLoose hold
    rw [idle]
    exact sound_endHoldByFloor claims hold (h.possible (.inr hold)) h.status ⟨clear.owner, clear.target⟩
  · rename_i stays
    by_cases hold : s.run.hold = .holding
    · have holding : (s.enterClaim r).run.anyHolding = true := by simpa [hold] using stays
      have same : (s.enterClaim r).actOnClaim r.source = s.enterClaim r := by simp [State.actOnClaim, hold]
      rw [same]
      exact { claims := claims, held := h.held, armed := fun armed => (nomatch hold.symm.trans armed), holding := fun _ => holding, status := h.status,
              target := h.target, guarded := h.guarded, possible := h.possible }
    · refine (ready_raise (h.ready hold) raise).sound ?_ ?_
      · simpa using Sound.notHeld h.toLoose hold
      · simpa [State.targetSound] using h.target

/-- Target reset or the loss of the supply leaves run control sound whatever it was, where the target's request and grant were in order (R101, R109 to R113). -/
theorem sound_cutOff {w : Bool} {s : State} (target : s.targetSound) {dest : HoldState} (off : dest = .running ∨ dest = .resetHeld ∨ dest = .unpowered)
    (supply : dest = .unpowered ↔ s.port.powered = false) (guard : w = true → dest = .resetHeld) (cause : EndCause) (marker : RecordBody) :
    Sound w (s.cutOff cause dest marker) := by
  have ended : Quiet s (if s.run.hold = .holding then s.endHold cause else s) := by
    split
    · exact quiet_endHold ..
    · exact .refl s
  unfold State.cutOff
  dsimp only
  generalize (if s.run.hold = .holding then s.endHold cause else s) = u at ended ⊢
  refine (quiet_mark ..).sound ?_
  have ready : Ready w { u with run := { u.run with hold := dest, claims := [], rehearsal := false } } :=
    ⟨⟨⟨List.Pairwise.nil, fun _ mem => nomatch mem⟩, by rcases off with rfl | rfl | rfl <;> exact HoldState.noConfusion,
      by rcases off with rfl | rfl | rfl <;> exact HoldState.noConfusion, ⟨ended.powered ▸ supply, Bool.noConfusion⟩, fun write => ⟨guard write, rfl⟩⟩,
      by rcases off with rfl | rfl | rfl <;> exact HoldState.noConfusion⟩
  have target' : ({ u with run := { u.run with hold := dest, claims := [], rehearsal := false } } : State).targetSound := ended.targetSound target
  generalize ({ u with run := { u.run with hold := dest, claims := [], rehearsal := false } } : State) = v at ready target' ⊢
  unfold State.abandonCycle
  split
  · rename_i empty
    exact ready.sound (by simp [empty]) target'
  · rename_i c inFlight
    split
    · rename_i begun
      have phase : c.phase = .performing := by
        simp only [State.performanceBegun, Bool.and_eq_true, decide_eq_true_eq] at begun
        exact begun.1
      exact ready.sound (by simp [inFlight, phase]) target'
    · rename_i notBegun
      have owner : v.bus.owner ≠ .target := by
        intro owned
        have performing := target'.1 (.inl owned)
        rw [inFlight] at performing
        exact notBegun (by simpa [State.performanceBegun, target'.2 owned] using performing)
      have recorded := quiet_recordCycle c true v
      dsimp only
      refine (quiet_answerInjected ..).sound (Over.sound ?_)
      have r := recorded.ready ready
      exact ⟨⟨⟨r.claims, r.notHolding, r.possible, r.status, r.guarded⟩, r.armed⟩, ⟨recorded.owner ▸ owner, rfl⟩, rfl⟩

theorem governed_cutOff {s : State} (h : Governed s) {dest : HoldState} (off : dest = .running ∨ dest = .resetHeld) (supply : s.run.hold ≠ .unpowered)
    (guard : s.writeActive = true → dest = .resetHeld) (cause : EndCause) (marker : RecordBody) : Governed (s.cutOff cause dest marker) := by
  have powered := powered_of h.sound.status supply
  refine h.of_sound (cutOff_cycleKeeps ..).engine (sound_cutOff h.sound.target (by tauto) ?_ guard cause marker)
  rcases off with rfl | rfl <;> simp [powered]

/-! ### The engine's work -/

/-- An entry of the write class is ACTIVE. -/
def Writing (s : State) : Prop := ∃ k ∈ s.engine.jobs, k.active?.isSome = true ∧ k.op.writeClass = true

theorem writing_of_writeActive {s : State} (h : s.writeActive = true) : Writing s := by
  obtain ⟨j, active, write⟩ := (Option.any_eq_true _ _).1 h
  exact ⟨j, List.mem_of_find?_eq_some active, by simpa using List.find?_some active, write⟩

/-- At most one entry is ACTIVE (R165). -/
theorem active_unique {s : State} (table : s.jobTable) {j k : Job} (active : s.activeJob = some j) (mem : k ∈ s.engine.jobs) (h : k.active?.isSome = true) :
    k = j := by
  obtain ⟨isActive, pre, post, jobs, before⟩ := List.find?_eq_some_iff_append.1 active
  have order := table.2.2
  rw [jobs, List.pairwise_append, List.pairwise_cons] at order
  rw [jobs, List.mem_append, List.mem_cons] at mem
  rcases mem with mem | rfl | mem
  · have inactive := before k mem
    simp [h] at inactive
  · rfl
  · have finished := order.2.1.1 k mem h
    rw [unfinished_of_active isActive] at finished
    cases finished

theorem writeActive_of_writing {s : State} (table : s.jobTable) (h : Writing s) : s.writeActive = true := by
  obtain ⟨k, mem, active, write⟩ := h
  cases found : s.activeJob with
  | none => exact absurd active (by simpa using List.find?_eq_none.1 found k mem)
  | some j =>
    obtain rfl := active_unique table found mem active
    simp [State.writeActive, found, write]

/-- The engine has worked: run control, the Target Port and the target's part of the bus stay, and no write-class job has become ACTIVE. -/
structure Works (s t : State) : Prop extends Quiet s t where
  table : s.jobTable → t.jobTable
  writing : s.jobTable → Writing t → Writing s

theorem Works.refl (s : State) : Works s s := ⟨.refl s, id, fun _ => id⟩

theorem Works.trans {s t u : State} (h : Works s t) (k : Works t u) : Works s u :=
  ⟨h.toQuiet.trans k.toQuiet, k.table ∘ h.table, fun table writing => h.writing table (k.writing (h.table table) writing)⟩

theorem Works.of_quiet {s t : State} (q : Quiet s t) (engine : t.engine = s.engine) : Works s t :=
  ⟨q, jobTable_of_engine engine, fun _ writing => (by rw [Writing, ← engine]; exact writing)⟩

theorem Governed.works {s t : State} (h : Governed s) (k : Works s t) : Governed t := by
  refine ⟨?_, k.table h.table⟩
  have sound := k.toQuiet.sound h.sound
  refine ⟨⟨sound.claims, sound.held, sound.armed, sound.holding, sound.status, sound.target, fun write => sound.guarded ?_⟩, sound.possible⟩
  exact writeActive_of_writing h.table (k.writing h.table (writing_of_writeActive write))

/-- Only the entry with this number can have become ACTIVE. -/
theorem mem_setEntry {n : Nat} {state : JobState} {jobs : List Job} {k : Job} (mem : k ∈ setEntry n state jobs) :
    k ∈ jobs ∨ (k.number = n ∧ k.state = state) := by
  obtain ⟨x, hx, rfl⟩ := List.mem_map.1 mem
  split
  · rename_i number
    exact .inr ⟨number, rfl⟩
  · exact .inl hx

theorem unbind_bus (op : Operation) (s : State) : (s.unbind op).bus = s.bus := by
  unfold State.unbind
  split <;> rfl

theorem endJob_bus (j : Job) (c : Completion) (s : State) : (s.endJob j c).bus = s.bus := by
  unfold State.endJob
  exact unbind_bus ..

/-- An end makes no entry ACTIVE. -/
theorem mem_endJob {j : Job} {c : Completion} {s : State} {k : Job} (mem : k ∈ (s.endJob j c).engine.jobs) (active : k.active?.isSome = true) :
    k ∈ s.engine.jobs := by
  rw [endJob_engine] at mem
  rcases mem_setEntry mem with mem | ⟨-, state⟩
  · exact mem
  · simp [Job.active?, state] at active

theorem writing_of_endJob {j : Job} {c : Completion} {s : State} (h : Writing (s.endJob j c)) : Writing s := by
  obtain ⟨k, mem, active, write⟩ := h
  exact ⟨k, mem_endJob mem active, active, write⟩

/-- The engine's operations leave the port, run control and the bus. -/
theorem quiet_of_engineOnly {s t : State} (h : s.engineOnly t) (owner : t.bus.owner = s.bus.owner) (target : t.bus.target = s.bus.target) : Quiet s t := by
  obtain ⟨-, port, run, -⟩ := h
  exact ⟨by rw [run], by rw [run], by rw [run], by rw [run], by rw [port], by rw [port], by rw [port], owner, target⟩

theorem works_endJob {j : Job} {s : State} (opened : s.jobTable → Open j s) (c : Completion) : Works s (s.endJob j c) where
  toQuiet := quiet_of_engineOnly (endJob_engineOnly ..) (by rw [endJob_bus]) (by rw [endJob_bus])
  table := (jobsKept_endJob opened c).table
  writing := fun _ => writing_of_endJob

theorem cancelFold_bus (l : List Job) (s : State) : (l.foldl (fun t j => t.cancel j) s).bus = s.bus := by
  induction l generalizing s with
  | nil => rfl
  | cons j l ih => exact (ih _).trans (endJob_bus ..)

theorem writing_of_cancelFold {l : List Job} {s : State} (h : Writing (l.foldl (fun t j => t.cancel j) s)) : Writing s := by
  induction l generalizing s with
  | nil => exact h
  | cons j l ih => exact writing_of_endJob (ih h)

theorem works_cancelAll (s : State) : Works s s.cancelAll where
  toQuiet := quiet_of_engineOnly (cancelAll_engineOnly s) (by rw [State.cancelAll, cancelFold_bus]) (by rw [State.cancelAll, cancelFold_bus])
  table := (jobsKept_cancelAll s).table
  writing := fun _ => writing_of_cancelFold

theorem works_respond (x : Status) (k : Byte) (a : Answer) (s : State) : Works s (s.respond x k a) := .of_quiet (quiet_respond ..) rfl

theorem works_finishAbort {j : Job} {s : State} (opened : s.jobTable → Open j s) (a : Active) : Works s (s.finishAbort j a) :=
  ((works_endJob opened _).trans (works_cancelAll _)).trans (works_respond ..)

/-- The target's part of the bus is not the engine's. -/
theorem work_bus {j : Job} {s t : State} (work : Work j s t) : t.bus.owner = s.bus.owner ∧ t.bus.target = s.bus.target := by
  induction work with
  | rests s => exact ⟨rfl, rfl⟩
  | asks a l s => exact ⟨rfl, rfl⟩
  | awaits a s => exact ⟨rfl, rfl⟩
  | ends c s => rw [endJob_bus]; exact ⟨rfl, rfl⟩
  | aborts a s =>
    have same : (s.finishAbort j a).bus = s.bus := (cancelFold_bus ..).trans (endJob_bus ..)
    rw [same]; exact ⟨rfl, rfl⟩
  | @owes lane b s _ _ ih => exact ih

/-- Whatever the work of the leading entry comes to, no other entry becomes ACTIVE. -/
theorem work_active {j : Job} {s t : State} (work : Work j s t) (table : s.jobTable) (leads : Leads j s) {k : Job} (mem : k ∈ t.engine.jobs)
    (active : k.active?.isSome = true) : k.op = j.op := by
  have only : ∀ u : State, Leads j u → ∀ k ∈ u.engine.jobs, k.active?.isSome = true → k.op = j.op := by
    rintro u ⟨pre, l, post, jobs, number, op, -, before, after⟩ k mem active
    rw [jobs, List.mem_append, List.mem_cons] at mem
    rcases mem with mem | rfl | mem
    · have := before k mem
      rw [unfinished_of_active active] at this
      cases this
    · exact op
    · rw [after k mem] at active
      cases active
  induction work with
  | rests s => exact only s leads k mem active
  | asks a l s => exact only _ (leads_setActive table leads a) k mem active
  | awaits a s => exact only _ (leads_setActive table leads a) k mem active
  | ends c s => exact only s leads k (mem_endJob mem active) active
  | aborts a s =>
    have fold : ∀ (l : List Job) (u : State), k ∈ (l.foldl (fun t j => t.cancel j) u).engine.jobs → k ∈ u.engine.jobs := by
      intro l
      induction l with
      | nil => exact fun _ mem => mem
      | cons j l ih => exact fun u mem => mem_endJob (ih _ mem) active
    exact only s leads k (mem_endJob (fold _ _ mem) active) active
  | @owes lane b s _ _ ih => exact ih table (leads.congr rfl) mem

theorem work_engineOnly {j : Job} {s t : State} (work : Work j s t) : s.engineOnly t := by
  induction work with
  | rests s => exact engineOnly_refl s
  | asks a l s => exact askBoard_engineOnly ..
  | awaits a s => exact setJob_engineOnly ..
  | ends c s => exact endJob_engineOnly ..
  | aborts a s => exact finishAbort_engineOnly ..
  | @owes lane b s _ _ ih => exact engineOnly_trans (setOwed_engineOnly ..) ih

/-- The work of the ACTIVE job. -/
theorem works_activeWork {j : Job} {s t : State} (work : Work j s t) (active : s.activeJob = some j) : Works s t where
  toQuiet := quiet_of_engineOnly (work_engineOnly work) (work_bus work).1 (work_bus work).2
  table := (jobsKept_activeWork work active).table
  writing := by
    rintro table ⟨k, mem, isActive, write⟩
    have op := work_active work table (leads_of_active table active) mem isActive
    exact ⟨j, List.mem_of_find?_eq_some active, by simpa using List.find?_some active, op ▸ write⟩

theorem works_engineAccessEnd (d : Byte) (s : State) : Works s (s.engineAccessEnd d) := by
  rcases work_engineAccessEnd d s with same | ⟨j, active, work⟩
  · rw [same]; exact .refl s
  · exact works_activeWork work active

/-! ### The start rule -/

theorem cutTransfer_bus (cut : TransferByte → Bool) (s : State) : (s.cutTransfer cut).bus.owner = s.bus.owner ∧ (s.cutTransfer cut).bus.target = s.bus.target := by
  unfold State.cutTransfer State.finishTransfer
  dsimp only
  repeat' split
  all_goals exact ⟨rfl, rfl⟩

theorem quiet_cutTransfer (cut : TransferByte → Bool) (s : State) : Quiet s (s.cutTransfer cut) :=
  quiet_of_engineOnly (cutTransfer_engineOnly ..) (cutTransfer_bus ..).1 (cutTransfer_bus ..).2

/-- A write-class job starts only over a quiet target (R104, R168). -/
theorem guarded_of_mayStart {j : Job} {s : State} (may : s.mayStart j = true) (write : j.op.writeClass = true) :
    (s.run.hold = .holding ∨ s.run.hold = .resetHeld) ∧ s.run.rehearsal = false := by
  simp only [State.mayStart, write, if_true, Bool.and_eq_true, decide_eq_true_eq, Bool.not_eq_true'] at may
  exact may.2

theorem governed_startJob {j : Job} {s : State} (h : Governed s) (none : s.activeJob = none) (candidate : s.candidate = some j) (may : s.mayStart j = true) :
    Governed (s.startJob j) := by
  obtain ⟨u, course, work⟩ := startJob_course j s
  have leads := leads_of_candidate none candidate
  have activated := jobsKept_setActive (fun _ => leads) (j.startWork s.timeBase)
  have cut : Quiet (s.setJob j.number (.active (j.startWork s.timeBase))) u ∧ u.engine = (s.setJob j.number (.active (j.startWork s.timeBase))).engine := by
    rcases course with rfl | ⟨cut, rfl⟩
    · exact ⟨.refl _, rfl⟩
    · exact ⟨quiet_cutTransfer .., (cutTransfer_cycleKeeps ..).engine⟩
  have table : u.jobTable := jobTable_of_engine cut.2 (activated.table h.table)
  have leadsU : Leads j u := (leads_setActive h.table leads _).congr cut.2
  have started : Quiet s (s.setJob j.number (.active (j.startWork s.timeBase))) := .of_same rfl rfl rfl
  have worked : Quiet u (s.startJob j) := quiet_of_engineOnly (work_engineOnly work) (work_bus work).1 (work_bus work).2
  have quiet := (started.trans cut.1).trans worked
  have sound := quiet.sound h.sound
  refine ⟨⟨⟨sound.claims, sound.held, sound.armed, sound.holding, sound.status, sound.target, fun write => ?_⟩, sound.possible⟩,
    (jobsKept_work work fun _ => leadsU).table table⟩
  obtain ⟨k, mem, active, writeClass⟩ := writing_of_writeActive write
  have op := work_active work table leadsU mem active
  rw [quiet.hold, quiet.rehearsal]
  exact guarded_of_mayStart may (op ▸ writeClass)

theorem works_setWaiting {j : Job} {s : State} (none : s.activeJob = none) (candidate : s.candidate = some j) : Works s (s.setJob j.number .waiting) where
  toQuiet := .of_same rfl rfl rfl
  table := (jobsKept_setWaiting none candidate).table
  writing := by
    rintro - ⟨k, mem, active, write⟩
    rcases mem_setEntry mem with mem | ⟨-, state⟩
    · exact ⟨k, mem, active, write⟩
    · simp [Job.active?, state] at active

theorem governed_judgeOnce {s : State} (h : Governed s) : Governed s.judgeOnce := by
  unfold State.judgeOnce
  split
  · exact h
  · rename_i inactive
    have none : s.activeJob = none := by simpa using inactive
    split
    · exact h
    · rename_i j candidate
      split
      · rename_i may
        exact governed_startJob h none candidate may
      · exact h.works (works_setWaiting none candidate)

theorem governed_judgeTimes (n : Nat) {s : State} (h : Governed s) : Governed (s.judgeTimes n) := by
  induction n generalizing s with
  | zero => exact h
  | succ n ih => exact ih (governed_judgeOnce h)

theorem works_settleAbort (s : State) : Works s s.settleAbort := by
  unfold State.settleAbort
  split
  · exact .refl s
  · rename_i j active
    split
    · rename_i a _
      split
      · have withdrawn : Works s (State.setOwed j.lane true { s with bus := { s.bus with engine := none } }) :=
          .of_quiet ⟨rfl, rfl, rfl, rfl, rfl, rfl, rfl, rfl, rfl⟩ rfl
        have opened : ∀ u : State, u.engine = s.engine → u.jobTable → Open j u := fun u engine table =>
          (leads_of_active table (by rw [State.activeJob, engine]; exact active)).isOpen
        refine withdrawn.trans (works_finishAbort ?_ a)
        exact opened _ rfl
      · exact .refl s
    · exact .refl s

/-- The judgement of the start rule, a waiting abort and the arbiter's choice keep run control sound. -/
theorem Governed.settle {s : State} (h : Governed s) : Governed s.settle := by
  have judged := (governed_judgeTimes (Config.jobLimit + 1) h).works (works_settleAbort _)
  exact judged.of_sound (arbitrate_cycleKeeps _).engine (sound_arbitrate judged.sound)

end Sys2Proof.RunSound
end

section
/-! PROOFS. Run control stays sound in every step, concluded: the rows of the table, one lemma each, and the step. -/

namespace Sys2Proof.RunSound

open Sys2Proof Sys2Proof.Machine Sys2Proof.JobTable Sys2Proof.StepForms

/-! ### Results -/

/-- If the result is a next state, run control is sound in it. -/
structure ResultGoverned (r : Result) : Prop where
  next : ∀ t, r = .next t → Governed t

theorem governed_next {t : State} (h : Governed t) : ResultGoverned (.next t) := ⟨fun _ same => (Host.Outcome.next.inj same) ▸ h⟩

theorem governed_fault (f : Fault) : ResultGoverned (.fault f) := ⟨fun _ same => nomatch same⟩

theorem governed_respond {s : State} (h : Governed s) (x : Status) (k : Byte) (a : Answer) : Governed (s.respond x k a) := h.quiet rfl (quiet_respond ..)

theorem governed_latch {s : State} (h : Governed s) (n : Notice) : Governed (s.latch n) := h.quiet rfl (quiet_latch ..)

theorem governed_mark {s : State} (h : Governed s) (b : RecordBody) : Governed (s.mark b) := h.quiet (mark_cycleKeeps ..).engine (quiet_mark ..)

theorem governed_accept {t : State} (h : Governed t) (c : Instr) (a : Answer) : ResultGoverned (t.accept c a) := governed_next (governed_respond h ..)

theorem governed_reject {t : State} (h : Governed t) (c : Instr) (status : Status) : ResultGoverned (t.reject c status) := governed_next (governed_respond h ..)

theorem quiet_taken {c : Instr} {s t : State} (h : s.takesFrame c t) : Quiet s t ∧ t.engine = s.engine := by
  obtain ⟨-, -, -, ⟨-, rfl⟩ | ⟨_, _, -, -, rfl⟩⟩ := h <;> exact ⟨.of_same rfl rfl rfl, rfl⟩

/-- A command whose action keeps run control sound keeps it so, whatever becomes of its frame. -/
theorem governed_onTaken {c : Instr} {s : State} {act : State → Result} (h : Governed s)
    (acts : ∀ t, Governed t → s.takesFrame c t → ResultGoverned (act t)) : ResultGoverned (s.onTaken c act) := by
  rcases onTaken_cases c s act with ⟨queue, r⟩ | ⟨t, taken, r⟩
  · rw [r]
    exact governed_next (h.of_same rfl rfl rfl rfl)
  · obtain ⟨quiet, engine⟩ := quiet_taken taken
    have governed := h.quiet engine quiet
    rcases r with r | ⟨-, r⟩
    · rw [r]
      exact governed_next (governed_respond governed ..)
    · rw [r]
      exact acts t governed taken

/-! ### Resets -/

/-- What a reset leaves is sound (R94, R98, R137, R165). -/
theorem governed_afterReset (o : Overlay) (supply : Nat) (boardReset : Bool) (levels : Fin 4 → Bool) (freeIndex : Nat) (pending : List Instr) :
    Governed (State.afterReset o supply boardReset levels freeIndex pending) := by
  have hold : (State.afterReset o supply boardReset levels freeIndex pending).run.hold =
      if (Port.initial supply boardReset).powered then .resetHeld else .unpowered := rfl
  have powered : (State.afterReset o supply boardReset levels freeIndex pending).port.powered = (Port.initial supply boardReset).powered := rfl
  have ready : Ready false (State.afterReset o supply boardReset levels freeIndex pending) := by
    refine ⟨⟨⟨List.Pairwise.nil, fun _ mem => nomatch mem⟩, ?_, fun armed => ?_, ⟨?_, Bool.noConfusion⟩, Bool.noConfusion⟩, fun armed => ?_⟩
    · rw [hold]; split <;> exact HoldState.noConfusion
    · rw [hold] at armed; split at armed <;> cases armed
    · rw [hold, powered]; split <;> simp_all
    · rw [hold] at armed; split at armed <;> cases armed
  exact ⟨ready.sound rfl (Clear.targetSound ⟨Owner.noConfusion, rfl⟩), Nat.zero_le _, List.nodup_nil, List.Pairwise.nil⟩

theorem governed_partReset (s : State) : Governed s.partReset := by
  unfold State.partReset
  exact governed_afterReset ..

theorem lastAccess_target (o : Owner) : o.lastAccess = .target ↔ o = .target := by
  unfold Owner.lastAccess
  split <;> simp

/-- The owner gives the bus up, or keeps it for its last access, and the target's request may be withdrawn. -/
theorem governed_owner {s t : State} (h : Governed s) (engine : t.engine = s.engine) (run : t.run = s.run) (inFlight : t.port.inFlight = s.port.inFlight)
    (powered : t.port.powered = s.port.powered) (waitWired : t.port.waitWired = s.port.waitWired)
    (owner : t.bus.owner = .target → s.bus.owner = .target) (target : t.bus.target = true → s.bus.target = true) : Governed t := by
  have sound := h.sound
  refine h.of_sound engine ⟨⟨?_, ?_, ?_, ?_, ?_, ⟨fun either => ?_, fun own => ?_⟩, ?_⟩, ?_⟩
  · rw [run]; exact sound.claims
  · rw [run, inFlight]; exact sound.held
  · rw [run]; exact sound.armed
  · rw [run]; exact sound.holding
  · rw [State.statusSound, run, powered]; exact sound.status
  · rw [inFlight]; exact sound.target.1 (either.imp owner target)
  · by_contra asks
    have off := sound.target.2 (owner own)
    rw [target (by simpa using asks)] at off
    cases off
  · rw [run]; exact sound.guarded
  · rw [State.holdingPossible, run, waitWired]; exact sound.possible

theorem governed_freeBus {s : State} (h : Governed s) : Governed s.freeBus := governed_owner h rfl rfl rfl rfl rfl (fun own => nomatch own) id

theorem stopSurvey_aside (s : State) : s.stopSurvey.run = s.run ∧ s.stopSurvey.port = s.port ∧ s.stopSurvey.bus = s.bus ∧ s.stopSurvey.engine = s.engine := by
  unfold State.stopSurvey
  split <;> exact ⟨rfl, rfl, rfl, rfl⟩

theorem transferWrite_aside (b : TransferByte) (s : State) :
    (s.transferWrite b).run = s.run ∧ (s.transferWrite b).port = s.port ∧ (s.transferWrite b).bus = s.bus ∧ (s.transferWrite b).engine = s.engine := by
  unfold State.transferWrite
  split <;> exact ⟨rfl, rfl, rfl, rfl⟩

theorem finishGranted_aside (s : State) :
    s.finishGranted.run = s.run ∧ s.finishGranted.port = s.port ∧ s.finishGranted.bus = s.bus ∧ s.finishGranted.engine = s.engine := by
  unfold State.finishGranted
  split
  · split
    · exact transferWrite_aside ..
    · exact ⟨rfl, rfl, rfl, rfl⟩
  · exact ⟨rfl, rfl, rfl, rfl⟩

theorem governed_holdInReset {s : State} (h : Governed s) : Governed s.holdInReset := by
  obtain ⟨run1, port1, bus1, engine1⟩ := stopSurvey_aside s
  obtain ⟨run2, port2, bus2, engine2⟩ := finishGranted_aside s.stopSurvey
  refine governed_owner h (engine2.trans engine1) (run2.trans run1) (by simp) (by simp) (by simp) (fun own => ?_) (fun asks => nomatch asks)
  rw [holdInReset_owner] at own
  exact (lastAccess_target _).1 own

theorem governed_endReset {s : State} (h : Governed s) : Governed s.endReset := by
  unfold State.endReset
  split
  · exact governed_partReset s
  · exact h.quiet rfl ⟨rfl, rfl, rfl, rfl, rfl, rfl, rfl, rfl, rfl⟩

theorem governed_heldAccessEnd {s : State} (h : Governed s) : Governed s.heldAccessEnd := by
  unfold State.heldAccessEnd
  split
  · exact h
  · split
    · exact governed_partReset _
    · exact governed_freeBus h

/-! ### The limits -/

theorem governed_passUntil {s : State} (h : Governed s) (since : Stamp) (limit : Nat) : Governed (s.passUntil since limit) := by
  unfold State.passUntil
  split
  · exact h.of_same rfl rfl rfl rfl
  · exact h

theorem passUntil_run (since : Stamp) (limit : Nat) (s : State) : (s.passUntil since limit).run = s.run := by
  unfold State.passUntil
  split <;> rfl

theorem governed_expireHold {s : State} (h : Governed s) (holding : s.run.hold = .holding) (timer : HoldTimer) : Governed (s.expireHold timer) := by
  refine (governed_latch (governed_cutOff (governed_passUntil h ..) (.inr rfl) ?_ (fun _ => rfl) ..) _).settle
  rw [passUntil_run, holding]
  exact HoldState.noConfusion

theorem governed_expireDue {s : State} (h : Governed s) : Governed s.expireDue := by
  unfold State.expireDue
  split
  · split
    · rename_i due
      simp only [State.holdDue, Bool.and_eq_true, decide_eq_true_eq] at due
      exact governed_expireHold h due.1 _
    · exact h
  · exact h

theorem governed_pollExpire {s : State} (h : Governed s) : Governed s.pollExpire := by
  unfold State.pollExpire
  split
  · rename_i polls
    split
    · exact (h.works (works_activeWork (work_timeOut ..) (polling_active polls))).settle
    · exact h
  · exact h

theorem governed_endReception {s : State} (h : Governed s) (f : Frame) : Governed (s.endReception f) := by
  unfold State.endReception
  split
  · exact h.of_same rfl rfl rfl rfl
  · exact h

theorem governed_dropLate {s : State} (h : Governed s) (told : Option Byte) : Governed (s.dropLate told) := by
  unfold State.dropLate
  split
  · exact governed_endReception (governed_passUntil h ..) _
  · exact h

theorem governed_dropDue {s : State} (h : Governed s) : Governed s.dropDue := by
  unfold State.dropDue
  split
  · exact governed_dropLate h _
  · exact h

theorem governed_takeDue {s : State} (h : Governed s) : Governed s.takeDue := governed_dropDue (governed_pollExpire (governed_expireDue h))

theorem governed_passTime {s : State} (h : Governed s) : Governed s.passTime := governed_takeDue (h.of_same rfl rfl rfl rfl)

/-! ### Cycles and the board -/

/-- In no rehearsal and with the reset net released the target runs (R19, R98). -/
theorem governed_cyclePresented {s : State} (h : Governed s) (address : BitVec 20) (write : Option Byte) (fetch : Bool) (selects : BitVec 4) :
    ResultGoverned (execCyclePresented address write fetch selects s) := by
  unfold execCyclePresented
  split
  · rename_i may
    have empty : s.port.inFlight = none := by
      simp only [State.mayPresent, Bool.and_eq_true, Option.isNone_iff_eq_none] at may
      exact may.2
    dsimp only
    split
    · exact governed_next (h.of_sound (presentCycle_cycleKeeps ..).engine (sound_presentCycle h.sound empty rfl)).settle
    · exact governed_fault _
  · exact governed_next h

/-- The target's access ends: its cycle was in performance and granted. -/
theorem governed_targetAccessEnd {s : State} (h : Governed s) (owner : s.bus.owner = .target) (data : Byte) : Governed (s.targetAccessEnd data) := by
  have performing := h.sound.target.1 (.inl owner)
  obtain ⟨c, inFlight, phase⟩ := (Option.any_eq_true _ _).1 performing
  have notHolding : s.run.hold ≠ .holding := by
    intro holding
    have held := h.sound.held.1 holding
    simp only [inFlight, Option.any_some, decide_eq_true_eq] at held phase
    cases held.symm.trans phase
  have ready : Ready s.writeActive s.freeBus := by
    have r := h.sound.ready notHolding
    exact ⟨⟨r.claims, r.notHolding, r.possible, r.status, r.guarded⟩, r.armed⟩
  unfold State.targetAccessEnd
  rw [inFlight]
  exact h.of_sound (completeCycle_cycleKeeps c data s.freeBus).engine
    (over_completeCycle ready ⟨Owner.noConfusion, h.sound.target.2 owner⟩ c data).sound

theorem runTransfer_aside (bytes : List TransferByte) (t : Transfer) (s : State) :
    (s.runTransfer bytes t).run = s.run ∧ (s.runTransfer bytes t).port = s.port ∧ (s.runTransfer bytes t).bus.owner = s.bus.owner ∧
    (s.runTransfer bytes t).bus.target = s.bus.target ∧ (s.runTransfer bytes t).engine = s.engine := by
  induction bytes generalizing t s with
  | nil =>
    unfold State.runTransfer State.finishTransfer
    split <;> exact ⟨rfl, rfl, rfl, rfl, rfl⟩
  | cons b rest ih =>
    unfold State.runTransfer
    split
    · exact ⟨rfl, rfl, rfl, rfl, rfl⟩
    · split
      · exact ⟨rfl, rfl, rfl, rfl, rfl⟩
      · obtain ⟨run, port, owner, target, engine⟩ := ih (t.made' b (s.transferRead b)) (s.transferWrite b)
        obtain ⟨run', port', bus', engine'⟩ := transferWrite_aside b s
        exact ⟨run.trans run', port.trans port', owner.trans (by rw [bus']), target.trans (by rw [bus']), engine.trans engine'⟩

theorem governed_runTransfer {s : State} (h : Governed s) (bytes : List TransferByte) (t : Transfer) : Governed (s.runTransfer bytes t) := by
  obtain ⟨run, port, owner, target, engine⟩ := runTransfer_aside bytes t s
  exact h.quiet engine ⟨by rw [run], by rw [run], by rw [run], by rw [run], by rw [port], by rw [port], by rw [port], owner, target⟩

theorem governed_transferWrite {s : State} (h : Governed s) (b : TransferByte) : Governed (s.transferWrite b) := by
  obtain ⟨run, port, bus, engine⟩ := transferWrite_aside b s
  exact h.of_same run port bus engine

theorem governed_transferAccessEnd {s : State} (h : Governed s) (data : Byte) : Governed (s.transferAccessEnd data) := by
  unfold State.transferAccessEnd
  repeat' split
  all_goals first
    | with_reducible exact h
    | with_reducible exact governed_runTransfer (governed_transferWrite h _) ..
    | exact h.works (.of_quiet (quiet_of_engineOnly (finishTransfer_engineOnly ..) (by unfold State.finishTransfer; split <;> rfl)
        (by unfold State.finishTransfer; split <;> rfl)) (finishTransfer_cycleKeeps ..).engine)

theorem governed_recordAccess {s : State} (h : Governed s) (lane : Fin 4) (a : Access) (data : Byte) : Governed (s.recordAccess lane a data) :=
  governed_mark h _

theorem governed_boardAccessEnd {s : State} (h : Governed s) (data : Byte) : ResultGoverned (execBoardAccessEnd data s) := by
  unfold execBoardAccessEnd
  split
  · exact governed_next (governed_heldAccessEnd h)
  · split
    · exact governed_next h
    · exact governed_next h
    · rename_i owner
      exact governed_next (governed_targetAccessEnd h owner data).settle
    · split
      · exact governed_next (governed_transferAccessEnd (governed_freeBus h) _).settle
      · exact governed_fault _
    · exact governed_next (governed_freeBus (governed_recordAccess h ..)).settle
    · exact governed_next (governed_freeBus h).settle
    · exact governed_next ((governed_freeBus (governed_recordAccess h ..)).works (works_engineAccessEnd ..)).settle
    · exact governed_next (governed_owner (governed_recordAccess h ..) rfl rfl rfl rfl rfl (fun own => nomatch own) id)

theorem governed_setBoardReset {s : State} (h : Governed s) (b : Bool) : Governed (s.setBoardReset b) :=
  h.quiet rfl ⟨rfl, rfl, rfl, rfl, rfl, rfl, rfl, rfl, rfl⟩

theorem governed_senseNet {s : State} (h : Governed s) : Governed s.senseNet := by
  unfold State.senseNet
  split
  · exact h.quiet rfl ⟨rfl, rfl, rfl, rfl, rfl, rfl, rfl, rfl, rfl⟩
  · exact h

theorem governed_boardResetSeen {s : State} (h : Governed s) : ResultGoverned (execBoardResetSeen s) := by
  unfold execBoardResetSeen
  split
  · rename_i seen
    simp only [State.resetSeen, Bool.and_eq_true] at seen
    have supplied : (s.setBoardReset true).run.hold ≠ .unpowered := by
      intro lost
      rw [h.sound.status.1.1 lost] at seen
      cases seen.1.1.2
    refine governed_next (governed_latch (governed_cutOff (governed_setBoardReset h true) ?_ supplied (fun write => if_pos write) ..) _).settle
    split <;> simp
  · exact governed_next (governed_setBoardReset h true)

/-! ### The supply -/

/-- With the ACTIVE entry ended no entry is ACTIVE. -/
theorem not_writing_endJob {j : Job} {s : State} (table : s.jobTable) (active : s.activeJob = some j) (c : Completion) : ¬Writing (s.endJob j c) := by
  rintro ⟨k, mem, isActive, -⟩
  obtain rfl := active_unique table active (mem_endJob mem isActive) isActive
  rw [endJob_engine] at mem
  obtain ⟨x, -, same⟩ := List.mem_map.1 mem
  split at same
  · rw [← same] at isActive
    cases isActive
  · rename_i other
    exact other (congrArg Job.number same)

theorem not_writing_jobPowerLost {s : State} (table : s.jobTable) : ¬Writing s.jobPowerLost := by
  unfold State.jobPowerLost
  split
  · rename_i none
    rintro ⟨k, mem, isActive, -⟩
    simpa [isActive] using List.find?_eq_none.1 none k mem
  · rename_i j active
    split
    · rename_i inactive
      have isActive := List.find?_some active
      rw [inactive] at isActive
      cases isActive
    · dsimp only
      split
      · exact fun writing => not_writing_endJob table active _ (writing_of_cancelFold writing)
      · exact not_writing_endJob table active _

theorem works_jobPowerLost (s : State) : Works s s.jobPowerLost := by
  unfold State.jobPowerLost
  split
  · exact .refl s
  · rename_i j active
    split
    · exact .refl s
    · dsimp only
      have ended := works_endJob (j := j) (s := s) (fun table => (leads_of_active table active).isOpen)
      split
      · exact ((ended _).trans (works_cancelAll _)).trans (works_respond ..)
      · exact ended _

/-- The loss of the supply leaves run control sound, where the target's request and grant were in order (R113, R182). -/
theorem governed_supplyLost {s : State} (target : s.targetSound) (table : s.jobTable) : Governed s.supplyLost := by
  have cut : Sound false (State.cutOff .power .unpowered (.power true) { s with port := { s.port with powered := false } }) :=
    sound_cutOff (s := { s with port := { s.port with powered := false } }) target (.inr (.inr rfl)) (by simp) Bool.noConfusion _ _
  have engine : (State.cutOff .power .unpowered (.power true) { s with port := { s.port with powered := false } }).engine = s.engine :=
    (cutOff_cycleKeeps ..).engine
  unfold State.supplyLost
  dsimp only
  generalize State.cutOff .power .unpowered (.power true) { s with port := { s.port with powered := false } } = u at cut engine ⊢
  have shortened : Sound false ((u.latch .power).cutTransfer TransferByte.boardBound) := (quiet_cutTransfer ..).sound ((quiet_latch ..).sound cut)
  have table' : ((u.latch .power).cutTransfer TransferByte.boardBound).jobTable := jobTable_of_engine ((cutTransfer_cycleKeeps ..).engine.trans engine) table
  generalize (u.latch .power).cutTransfer TransferByte.boardBound = v at shortened table' ⊢
  have bus : Sound false v.engineBusLost := by
    refine ⟨⟨shortened.claims, shortened.held, shortened.armed, shortened.holding, shortened.status, ?_, shortened.guarded⟩, shortened.possible⟩
    simp only [State.targetSound, State.engineBusLost, lastAccess_target]
    exact shortened.target
  have worked := works_jobPowerLost v.engineBusLost
  have tableBus : v.engineBusLost.jobTable := table'
  have sound := worked.toQuiet.sound bus
  have idle : v.engineBusLost.jobPowerLost.writeActive = false := by
    by_contra write
    exact not_writing_jobPowerLost tableBus (writing_of_writeActive (by simpa using write))
  have ended : Governed v.engineBusLost.jobPowerLost := ⟨idle ▸ sound, worked.table tableBus⟩
  exact ended.of_same rfl rfl rfl rfl

/-- Standing claims are taken up while the supply is present (R111, R114, R115). -/
theorem ready_takeUpClaims {s : State} (claims : s.run.claimsFormed) (powered : s.port.powered = true) : Ready false s.takeUpClaims := by
  have running : Free false (s.setHold .running) :=
    ⟨claims, HoldState.noConfusion, HoldState.noConfusion,
      ⟨⟨HoldState.noConfusion, fun lost => absurd (powered.symm.trans lost) Bool.false_ne_true.symm⟩, fun _ => .inl rfl⟩, Bool.noConfusion⟩
  unfold State.takeUpClaims
  dsimp only
  split
  · rename_i live
    exact ready_armOrMiss running rfl live
  · exact ⟨running, HoldState.noConfusion⟩

theorem takeUpClaims_aside (s : State) : s.takeUpClaims.port = s.port ∧ s.takeUpClaims.bus = s.bus := by
  unfold State.takeUpClaims
  dsimp only
  split
  · exact ⟨armOrMiss_port _, armOrMiss_bus _⟩
  · exact ⟨rfl, rfl⟩

/-- Where no hold stands and no write-class job is ACTIVE, the claims are taken up soundly. -/
theorem sound_takeUpClaims {s : State} (claims : s.run.claimsFormed) (powered : s.port.powered = true)
    (notHeld : s.port.inFlight.any (fun c => decide (c.phase = .held)) = false) (target : s.targetSound) : Sound false s.takeUpClaims := by
  obtain ⟨port, bus⟩ := takeUpClaims_aside s
  refine (ready_takeUpClaims claims powered).sound (by rw [port]; exact notHeld) ?_
  simp only [State.targetSound, port, bus]
  exact target

theorem governed_supplyReturned {s : State} (h : Governed s) (lost : s.port.powered = false) : Governed s.supplyReturned := by
  have hold : s.run.hold = .unpowered := h.sound.status.1.2 lost
  have notHolding : s.run.hold ≠ .holding := by rw [hold]; exact HoldState.noConfusion
  have idle : s.writeActive = false := by
    by_contra write
    have := (h.sound.guarded (by simpa using write)).1
    rw [hold] at this
    simp at this
  have rehearsal : s.run.rehearsal = false := by
    by_contra rehearses
    have := h.sound.status.2 (by simpa using rehearses)
    rw [hold] at this
    simp at this
  have notHeld := Sound.notHeld h.sound.toLoose notHolding
  have taken : Governed (if s.run.powerUpHold then State.setHold .resetHeld { s with port := { s.port with powered := true, resetSense := false } }
      else State.takeUpClaims { s with port := { s.port with powered := true, resetSense := false } }) := by
    split
    · have ready : Ready false (State.setHold .resetHeld { s with port := { s.port with powered := true, resetSense := false } }) :=
        ⟨⟨h.sound.claims, HoldState.noConfusion, HoldState.noConfusion, ⟨⟨HoldState.noConfusion, Bool.noConfusion⟩, fun rehearses => ?_⟩, Bool.noConfusion⟩,
          HoldState.noConfusion⟩
      · exact h.of_sound rfl (idle ▸ ready.sound notHeld h.sound.target)
      · exact absurd (rehearsal.symm.trans rehearses) Bool.false_ne_true
    · refine h.of_sound (takeUpClaims_cycleKeeps _).engine ?_
      rw [idle]
      exact sound_takeUpClaims (s := { s with port := { s.port with powered := true, resetSense := false } }) h.sound.claims rfl notHeld h.sound.target
  exact governed_latch (governed_mark taken _) _

/-- The supply monitor leaves the state, or leaves one in which run control is sound, even where a change of the wiring has not been acted on yet. -/
theorem supervise_governed {s : State} (target : s.targetSound) (table : s.jobTable) (returned : s.port.powered = false → Governed s) :
    s.supervise = s ∨ Governed s.supervise := by
  unfold State.supervise
  split
  · split
    · exact .inr (governed_supplyLost target table).settle
    · exact .inl rfl
  · rename_i lost
    have lost : s.port.powered = false := by simpa using lost
    split
    · exact .inr (governed_supplyReturned (returned lost) lost).settle
    · exact .inl rfl

theorem Governed.supervise {s : State} (h : Governed s) : Governed s.supervise := by
  rcases supervise_governed h.sound.target h.table (fun _ => h) with same | governed
  · rw [same]; exact h
  · exact governed

theorem governed_supplyAt {s : State} (h : Governed s) (level : Nat) : Governed (s.supplyAt level) := by
  have set : Governed (s.setSupply level) := h.quiet rfl ⟨rfl, rfl, rfl, rfl, rfl, rfl, rfl, rfl, rfl⟩
  unfold State.supplyAt
  split
  · exact set
  · exact set.supervise

/-! ### Claims from outside, and the engine's own events -/

theorem governed_raiseClaim {s : State} (h : Governed s) {r : Raise} (raise : RaiseFormed r) : Governed (s.raiseClaim r) :=
  h.of_sound (raiseClaim_cycleKeeps ..).engine (sound_raiseClaim h.sound raise)

theorem governed_edgeTaken {s : State} (h : Governed s) (line : Fin 4) (rising : Bool) (p : ProbeLine) : Governed (s.edgeTaken line rising p) := by
  have stamped : Governed (s.setProbeLine line (p.stamped rising s.timeBase)) := h.of_same rfl rfl rfl rfl
  have recorded : Governed (if p.record then (s.setProbeLine line (p.stamped rising s.timeBase)).offer (.edge line rising) true s.timeBase
      else s.setProbeLine line (p.stamped rising s.timeBase)) := by
    split
    · exact stamped.quiet (offer_cycleKeeps ..).engine (quiet_offer ..)
    · exact stamped
  unfold State.edgeTaken
  dsimp only
  split
  · exact governed_latch recorded _
  · exact recorded

theorem governed_probeEdge {s : State} (h : Governed s) (line : Fin 4) (rising : Bool) : ResultGoverned (execProbeEdge line rising s) := by
  unfold execProbeEdge
  dsimp only
  repeat' split
  · exact governed_next h
  · exact governed_next (h.of_same rfl rfl rfl rfl)
  · exact governed_next (governed_edgeTaken h ..)
  · exact governed_next (governed_raiseClaim (governed_edgeTaken h ..) (probeRaise_formed ..)).settle
  · exact governed_fault _

theorem governed_readyLineAsserted {s : State} (h : Governed s) : ResultGoverned (execReadyLineAsserted s) := by
  unfold execReadyLineAsserted
  split
  · rename_i polls
    split
    · exact governed_next h
    · exact governed_next (h.works (works_activeWork (work_pollDone ..) (polling_active polls))).settle
  all_goals exact governed_next h

theorem governed_pollTimeout {s : State} (h : Governed s) : ResultGoverned (execPollTimeout s) := by
  unfold execPollTimeout
  split
  · exact governed_next h
  · rename_i j a p f start stage polls
    have active : (s.passUntil start (pollLimit j.op f)).activeJob = some j := by
      rw [State.activeJob, passUntil_engine]
      exact polling_active polls
    have passed := governed_passUntil h start (pollLimit j.op f)
    split
    · exact governed_next h
    · dsimp only
      split
      · exact governed_next (governed_takeDue (passed.works (works_activeWork (work_timeOut ..) active)).settle)
      all_goals exact governed_next (governed_takeDue passed)

/-! ### Commands on run control -/

/-- Run control is sound but for a change of the wiring not yet acted on; the reaction to it puts that right (R102). -/
theorem sound_rewired {w : Bool} {s : State} (h : Loose w s) (possible : s.run.hold = .holding → s.holdingPossible = true) : Sound w s.rewired := by
  unfold State.rewired
  split
  · rename_i rehearsal
    exact ⟨h, fun _ => by simp [State.holdingPossible, rehearsal]⟩
  · split
    · rename_i wired
      have able : s.holdingPossible = true := by simp [State.holdingPossible, wired]
      split
      · rename_i arms
        have free : Free w s := ⟨h.claims, by rw [arms.1]; exact HoldState.noConfusion, fun _ => able, h.status, fun write =>
          ⟨(h.guarded write).1.resolve_left (by rw [arms.1]; exact HoldState.noConfusion), (h.guarded write).2⟩⟩
        have ready : Ready w (s.setHold .holdArmed) := ⟨free_setHold free (.inl arms.1) (.inr ⟨rfl, able⟩), fun _ => arms.2⟩
        have notHeld := Sound.notHeld h free.notHolding
        exact ready.sound notHeld h.target
      · exact ⟨h, fun _ => able⟩
    · split
      · rename_i armed
        have guard : w = true → False := fun write => by
          have := (h.guarded write).1
          rw [armed] at this
          simp at this
        have powered := powered_of h.status (by rw [armed]; exact HoldState.noConfusion)
        have ready : Ready w (s.setHold .running) :=
          ⟨⟨h.claims, HoldState.noConfusion, HoldState.noConfusion,
            ⟨⟨HoldState.noConfusion, fun lost => absurd (powered.symm.trans lost) Bool.false_ne_true.symm⟩, fun _ => .inl rfl⟩, fun write => (guard write).elim⟩,
            HoldState.noConfusion⟩
        have notHeld := Sound.notHeld h (by rw [armed]; exact HoldState.noConfusion)
        exact (quiet_latch ..).sound (ready.sound notHeld h.target)
      · rename_i unarmed
        exact ⟨h, fun either => possible (either.resolve_left unarmed)⟩

theorem rewired_engine (s : State) : s.rewired.engine = s.engine := by
  unfold State.rewired
  repeat' split
  all_goals rfl

theorem Governed.rewired {s : State} (h : Governed s) : Governed s.rewired :=
  h.of_sound (rewired_engine s) (sound_rewired h.sound.toLoose fun holding => h.sound.possible (.inr holding))

/-- SET HOLD OPTIONS: what follows the replacement of the options puts run control right (R102). -/
theorem governed_optionsTaken {s : State} (loose : Loose s.writeActive s) (table : s.jobTable) (possible : s.run.hold = .holding → s.holdingPossible = true)
    {wiring : Bool} (unchanged : wiring = false → Governed s) (threshold : Bool) : Governed (s.optionsTaken wiring threshold) := by
  have rewired : ∀ {u : State}, Loose s.writeActive u → u.engine = s.engine → (u.run.hold = .holding → u.holdingPossible = true) → Governed u.rewired :=
    fun {u} loose engine possible => by
      have same : u.rewired.engine = s.engine := (rewired_engine u).trans engine
      exact ⟨writeActive_of_engine same ▸ sound_rewired loose possible, jobTable_of_engine same table⟩
  have free : Quiet s s.useFree := .of_same rfl rfl rfl
  unfold State.optionsTaken
  split
  · exact unchanged rfl
  · exact rewired loose rfl possible
  · exact (unchanged rfl).supervise
  · split
    · exact (rewired (u := s.useFree) (free.loose loose) rfl possible).supervise
    · have returned : s.useFree.port.powered = false → Governed s.useFree := fun lost => by
        have hold : s.run.hold = .unpowered := loose.status.1.2 lost
        have sound : Sound s.writeActive s := ⟨loose, fun either => by rw [hold] at either; simp at either⟩
        exact ⟨free.sound sound, table⟩
      rcases supervise_governed (s := s.useFree) loose.target table returned with same | governed
      · rw [same]
        exact rewired (u := s.useFree) (free.loose loose) rfl possible
      · exact governed.rewired

theorem governed_setHoldOptions {s : State} (h : Governed s) (f : HoldFields) : ResultGoverned (execSetHoldOptions f s) := by
  refine governed_onTaken h fun t ht _ => ?_
  split
  · rename_i fits
    split
    · exact governed_reject ht ..
    · rename_i admitted
      have loose : Loose t.writeActive (t.setOptions f ⟨f.threshold, fits.1⟩) :=
        ⟨ht.sound.claims, ht.sound.held, ht.sound.armed, ht.sound.holding, ht.sound.status, ht.sound.target, ht.sound.guarded⟩
      refine governed_accept (Governed.settle ?_) ..
      refine governed_optionsTaken (s := t.setOptions f ⟨f.threshold, fits.1⟩) loose ht.table (fun holding => ?_) (fun unchanged => ?_) _
      · have wired : f.waitWired = t.port.waitWired := by
          have holding : t.run.hold = .holding := holding
          by_contra other
          exact admitted (by simp [State.optionsBarred, holding, other])
        have possible := ht.sound.possible (.inr holding)
        simpa [State.holdingPossible, State.setOptions, wired] using possible
      · have wired : f.waitWired = t.port.waitWired := by simpa using unchanged
        exact ht.quiet rfl ⟨rfl, rfl, rfl, rfl, rfl, rfl, wired, rfl, rfl⟩
  · exact governed_reject ht ..

/-- A hold that a command ends over no write-class job (R102, R104). -/
theorem governed_endHoldByFloor {s t : State} (h : Governed s) (idle : s.writeActive = false) (engine : t.engine = s.engine) (claims : t.run.claimsFormed)
    (hold : t.run.hold = .holding) (possible : t.holdingPossible = true) (status : t.statusSound) (clear : Clear t) : Governed t.endHoldByFloor := by
  refine h.of_sound ((endHoldByFloor_cycleKeeps t).engine.trans engine) ?_
  rw [idle]
  exact sound_endHoldByFloor claims hold possible status clear

theorem governed_floorTaken {s : State} (h : Governed s) (floor : Nat) (stays : s.run.hold = .holding → (s.withFloor floor).run.anyHolding = true) :
    Governed (s.floorTaken floor) := by
  have sound : ∀ hold : s.run.hold ≠ .holdArmed, Sound s.writeActive (s.withFloor floor) := fun hold =>
    ⟨⟨h.sound.claims, h.sound.held, fun armed => absurd armed hold, stays, h.sound.status, h.sound.target, h.sound.guarded⟩, h.sound.possible⟩
  have free : s.run.hold ≠ .holding → Free s.writeActive (s.withFloor floor) := fun notHolding =>
    have ready := h.sound.ready notHolding
    ⟨ready.claims, ready.notHolding, ready.possible, ready.status, ready.guarded⟩
  have governed : ∀ {u : State}, u.engine = s.engine → u.port = s.port → u.bus = s.bus → s.run.hold ≠ .holding → Ready s.writeActive u → Governed u :=
    fun {u} engine port bus notHolding ready => by
      refine h.of_sound engine (ready.sound ?_ ?_)
      · rw [port]; exact Sound.notHeld h.sound.toLoose notHolding
      · simp only [State.targetSound, port, bus]; exact h.sound.target
  unfold State.floorTaken
  dsimp only
  split <;> rename_i hold
  · have notHolding : s.run.hold ≠ .holding := by rw [hold]; exact HoldState.noConfusion
    split
    · rename_i live
      exact governed (u := s.withFloor floor) rfl rfl rfl notHolding ⟨free notHolding, fun _ => live⟩
    · exact governed (u := (s.withFloor floor).setHold .running) rfl rfl rfl notHolding
        ⟨free_setHold (free notHolding) (.inr hold) (.inl rfl), HoldState.noConfusion⟩
  · have notHolding : s.run.hold ≠ .holding := by rw [hold]; exact HoldState.noConfusion
    split
    · rename_i becomes
      obtain ⟨c, mem, becomes⟩ := List.any_eq_true.1 becomes
      rw [Bool.and_eq_true] at becomes
      exact governed (armOrMiss_cycleKeeps _).engine (armOrMiss_port _) (armOrMiss_bus _) notHolding
        (ready_armOrMiss (free notHolding) hold (List.any_eq_true.2 ⟨c, mem, becomes.1⟩))
    · exact h.of_sound rfl (sound (by rw [hold]; exact HoldState.noConfusion))
  all_goals exact h.of_sound rfl (sound (by rw [hold]; exact HoldState.noConfusion))

theorem governed_setFloor {s : State} (h : Governed s) (floor : Nat) : ResultGoverned (execSetFloor floor s) := by
  refine governed_onTaken h fun t ht _ => ?_
  split
  · exact governed_reject ht ..
  · split
    · rename_i ends
      have clear := clear_of_holding ht.sound.toLoose ends.1
      split
      · exact governed_reject ht ..
      · rename_i idle
        have ended : ∀ a : Option Activity, Governed (match a with | some a => ((t.withFloor floor).occupy a).endHoldByFloor | none => (t.withFloor floor).endHoldByFloor) := by
          intro a
          have idle : t.writeActive = false := by simpa using idle
          have possible := ht.sound.possible (.inr ends.1)
          cases a with
          | some a => exact governed_endHoldByFloor ht idle rfl ht.sound.claims ends.1 possible ht.sound.status ⟨clear.owner, clear.target⟩
          | none => exact governed_endHoldByFloor ht idle rfl ht.sound.claims ends.1 possible ht.sound.status ⟨clear.owner, clear.target⟩
        split
        · split
          · exact governed_next (ended (some .floor)).settle
          · exact governed_accept (ended none).settle ..
        · exact governed_fault _
    · rename_i stays
      refine governed_accept (governed_floorTaken ht floor fun holding => ?_).settle ..
      simpa [holding] using stays

theorem governed_halt {s : State} (h : Governed s) (level : Nat) : ResultGoverned (execHalt level s) := by
  refine governed_onTaken h fun t ht _ => ?_
  repeat' split
  · exact governed_reject ht ..
  · exact governed_accept (governed_raiseClaim ht (haltRaise_formed level)).settle ..
  · exact governed_fault _

/-- The claims that a RELEASE leaves are formed (R94, R106). -/
theorem remaining_formed {r : RunControl} (formed : r.claimsFormed) (target : ReleaseTarget) :
    ({ r with claims := target.remaining r.claims } : RunControl).claimsFormed := by
  have sub : (target.remaining r.claims).Sublist r.claims := by
    unfold ReleaseTarget.remaining
    split
    · exact List.filter_sublist
    · exact List.nil_sublist _
  exact ⟨formed.1.sublist sub, fun c mem => formed.2 c (sub.subset mem)⟩

/-- The put claim's source has a claim in the list. -/
theorem exists_claimsAfter {r : Raise} {s : State} : ∃ c ∈ s.claimsAfter r, c.source = r.source := by
  obtain ⟨c, source, put⟩ := claimsAfter_put r s
  exact ⟨c, put ▸ mem_putClaim_self c _, source⟩

/-- A hold that a RELEASE ends, and the held cycle by the mode (R106). -/
theorem sound_releaseHold {s : State} (claims : s.run.claimsFormed) (hold : s.run.hold = .holding) (possible : s.holdingPossible = true)
    (status : s.statusSound) (clear : Clear s) (mode : ReleaseMode) : Sound false (s.releaseHold mode) := by
  have ready := ready_afterHold claims hold possible status .release
  have q := quiet_endHold .release s
  have clear' := q.clear clear
  unfold State.releaseHold
  dsimp only
  split
  · exact sound_proceedHeld ready ⟨clear'.owner, clear'.target⟩
  · unfold State.substituteHeld
    split
    · exact (over_completeCycle ready ⟨clear'.owner, clear'.target⟩ _ _).sound
    · rename_i empty
      exact ready.sound (by simp [empty]) (Clear.targetSound ⟨clear'.owner, clear'.target⟩)
  · rename_i kind
    refine sound_proceedHeld ?_ ⟨clear'.owner, clear'.target⟩
    have formed := claimsAfter_formed (q.claimsFormed claims) (stepRaise_formed kind ((s.endHold .release).port.inFlight.map Cycle.address))
    have powered : (s.endHold .release).port.powered = true := q.powered.trans (powered_of status (by rw [hold]; exact HoldState.noConfusion))
    refine ⟨⟨formed, HoldState.noConfusion, fun _ => q.holdingPossible.trans possible,
      ⟨⟨HoldState.noConfusion, fun lost => absurd (powered.symm.trans lost) Bool.false_ne_true.symm⟩, fun _ => .inr (.inl rfl)⟩, Bool.noConfusion⟩, fun _ => ?_⟩
    obtain ⟨c, mem, source⟩ := exists_claimsAfter (r := stepRaise kind ((s.endHold .release).port.inFlight.map Cycle.address)) (s := s.endHold .release)
    exact List.any_eq_true.2 ⟨c, mem, live_of_step (formed.2 c mem) source⟩

theorem governed_acceptRelease {t : State} (h : Governed t) (c : Instr) : ResultGoverned (t.acceptRelease c) := governed_accept h ..

/-- The claims of a source are removed while no hold ends (R106). -/
theorem governed_releaseQuietly {s : State} (h : Governed s) (target : ReleaseTarget)
    (stays : s.run.hold = .holding → (s.withClaims (target.remaining s.run.claims)).run.anyHolding = true) :
    Governed (s.withClaims (target.remaining s.run.claims)).releaseQuietly := by
  have formed := remaining_formed h.sound.claims target
  unfold State.releaseQuietly
  split
  · rename_i lost
    have ready := h.sound.ready (by rw [show s.run.hold = .holdArmed from lost.1]; exact HoldState.noConfusion)
    have free : Free s.writeActive (s.withClaims (target.remaining s.run.claims)) :=
      ⟨formed, ready.notHolding, ready.possible, ready.status, ready.guarded⟩
    have released : Ready s.writeActive ((s.withClaims (target.remaining s.run.claims)).setHold .running) :=
      ⟨free_setHold free (.inr lost.1) (.inl rfl), HoldState.noConfusion⟩
    have notHeld := Sound.notHeld h.sound.toLoose ready.notHolding
    exact h.of_sound rfl (released.sound notHeld h.sound.target)
  · rename_i kept
    refine h.of_sound rfl ⟨⟨formed, h.sound.held, fun armed => ?_, stays, h.sound.status, h.sound.target, h.sound.guarded⟩, h.sound.possible⟩
    have armed : s.run.hold = .holdArmed := armed
    simpa [armed] using kept

theorem governed_release {s : State} (h : Governed s) (source mode : Nat) (byte : Option Byte) (stepKind : Option Nat) :
    ResultGoverned (execRelease source mode byte stepKind s) := by
  refine governed_onTaken h fun t ht _ => ?_
  split
  · rename_i target m _ _
    unfold State.releaseTaken
    dsimp only
    split
    · exact governed_reject ht ..
    · split
      · exact governed_reject ht ..
      · split
        · exact governed_reject ht ..
        · split
          · rename_i ends
            have clear := clear_of_holding ht.sound.toLoose ends.1
            split
            · exact governed_reject ht ..
            · rename_i idle
              have idle : t.writeActive = false := by simpa using idle
              have released : ∀ u : State, u.engine = t.engine → Quiet (t.withClaims (target.remaining t.run.claims)) u → Governed (u.releaseHold m) := by
                intro u engine q
                refine ht.of_sound ((releaseHold_cycleKeeps m u).engine.trans engine) (idle ▸ ?_)
                exact sound_releaseHold (q.claimsFormed (remaining_formed ht.sound.claims target)) (q.hold.trans ends.1)
                  (q.holdingPossible.trans (ht.sound.possible (.inr ends.1))) (q.statusSound ht.sound.status) (q.clear ⟨clear.owner, clear.target⟩) m
              split
              · split
                · exact governed_next (released ((t.withClaims (target.remaining t.run.claims)).occupy .release) rfl (quiet_occupy ..)).settle
                · exact governed_acceptRelease (released (t.withClaims (target.remaining t.run.claims)) rfl (.refl _)).settle ..
              · exact governed_fault _
          · rename_i stays
            refine governed_acceptRelease (governed_releaseQuietly ht target fun holding => ?_).settle ..
            simpa [holding] using stays
  · exact governed_reject ht ..

theorem governed_resetTarget {s : State} (h : Governed s) : ResultGoverned (execResetTarget s) := by
  refine governed_onTaken h fun t ht _ => ?_
  split
  · exact governed_reject ht ..
  · rename_i supplied
    exact governed_accept (governed_cutOff ht (.inr rfl) supplied (fun _ => rfl) ..).settle ..

theorem governed_resume {s : State} (h : Governed s) : ResultGoverned (execResume s) := by
  refine governed_onTaken h fun t ht _ => ?_
  repeat' split
  · exact governed_reject ht ..
  · rename_i idle held
    have idle : t.writeActive = false := by simpa using idle
    have notHolding : t.run.hold ≠ .holding := by rw [held.1]; exact HoldState.noConfusion
    have powered := powered_of ht.sound.status (by rw [held.1]; exact HoldState.noConfusion)
    have taken : Governed t.takeUpClaims := ht.of_sound (takeUpClaims_cycleKeeps t).engine
      (idle ▸ sound_takeUpClaims ht.sound.claims powered (Sound.notHeld ht.sound.toLoose notHolding) ht.sound.target)
    exact governed_accept (governed_senseNet taken).settle ..
  · exact governed_reject ht ..

theorem governed_rehearse {s : State} (h : Governed s) : ResultGoverned (execRehearse s) := by
  refine governed_onTaken h fun t ht _ => ?_
  repeat' split
  · exact governed_reject ht ..
  · rename_i idle held
    have idle : t.writeActive = false := by simpa using idle
    have notHolding : t.run.hold ≠ .holding := by rw [held]; exact HoldState.noConfusion
    have powered := powered_of ht.sound.status (by rw [held]; exact HoldState.noConfusion)
    have notHeld := Sound.notHeld ht.sound.toLoose notHolding
    have sound : Sound false (t.withRehearsal true).takeUpClaims := sound_takeUpClaims ht.sound.claims powered notHeld ht.sound.target
    have taken : Governed (t.withRehearsal true).takeUpClaims := ht.of_sound (takeUpClaims_cycleKeeps (t.withRehearsal true)).engine (idle ▸ sound)
    exact governed_accept taken.settle ..
  · exact governed_reject ht ..

theorem governed_injectAnswered {s : State} (h : Governed s) : Governed s.injectAnswered := by
  unfold State.injectAnswered
  repeat' split
  all_goals first | exact h | exact governed_respond h ..

/-- An INJECT that is taken in rehearsal with no hold finds no cycle in flight (R1, R116; log 17). -/
theorem noCycle_of_inject {address lane kind : Nat} {data : Option Byte} {s : State} {fields : Lane × Kind} (free : Instr.mustWait (.inject address lane kind data) s = false)
    (good : injectFields address lane kind data = some fields) (rehearsal : s.run.rehearsal = true) (notHolding : s.run.hold ≠ .holding) :
    s.port.inFlight = none := by
  simpa [Instr.mustWait, good, rehearsal, notHolding] using free

theorem governed_inject {s : State} (h : Governed s) (address lane kind : Nat) (data : Option Byte) : ResultGoverned (execInject address lane kind data s) := by
  refine governed_onTaken h fun t ht taken => ?_
  split
  · exact governed_reject ht ..
  · rename_i good
    split
    · exact governed_reject ht ..
    · rename_i rehearsal
      split
      · exact governed_reject ht ..
      · rename_i notHolding
        dsimp only
        split
        · obtain ⟨quiet, -⟩ := quiet_taken taken
          have empty : t.port.inFlight = none := quiet.inFlight.trans
            (noCycle_of_inject taken.2.2.1 good (by simpa [quiet.rehearsal] using rehearsal) (quiet.hold ▸ notHolding))
          have occupied : Sound t.writeActive (t.occupy .inject) := (quiet_occupy ..).sound ht.sound
          have presented : ∀ c : Cycle, c.raised = [] → Governed ((t.occupy .inject).presentCycle c) := fun c fresh =>
            ht.of_sound (presentCycle_cycleKeeps c (t.occupy .inject)).engine (sound_presentCycle occupied empty fresh)
          exact governed_next (governed_injectAnswered (presented _ rfl).settle)
        · exact governed_fault _

theorem governed_endRehearsal {s : State} (h : Governed s) : ResultGoverned (execEndRehearsal s) := by
  refine governed_onTaken h fun t ht _ => ?_
  repeat' split
  · exact governed_reject ht ..
  · exact governed_reject ht ..
  · rename_i rehearsal notHolding
    have stays := ht.sound.status.2 (by simpa using rehearsal)
    have powered := powered_of ht.sound.status (by rintro lost; rw [lost] at stays; simp at stays)
    have ready : Ready t.writeActive ((t.withRehearsal false).clearClaims.setHold .resetHeld) :=
      ⟨⟨⟨List.Pairwise.nil, fun _ mem => nomatch mem⟩, HoldState.noConfusion, HoldState.noConfusion,
        ⟨⟨HoldState.noConfusion, fun lost => absurd (powered.symm.trans lost) Bool.false_ne_true.symm⟩, Bool.noConfusion⟩, fun _ => ⟨rfl, rfl⟩⟩,
        HoldState.noConfusion⟩
    have notHeld := Sound.notHeld ht.sound.toLoose notHolding
    have ended : Governed ((t.withRehearsal false).clearClaims.setHold .resetHeld) := ht.of_sound rfl (ready.sound notHeld ht.sound.target)
    exact governed_accept ended.settle ..

/-! ### The other commands that are more than an answer -/

theorem governed_startTransfer {s : State} (h : Governed s) (c : Instr) (form : TransferForm) (bytewise view : Bool) (bytes : List TransferByte) :
    ResultGoverned (s.startTransfer c form bytewise view bytes) := by
  unfold State.startTransfer
  split
  · exact governed_reject h ..
  · split
    · exact governed_next (governed_runTransfer h ..).settle
    · exact governed_fault _

theorem governed_startOverlay {s : State} (h : Governed s) (form : TransferForm) (bytewise : Bool) (bytes : List TransferByte) :
    ResultGoverned (s.startOverlay form bytewise bytes) := governed_next (governed_runTransfer h ..)

theorem governed_surveyLines {s : State} (h : Governed s) : ResultGoverned (execSurveyLines s) := by
  refine governed_onTaken h fun t ht _ => ?_
  repeat' split
  · exact governed_reject ht ..
  · exact governed_reject ht ..
  · exact governed_reject ht ..
  · refine governed_accept (Governed.settle ?_) ..
    exact ht.quiet rfl ⟨rfl, rfl, rfl, rfl, rfl, rfl, rfl, rfl, rfl⟩

theorem enterJob_aside (op : Operation) (lane : Fin 4) (address length : Nat) (s : State) :
    (s.enterJob op lane address length).run = s.run ∧ (s.enterJob op lane address length).port = s.port ∧ (s.enterJob op lane address length).bus = s.bus := by
  unfold State.enterJob State.bind
  dsimp only
  split <;> exact ⟨rfl, rfl, rfl⟩

theorem governed_submit {s : State} (h : Governed s) (f : SubmitFields) : ResultGoverned (execSubmit f s) := by
  refine governed_onTaken h fun t ht _ => ?_
  split
  · rename_i op lane _ _
    split
    · exact governed_reject ht ..
    · rename_i address length checked
      obtain ⟨room, ready⟩ := submitCheck_ok checked
      obtain ⟨run, port, bus⟩ := enterJob_aside op lane address length t
      have entered : Works t (t.enterJob op lane address length) :=
        ⟨.of_same run port bus, (jobsKept_enterJob room ready ..).table, fun _ ⟨k, mem, active, write⟩ => by
          rw [enterJob_engine] at mem
          rcases List.mem_append.1 mem with mem | mem
          · exact ⟨k, mem, active, write⟩
          · rw [List.mem_singleton.1 mem] at active
            cases active⟩
      exact governed_accept (ht.works entered).settle ..
  · exact governed_reject ht ..

theorem governed_collect {s : State} (h : Governed s) : ResultGoverned (execCollect s) := by
  refine governed_onTaken h fun t ht _ => ?_
  split
  · rename_i j c found
    have removed : Works t { t with engine := t.engine.remove j.number } :=
      ⟨.of_same rfl rfl rfl, (jobsKept_remove found).table, fun _ ⟨k, mem, active, write⟩ => ⟨k, (List.mem_filter.1 mem).1, active, write⟩⟩
    exact governed_accept (ht.works removed) ..
  · exact governed_reject ht ..

theorem governed_cancelJob {s : State} (h : Governed s) (number : Nat) : ResultGoverned (execCancelJob number s) := by
  refine governed_onTaken h fun t ht _ => ?_
  split
  · exact governed_reject ht ..
  · rename_i j found
    have cancelled : j.unfinished = true → Works t (t.cancel j) := fun unfinished =>
      works_endJob (fun _ => ⟨j, List.mem_of_find?_eq_some found, rfl, rfl, unfinished⟩) _
    split
    · rename_i state
      exact governed_accept (ht.works (cancelled (by simp [Job.unfinished, state]))).settle ..
    · rename_i state
      exact governed_accept (ht.works (cancelled (by simp [Job.unfinished, state]))).settle ..
    · exact governed_reject ht ..
    · exact governed_reject ht ..

theorem governed_abortActive {s : State} (h : Governed s) {j : Job} (active : s.activeJob = some j) (a : Active) : Governed (s.abortActive j a) := by
  have withdrawn : Works s { s with bus := { s.bus with engine := none } } := .of_quiet ⟨rfl, rfl, rfl, rfl, rfl, rfl, rfl, rfl, rfl⟩ rfl
  unfold State.abortActive
  split
  · exact h.works (works_activeWork (.awaits ..) active)
  · dsimp only
    split
    · exact (h.works (withdrawn.trans (works_activeWork (work_abortReset ..) active))).settle
    · exact (h.works (withdrawn.trans (works_activeWork (.aborts ..) active))).settle

theorem governed_abortEngine {s : State} (h : Governed s) : ResultGoverned (execAbortEngine s) := by
  refine governed_onTaken h fun t ht _ => ?_
  have occupied : Governed (t.occupy .abort) := ht.quiet rfl (quiet_occupy ..)
  split
  · exact governed_accept (ht.works (works_cancelAll t)).settle ..
  · rename_i active
    split
    · exact governed_next (governed_abortActive (s := t.occupy .abort) occupied active _)
    · exact governed_accept (ht.works (works_cancelAll t)).settle ..

theorem governed_linkRateChange {s : State} (h : Governed s) (code : Option Byte) : ResultGoverned (execLinkRateChange code s) := by
  unfold execLinkRateChange
  split
  · refine governed_next (governed_endReception ?_ _)
    exact h.of_same rfl rfl rfl rfl
  all_goals exact governed_next h

theorem governed_queueFrame {s : State} (h : Governed s) (f : Frame) : Governed (s.queueFrame f) := by
  unfold State.queueFrame
  split
  · exact h.of_same rfl rfl rfl rfl
  · exact h

theorem governed_lineSurveyEnd {s : State} (h : Governed s) (high low : List (BitVec 28)) : ResultGoverned (execLineSurveyEnd high low s) := by
  unfold execLineSurveyEnd
  split
  · generalize Vector.ofFn (judgeLine high low) = map
    have freed : Governed { s with bus := { s.bus with owner := .free, lineMap := map, survey := false } } :=
      governed_owner h rfl rfl rfl rfl rfl (fun own => nomatch own) id
    exact governed_next (governed_latch freed _).settle
  · exact governed_next h

theorem governed_surveyEnds {s : State} (h : Governed s) (readBacks : List ReadBack) : Governed (s.surveyEnds readBacks) := by
  have ended : Governed { s with overlay := { cells := [], repairList := surveyList readBacks, survey := .idle } } := h.of_same rfl rfl rfl rfl
  exact governed_latch ended _

/-! ### Every command, every step -/

/-- Every command keeps run control sound. -/
theorem governed_exec {s : State} (h : Governed s) (c : Instr) : ResultGoverned (exec c s) := by
  cases c
  case powerOn => exact governed_next (governed_afterReset ..)
  case prstAsserted =>
    refine governed_next ?_
    split
    · exact h.quiet rfl ⟨rfl, rfl, rfl, rfl, rfl, rfl, rfl, rfl, rfl⟩
    · exact governed_holdInReset h
  case prstReleased =>
    refine governed_next ?_
    split
    · exact governed_endReset h
    · exact h
  case partReset =>
    refine governed_next ?_
    split
    · exact h
    · exact governed_endReset (governed_holdInReset h)
  case powerOnSurveyEnd readBacks =>
    show ResultGoverned (execPowerOnSurveyEnd readBacks s)
    unfold execPowerOnSurveyEnd
    split
    · exact governed_next (governed_surveyEnds h _)
    · exact governed_next h
  case overlaySurveyEnd readBacks =>
    show ResultGoverned (execOverlaySurveyEnd readBacks s)
    unfold execOverlaySurveyEnd
    split
    · exact governed_next (governed_surveyEnds h _)
    · exact governed_next h
  case lineSurveyEnd high low => exact governed_lineSurveyEnd h high low
  case cyclePresented address write fetch selects => exact governed_cyclePresented h address write fetch selects
  case lostCycle => exact governed_next h
  case boardAccessEnd data => exact governed_boardAccessEnd h data
  case boardResetSeen => exact governed_boardResetSeen h
  case boardResetReleased =>
    refine governed_next ?_
    split
    · exact governed_setBoardReset h false
    · exact governed_senseNet (governed_setBoardReset h false)
  case supplyLost level => exact governed_next (governed_supplyAt h level)
  case supplyReturned level => exact governed_next (governed_supplyAt h level)
  case probeEdge line rising => exact governed_probeEdge h line rising
  case holdLimitExpiry =>
    show ResultGoverned (execHoldLimitExpiry s)
    unfold execHoldLimitExpiry
    split
    · split
      · rename_i holds
        exact governed_next (governed_takeDue (governed_expireHold h holds.1 _))
      · exact governed_next h
    · exact governed_next h
  case jobStart =>
    refine governed_next ?_
    split
    · exact h
    · exact h.settle
  case readyLineAsserted => exact governed_readyLineAsserted h
  case pollTimeout => exact governed_pollTimeout h
  case lateFrame code => exact governed_next (governed_takeDue (governed_dropLate h code))
  case overlongFrame => exact governed_next (governed_endReception h _)
  case startByteNoRoom => exact governed_next h
  case startByteReceived code =>
    show ResultGoverned (execStartByteReceived s code)
    unfold execStartByteReceived
    split
    · exact governed_next h
    · exact governed_next (governed_queueFrame h _)
  case checkByteReceived code payload check =>
    refine governed_next ?_
    split
    · exact governed_dropDue h
    · exact governed_endReception h _
  case unknownCommand code payload =>
    show ResultGoverned (execUnknownCommand code payload s)
    unfold execUnknownCommand
    split
    · exact governed_next h
    · exact governed_onTaken h fun t ht _ => governed_next (governed_respond ht ..)
  case linkRateChange code => exact governed_linkRateChange h code
  case writeOverlay page offset data =>
    refine governed_onTaken h fun t ht _ => ?_
    repeat' split
    all_goals first | exact governed_reject ht .. | exact governed_startOverlay ht ..
  case readOverlay page offset count =>
    refine governed_onTaken h fun t ht _ => ?_
    repeat' split
    all_goals first | exact governed_reject ht .. | exact governed_startOverlay ht ..
  case peek path address count lane =>
    refine governed_onTaken h fun t ht _ => ?_
    repeat' split
    all_goals first | exact governed_reject ht .. | exact governed_startTransfer ht ..
  case poke path address data lane =>
    refine governed_onTaken h fun t ht _ => ?_
    repeat' split
    all_goals first | exact governed_reject ht .. | exact governed_startTransfer ht ..
  case surveyLines => exact governed_surveyLines h
  case setHoldOptions f => exact governed_setHoldOptions h f
  case setFloor floor => exact governed_setFloor h floor
  case halt level => exact governed_halt h level
  case release source mode byte stepKind => exact governed_release h source mode byte stepKind
  case resetTarget => exact governed_resetTarget h
  case resume => exact governed_resume h
  case rehearse => exact governed_rehearse h
  case inject address lane kind data => exact governed_inject h address lane kind data
  case endRehearsal => exact governed_endRehearsal h
  case submit f => exact governed_submit h f
  case collect => exact governed_collect h
  case cancelJob number => exact governed_cancelJob h number
  case abortEngine => exact governed_abortEngine h
  -- The others write neither run control, the Target Port, the target's part of the bus nor the job table.
  all_goals
    refine governed_onTaken h fun t ht _ => ?_
    repeat' (first | split | (dsimp only; split))
    all_goals exact governed_next (ht.quiet rfl ⟨rfl, rfl, rfl, rfl, rfl, rfl, rfl, rfl, rfl⟩)

theorem governed_takeFrame {s : State} (h : Governed s) : ResultGoverned s.takeFrame := by
  unfold State.takeFrame
  split
  · exact governed_next (governed_passTime h)
  · split
    · exact governed_next (governed_passTime h)
    · refine governed_next ?_
      unfold State.answerBadLength
      split <;> exact h.of_same rfl rfl rfl rfl
    · split
      · exact governed_next (governed_passTime h)
      · exact governed_exec h _

theorem governed_stepLink {s : State} (h : Governed s) : ResultGoverned s.stepLink := by
  have left : Governed s.lineFree := h.of_same rfl rfl rfl rfl
  unfold State.stepLink
  repeat' split
  · exact governed_next (governed_passTime left)
  · exact governed_takeFrame h
  · exact governed_next (governed_passTime h)

theorem governed_idle {s : State} (h : Governed s) : ResultGoverned s.idle := by
  unfold State.idle
  repeat' split
  · exact governed_next h
  · exact governed_next (governed_runTransfer (governed_transferWrite h _) ..).settle
  · exact governed_fault _
  · exact governed_stepLink h

theorem governed_step {s : State} (h : Governed s) : ResultGoverned (step s) := by
  unfold step
  split
  · exact governed_idle h
  · rename_i rest _
    have taken : Governed { s with pending := rest } := h.of_same rfl rfl rfl rfl
    exact governed_exec taken _

/-- Settles O10: every step keeps run control sound. -/
theorem stepKeepsRunSound : Obligations.StepKeepsRunSound := fun _ t sound next =>
  governed_iff.1 ((governed_step (governed_iff.2 sound)).next t next)

end Sys2Proof.RunSound
end

section
/-! PROOFS. Every overlay location that can be accessed keeps its physical page, so that no step stops: what a cycle, a command that moves bytes and a survey leave of
the locations (chapters 2, 3 and 8). -/

namespace Sys2Proof.MappedOverlay

open Sys2Proof Sys2Proof.Machine Sys2Proof.JobTable Sys2Proof.StepForms Sys2Proof.RunSound

/-! ### The invariant, apart -/

/-- Every overlay location that can still be accessed has a physical page, and while a survey runs there is none (R38, R42, R48, R52). -/
structure Reach (s : State) : Prop where
  windows : ∀ w ∈ s.windows.toList, w.enabled = true → w.kind.isOverlay = true → w.origin.getD 0 + (w.lastPage - w.firstPage) < s.overlay.capacity
  cycle : ∀ c, s.port.inFlight = some c → c.location.all s.overlay.maps = true
  overlay : ∀ c, s.port.inFlight = some c → c.location.isSome = true → c.route.isOverlay = true
  transfer : ∀ x, s.link.activity = .transfer x → ∀ b ∈ x.todo, b.location.all s.overlay.maps = true
  noWindow : s.overlay.survey ≠ .idle → ∀ w ∈ s.windows.toList, w.enabled = true → w.kind.isOverlay = false
  noCycle : s.overlay.survey ≠ .idle → ∀ c, s.port.inFlight = some c → c.route.isOverlay = false
  noTransfer : s.overlay.survey ≠ .idle → ∀ x, s.link.activity = .transfer x → ∀ b ∈ x.todo, b.location = none

theorem transferMapped_iff {s : State} : s.transferMapped = true ↔ ∀ x, s.link.activity = .transfer x → ∀ b ∈ x.todo, b.location.all s.overlay.maps = true := by
  unfold State.transferMapped
  split <;> rename_i activity <;> simp [activity]

theorem transferOverlay_iff {s : State} : s.transferOverlay = false ↔ ∀ x, s.link.activity = .transfer x → ∀ b ∈ x.todo, b.location = none := by
  unfold State.transferOverlay
  split <;> rename_i activity <;> simp [activity]

theorem windowsMapped_iff {s : State} : s.windowsMapped = true ↔
    ∀ w ∈ s.windows.toList, w.enabled = true → w.kind.isOverlay = true → w.origin.getD 0 + (w.lastPage - w.firstPage) < s.overlay.capacity := by
  unfold State.windowsMapped
  rw [List.all_eq_true]
  refine forall₂_congr fun w _ => ?_
  cases w.enabled <;> cases w.kind.isOverlay <;> simp

theorem windowsLive_iff {s : State} : s.windowsLive = false ↔
    (∀ w ∈ s.windows.toList, w.enabled = true → w.kind.isOverlay = false) ∧ ∀ c, s.port.inFlight = some c → c.route.isOverlay = false := by
  unfold State.windowsLive
  rw [Bool.or_eq_false_iff, List.any_eq_false]
  refine and_congr (forall₂_congr fun w _ => ?_) ?_
  · cases w.enabled <;> simp
  · cases s.port.inFlight <;> simp

theorem cycleMapped_iff {s : State} : s.cycleMapped = true ↔ ∀ c, s.port.inFlight = some c → c.location.all s.overlay.maps = true := by
  unfold State.cycleMapped
  cases s.port.inFlight <;> simp

theorem reach_iff {s : State} : Reach s ↔ s.overlayReachable := by
  rw [State.overlayReachable, windowsMapped_iff, cycleMapped_iff, transferMapped_iff, windowsLive_iff, transferOverlay_iff]
  constructor
  · rintro ⟨windows, cycle, overlay, transfer, noWindow, noCycle, noTransfer⟩
    exact ⟨windows, cycle, transfer, overlay, fun runs => ⟨⟨noWindow runs, noCycle runs⟩, noTransfer runs⟩⟩
  · rintro ⟨windows, cycle, transfer, overlay, survey⟩
    exact ⟨windows, cycle, overlay, transfer, fun runs => (survey runs).1.1, fun runs => (survey runs).1.2, fun runs => (survey runs).2⟩

/-! ### What leaves no new location -/

/-- The bytes of a command in progress are among those of before. -/
def Fewer (s t : State) : Prop := ∀ x, t.link.activity = .transfer x → ∃ y, s.link.activity = .transfer y ∧ ∀ b ∈ x.todo, b ∈ y.todo

theorem Fewer.trans {s t u : State} (h : Fewer s t) (k : Fewer t u) : Fewer s u := fun x hx => by
  obtain ⟨y, hy, sub⟩ := k x hx
  obtain ⟨z, hz, sub'⟩ := h y hy
  exact ⟨z, hz, fun b hb => sub' b (sub b hb)⟩

theorem fewer_of_activity {s t : State} (h : t.link.activity = s.link.activity ∨ t.link.activity = .sending) : Fewer s t := fun x hx => by
  rcases h with same | sending
  · exact ⟨x, same ▸ hx, fun _ hb => hb⟩
  · rw [sending] at hx
    cases hx

/-- Nothing that can be accessed is new, but for a cycle with the location and the route of `o`. -/
structure Goes (o : Option Cycle) (s t : State) : Prop where
  windows : t.windows = s.windows
  repairList : t.overlay.repairList = s.overlay.repairList
  survey : t.overlay.survey = s.overlay.survey ∨ t.overlay.survey = .idle
  cycle : ∀ d, t.port.inFlight = some d → ∃ c, (s.port.inFlight = some c ∨ o = some c) ∧ d.location = c.location ∧ d.route = c.route
  transfer : Fewer s t

theorem Goes.refl (s : State) : Goes none s s := ⟨rfl, rfl, .inl rfl, fun d h => ⟨d, .inl h, rfl, rfl⟩, fun x h => ⟨x, h, fun _ hb => hb⟩⟩

theorem Goes.trans {o : Option Cycle} {s t u : State} (h : Goes o s t) (k : Goes none t u) : Goes o s u where
  windows := k.windows.trans h.windows
  repairList := k.repairList.trans h.repairList
  survey := by
    rcases k.survey with same | idle
    · rw [same]; exact h.survey
    · exact .inr idle
  cycle := fun d hd => by
    obtain ⟨c, hc, location, route⟩ := k.cycle d hd
    obtain ⟨b, hb, location', route'⟩ := h.cycle c (hc.resolve_right (by simp))
    exact ⟨b, hb, location.trans location', route.trans route'⟩
  transfer := h.transfer.trans k.transfer

theorem maps_of_repairList {s t : State} (h : t.overlay.repairList = s.overlay.repairList) : t.overlay.maps = s.overlay.maps := by
  funext l
  simp [Overlay.maps, Overlay.capacity, h]

theorem capacity_of_repairList {s t : State} (h : t.overlay.repairList = s.overlay.repairList) : t.overlay.capacity = s.overlay.capacity := by
  simp only [Overlay.capacity, h]

/-- A new cycle has an overlay location on an overlay route alone, its page has a physical page, and while a survey runs it has none (R38, R48, R52). -/
structure Fits (s : State) (c : Cycle) : Prop where
  mapped : c.location.all s.overlay.maps = true
  overlay : c.location.isSome = true → c.route.isOverlay = true
  noSurvey : s.overlay.survey ≠ .idle → c.route.isOverlay = false

/-- The cycle in flight fits. -/
theorem Reach.fits {s : State} (h : Reach s) {c : Cycle} (inFlight : s.port.inFlight = some c) : Fits s c :=
  ⟨h.cycle c inFlight, h.overlay c inFlight, fun runs => h.noCycle runs c inFlight⟩

theorem Reach.goes {o : Option Cycle} {s t : State} (h : Reach s) (g : Goes o s t) (fits : ∀ c, o = some c → Fits s c) : Reach t := by
  have runs : t.overlay.survey ≠ .idle → s.overlay.survey ≠ .idle := fun notIdle => (g.survey.resolve_right notIdle) ▸ notIdle
  have old : ∀ d, t.port.inFlight = some d → ∃ c, Fits s c ∧ d.location = c.location ∧ d.route = c.route := fun d hd => by
    obtain ⟨c, hc, location, route⟩ := g.cycle d hd
    exact ⟨c, hc.elim h.fits (fits c), location, route⟩
  refine ⟨?_, fun d hd => ?_, fun d hd => ?_, fun x hx b hb => ?_, fun notIdle => ?_, fun notIdle d hd => ?_, fun notIdle x hx b hb => ?_⟩
  · rw [g.windows, capacity_of_repairList g.repairList]
    exact h.windows
  · obtain ⟨c, fits, location, -⟩ := old d hd
    rw [location, maps_of_repairList g.repairList]
    exact fits.mapped
  · obtain ⟨c, fits, location, route⟩ := old d hd
    rw [location, route]
    exact fits.overlay
  · obtain ⟨y, hy, sub⟩ := g.transfer x hx
    rw [maps_of_repairList g.repairList]
    exact h.transfer y hy b (sub b hb)
  · rw [g.windows]
    exact h.noWindow (runs notIdle)
  · obtain ⟨c, fits, -, route⟩ := old d hd
    rw [route]
    exact fits.noSurvey (runs notIdle)
  · obtain ⟨y, hy, sub⟩ := g.transfer x hx
    exact h.noTransfer (runs notIdle) y hy b (sub b hb)

theorem Reach.stays {s t : State} (h : Reach s) (g : Goes none s t) : Reach t := h.goes g fun _ some => nomatch some

/-- An update outside the windows, overlay memory, the cycle in flight and the activity of the link. -/
theorem Goes.of_same {s t : State} (windows : t.windows = s.windows) (overlay : t.overlay = s.overlay) (inFlight : t.port.inFlight = s.port.inFlight)
    (activity : t.link.activity = s.link.activity) : Goes none s t :=
  ⟨windows, by rw [overlay], by rw [overlay]; exact .inl rfl, fun d h => ⟨d, .inl (inFlight ▸ h), rfl, rfl⟩, fewer_of_activity (.inl activity)⟩

/-- The engine's work: the locations of a command in progress become fewer at most. -/
theorem Goes.of_engine {s t : State} (h : s.engineOnly t) (fewer : Fewer s t) : Goes none s t := by
  obtain ⟨⟨windows, -, overlay, -⟩, port, -, -⟩ := h
  exact ⟨windows, by rw [overlay], by rw [overlay]; exact .inl rfl, fun d hd => ⟨d, .inl (port ▸ hd), rfl, rfl⟩, fewer⟩

/-! ### The course of a cycle -/

/-- The cycle in flight stays or is gone; the link keeps its activity or has a response on the line. -/
structure Steady (s t : State) : Prop where
  inFlight : t.port.inFlight = s.port.inFlight ∨ t.port.inFlight = none
  activity : t.link.activity = s.link.activity ∨ t.link.activity = .sending

theorem Steady.refl (s : State) : Steady s s := ⟨.inl rfl, .inl rfl⟩

theorem Steady.trans {s t u : State} (h : Steady s t) (k : Steady t u) : Steady s u where
  inFlight := k.inFlight.elim (fun same => same ▸ h.inFlight) .inr
  activity := k.activity.elim (fun same => same ▸ h.activity) .inr

theorem steady_of_same {s t : State} (port : t.port = s.port) (activity : t.link.activity = s.link.activity) : Steady s t :=
  ⟨.inl (by rw [port]), .inl activity⟩

theorem Goes.of_steady {s t : State} (h : s.cycleKeeps t) (k : Steady s t) : Goes none s t where
  windows := h.windows
  repairList := h.repairList
  survey := .inl h.survey
  cycle := fun d hd => by
    rcases k.inFlight with same | none
    · exact ⟨d, .inl (same ▸ hd), rfl, rfl⟩
    · rw [none] at hd
      cases hd
  transfer := fewer_of_activity k.activity

theorem steady_latch (n : Notice) (s : State) : Steady s (s.latch n) := steady_of_same rfl rfl
theorem steady_respond (x : Status) (k : Byte) (a : Answer) (s : State) : Steady s (s.respond x k a) := ⟨.inl rfl, .inr rfl⟩
theorem steady_setHold (h : HoldState) (s : State) : Steady s (s.setHold h) := steady_of_same rfl rfl
theorem steady_enterClaim (r : Raise) (s : State) : Steady s (s.enterClaim r) := steady_of_same rfl rfl
theorem steady_clearCycle (s : State) : Steady s s.clearCycle := ⟨.inr rfl, .inl rfl⟩
theorem steady_offer (b : RecordBody) (sent : Bool) (stamp : Stamp) (s : State) : Steady s (s.offer b sent stamp) := steady_of_same (by simp) (by simp)
theorem steady_mark (b : RecordBody) (s : State) : Steady s (s.mark b) := steady_offer ..

theorem steady_of_traceOnly {s t : State} (h : s.traceOnly t) : Steady s t := by
  rw [h]
  exact steady_of_same rfl rfl

theorem steady_recordCycle (c : Cycle) (abandoned : Bool) (s : State) : Steady s (s.recordCycle c abandoned).1 := by
  unfold State.recordCycle
  dsimp only
  split
  · exact (steady_offer ..).trans (steady_of_traceOnly (traceStop_traceOnly _))
  · exact steady_offer ..

theorem steady_driveData (c : Cycle) (data : Byte) (s : State) : Steady s (s.driveData c data) := by
  unfold State.driveData
  split
  · exact .refl s
  · exact ⟨.inl rfl, .inl rfl⟩

theorem steady_answerInjected (c : Cycle) (abandoned : Bool) (d : Delivery) (s : State) : Steady s (s.answerInjected c abandoned d) := by
  unfold State.answerInjected State.answerInject
  repeat' split
  all_goals first | with_reducible exact .refl s | with_reducible exact steady_respond ..

theorem steady_armOrMiss (s : State) : Steady s s.armOrMiss := by
  unfold State.armOrMiss
  split
  · exact steady_setHold ..
  · exact steady_latch ..

theorem steady_actOnClaim (source : Source) (s : State) : Steady s (s.actOnClaim source) := by
  unfold State.actOnClaim
  repeat' split
  all_goals first
    | with_reducible exact .refl s
    | with_reducible exact steady_armOrMiss s
    | with_reducible exact steady_setHold ..

theorem steady_fireAtDelivery (i : Fin 4) (a : Actions) (address : Nat) (p : Evaluation × State) : Steady p.2 (fireAtDelivery i a address p).2 := by
  obtain ⟨e, s⟩ := p
  have noted : ∀ t : State, Steady t (if a.note then t.latch .note else t) := fun t => by
    split
    · exact steady_latch ..
    · exact .refl t
  unfold fireAtDelivery
  dsimp only
  cases a.hold with
  | none => exact noted s
  | some level => exact ((steady_enterClaim ..).trans (steady_actOnClaim ..)).trans (noted _)

theorem steady_deliverUnit (data : Byte) (address : Nat) (p : Evaluation × State) (i : Fin 4) : Steady p.2 (deliverUnit data address p i).2 := by
  have units : ∀ u, Steady p.2 { p.2 with watch := u } := fun u => steady_of_same rfl rfl
  unfold deliverUnit
  dsimp only
  repeat' split
  · exact (units _).trans (steady_fireAtDelivery _ _ _ (_, _))
  · exact units _
  · exact units _
  · exact .refl _

theorem steady_readDataEvaluate (data : Byte) (address : Nat) (s : State) : Steady s (readDataEvaluate data address s).2 := by
  have fold : ∀ (l : List (Fin 4)) (p : Evaluation × State), Steady p.2 (l.foldl (deliverUnit data address) p).2 := by
    intro l
    induction l with
    | nil => exact fun p => .refl p.2
    | cons i rest ih => exact fun p => (steady_deliverUnit data address p i).trans (ih _)
  unfold readDataEvaluate
  dsimp only
  have folded := fold [0, 1, 2, 3] ({ matched := 0, fired := 0, raised := [], start := false, stop := false }, s)
  generalize List.foldl (deliverUnit data address) _ [0, 1, 2, 3] = p at folded ⊢
  have started : Steady s (if p.1.start then p.2.traceStart else p.2) := by
    split
    · exact folded.trans (steady_of_traceOnly (traceStart_traceOnly _))
    · exact folded
  generalize (if p.1.start then p.2.traceStart else p.2) = q at started ⊢
  split
  · exact started.trans (steady_of_traceOnly (traceStop_traceOnly _))
  · exact started

theorem steady_completeCycle (c : Cycle) (data : Byte) (s : State) : Steady s (s.completeCycle c data) := by
  unfold State.completeCycle
  dsimp only
  generalize (if c.isWrite then c else { c with readData := some data }) = d
  have ended : Steady s ((s.recordCycle d false).1.driveData d data).clearCycle :=
    ((steady_recordCycle ..).trans (steady_driveData ..)).trans (steady_clearCycle _)
  split
  · exact ended.trans (steady_answerInjected ..)
  · exact (ended.trans (steady_readDataEvaluate ..)).trans (steady_answerInjected ..)

theorem steady_abandonCycle (s : State) : Steady s s.abandonCycle := by
  unfold State.abandonCycle
  dsimp only
  repeat' split
  · exact .refl s
  · exact .refl s
  · rename_i c _ _
    have ended : Steady (s.recordCycle c true).1 (State.clearCycle { (s.recordCycle c true).1 with
        bus := { (s.recordCycle c true).1.bus with target := false }, watch := dropDecisions (s.recordCycle c true).1.watch }) := ⟨.inr rfl, .inl rfl⟩
    exact ((steady_recordCycle c true s).trans ended).trans (steady_answerInjected ..)

theorem steady_endHold (cause : EndCause) (s : State) : Steady s (s.endHold cause) := by
  unfold State.endHold
  dsimp only
  split
  · exact (steady_mark ..).trans (steady_of_same rfl rfl)
  · exact steady_of_same rfl rfl

theorem steady_cutOff (cause : EndCause) (dest : HoldState) (marker : RecordBody) (s : State) : Steady s (s.cutOff cause dest marker) := by
  have ended : Steady s (if s.run.hold = .holding then s.endHold cause else s) := by
    split
    · exact steady_endHold ..
    · exact .refl s
  unfold State.cutOff
  dsimp only
  generalize (if s.run.hold = .holding then s.endHold cause else s) = u at ended ⊢
  have cleared : Steady u { u with run := { u.run with hold := dest, claims := [], rehearsal := false } } := steady_of_same rfl rfl
  exact ((ended.trans cleared).trans (steady_abandonCycle _)).trans (steady_mark ..)

/-- The cycle has ended, or one with its location and route is in flight. -/
structure Performs (c : Cycle) (s t : State) : Prop where
  inFlight : ∀ d, t.port.inFlight = some d → d.location = c.location ∧ d.route = c.route
  activity : t.link.activity = s.link.activity ∨ t.link.activity = .sending

theorem Goes.of_performs {c : Cycle} {s t : State} (h : s.cycleKeeps t) (k : Performs c s t) : Goes (some c) s t where
  windows := h.windows
  repairList := h.repairList
  survey := .inl h.survey
  cycle := fun d hd => ⟨c, .inr rfl, k.inFlight d hd⟩
  transfer := fewer_of_activity k.activity

theorem Performs.after {c : Cycle} {s t u : State} (h : Steady s t) (k : Performs c t u) : Performs c s u :=
  ⟨k.inFlight, k.activity.elim (fun same => same ▸ h.activity) .inr⟩

theorem completeCycle_inFlight (c : Cycle) (data : Byte) (s : State) : (s.completeCycle c data).port.inFlight = none := by
  unfold State.completeCycle
  dsimp only
  generalize (if c.isWrite then c else { c with readData := some data }) = d
  split
  · exact (quiet_answerInjected ..).inFlight
  · refine (quiet_answerInjected ..).inFlight.trans ?_
    exact (steady_readDataEvaluate ..).inFlight.elim (fun same => same) id

theorem performs_completeCycle (c d : Cycle) (data : Byte) (s : State) : Performs c s (s.completeCycle d data) :=
  ⟨fun e he => (by rw [completeCycle_inFlight] at he; cases he), (steady_completeCycle ..).activity⟩

theorem arbitrate_aside (s : State) : s.arbitrate.port = s.port ∧ s.arbitrate.link = s.link := by
  rcases arbitrate_cases s with same | ⟨b, same, -⟩ <;> rw [same] <;> exact ⟨rfl, rfl⟩

theorem performs_performAtBoard (c : Cycle) (s : State) : Performs c s (s.performAtBoard c) := by
  obtain ⟨port, link⟩ := arbitrate_aside (State.requestTarget { s with port := { s.port with inFlight := some { c with phase := .performing } } })
  have asked : Performs c s (State.requestTarget { s with port := { s.port with inFlight := some { c with phase := .performing } } }).arbitrate := by
    refine ⟨fun d hd => ?_, .inl (by rw [link]; rfl)⟩
    rw [port] at hd
    cases hd
    exact ⟨rfl, rfl⟩
  unfold State.performAtBoard
  dsimp only
  split
  · exact asked
  · unfold State.stretchCycle
    split
    · exact asked
    · rename_i d inFlight
      split
      · exact asked
      · refine ⟨fun e he => ?_, asked.activity⟩
        cases he
        exact asked.inFlight d inFlight

theorem performs_performCycle (c : Cycle) (s : State) : Performs c s (s.performCycle c) := by
  have written : ∀ o, Steady s { s with overlay := o } := fun o => steady_of_same rfl rfl
  unfold State.performCycle
  dsimp only
  split
  all_goals first
    | with_reducible exact performs_performAtBoard c s
    | with_reducible exact performs_completeCycle c c _ s
    | exact (performs_completeCycle c c _ _).after (written _)
    | exact (performs_performAtBoard c _).after (written _)

theorem performs_holdCycle (c : Cycle) (s : State) : Performs c s (s.holdCycle c) := by
  have activity : (s.beginHold c.kind c.address).link.activity = s.link.activity := by
    unfold State.beginHold
    dsimp only
    split <;> simp [State.mark]
  refine ⟨fun d hd => ?_, .inl activity⟩
  cases hd
  exact ⟨rfl, rfl⟩

theorem performs_holdDecision (c : Cycle) (s : State) : Performs c s (s.holdDecision c) := by
  have decided : ∀ t : State, Performs c t (decideHold c t) := by
    intro t
    unfold decideHold
    repeat' split
    all_goals first
      | with_reducible exact performs_holdCycle c t
      | with_reducible exact performs_performCycle c t
      | exact (performs_performCycle c _).after (steady_latch ..)
  rw [holdDecision_eq]
  split
  · exact (decided _).after (steady_setHold ..)
  · exact decided s

/-- The evaluation of a presented cycle leaves its location and its route. -/
structure Evaluates (p q : Cycle × State) : Prop extends Steady p.2 q.2 where
  location : q.1.location = p.1.location
  route : q.1.route = p.1.route

theorem Evaluates.trans {p q r : Cycle × State} (h : Evaluates p q) (k : Evaluates q r) : Evaluates p r :=
  ⟨h.toSteady.trans k.toSteady, k.location.trans h.location, k.route.trans h.route⟩

theorem evaluates_guardWrite (level : Option Nat) (c : Cycle) (s : State) : Evaluates (c, s) (guardWrite level c s) := by
  unfold guardWrite
  dsimp only
  repeat' split
  · exact ⟨(steady_latch ..).trans (steady_enterClaim ..), rfl, rfl⟩
  · exact ⟨steady_latch .., rfl, rfl⟩
  · exact ⟨.refl s, rfl, rfl⟩

theorem evaluates_fireAtEvaluation (i : Fin 4) (a : Actions) (p : Cycle × State) : Evaluates p (fireAtEvaluation i a p) := by
  obtain ⟨c, s⟩ := p
  have acts : ∀ t : State, Steady t (if a.traceStart then (if a.note then t.latch .note else t).traceStart else if a.note then t.latch .note else t) := by
    intro t
    have noted : Steady t (if a.note then t.latch .note else t) := by
      split
      · exact steady_latch ..
      · exact .refl t
    generalize (if a.note then t.latch .note else t) = u at noted ⊢
    split
    · exact noted.trans (steady_of_traceOnly (traceStart_traceOnly _))
    · exact noted
  unfold fireAtEvaluation
  dsimp only
  cases a.hold with
  | none => exact ⟨acts s, rfl, rfl⟩
  | some level => exact ⟨(steady_enterClaim ..).trans (acts _), rfl, rfl⟩

theorem evaluates_evaluateUnit (before : Vector WatchUnit 4) (p : Cycle × State) (i : Fin 4) : Evaluates p (evaluateUnit before p i) := by
  have units : ∀ (m : BitVec 4) u, Evaluates p ({ p.1 with matched := m }, { p.2 with watch := u }) := fun m u => ⟨steady_of_same rfl rfl, rfl, rfl⟩
  unfold evaluateUnit
  dsimp only
  repeat' split
  · exact ⟨.refl _, rfl, rfl⟩
  · exact units p.1.matched _
  · exact (units ..).trans (evaluates_fireAtEvaluation ..)
  · exact units ..

theorem evaluates_watchEvaluate (c : Cycle) (s : State) : Evaluates (c, s) (watchEvaluate c s) := by
  have fold : ∀ (l : List (Fin 4)) (p : Cycle × State), Evaluates p (l.foldl (evaluateUnit s.watch) p) := by
    intro l
    induction l with
    | nil => exact fun p => ⟨.refl _, rfl, rfl⟩
    | cons i rest ih => exact fun p => (evaluates_evaluateUnit s.watch p i).trans (ih _)
  exact fold [0, 1, 2, 3] (c, s)

theorem performs_presentCycle (c : Cycle) (s : State) : Performs c s (s.presentCycle c) := by
  have contends : Steady s (if c.contention then s.latch .contention else s) := by
    split
    · exact steady_latch ..
    · exact .refl s
  unfold State.presentCycle
  dsimp only
  generalize (if c.contention then s.latch .contention else s) = u at contends ⊢
  have guarded := evaluates_guardWrite (resolve u.windows c.address c.lane).guardLevel c u
  generalize guardWrite (resolve u.windows c.address c.lane).guardLevel c u = g at guarded ⊢
  have watched := guarded.trans (evaluates_watchEvaluate g.1 g.2)
  generalize watchEvaluate g.1 g.2 = p at watched ⊢
  have decided := (performs_holdDecision p.1 p.2).after (contends.trans watched.toSteady)
  refine ⟨fun d hd => ?_, decided.activity⟩
  obtain ⟨location, route⟩ := decided.inFlight d hd
  exact ⟨location.trans watched.location, route.trans watched.route⟩

/-- A cycle that goes on is one that was in flight. -/
theorem goes_of_performs {c : Cycle} {s t u : State} (h : Goes none s t) (inFlight : t.port.inFlight = some c) (keeps : t.cycleKeeps u) (k : Performs c t u) :
    Goes none s u :=
  h.trans ⟨keeps.windows, keeps.repairList, .inl keeps.survey, fun d hd => ⟨c, .inl inFlight, k.inFlight d hd⟩, fewer_of_activity k.activity⟩

theorem goes_proceedHeld (s : State) : Goes none s s.proceedHeld := by
  unfold State.proceedHeld
  split
  · rename_i inFlight
    exact goes_of_performs (.refl s) inFlight (performCycle_cycleKeeps ..) (performs_performCycle ..)
  · exact .refl s

theorem goes_substituteHeld (byte : Byte) (s : State) : Goes none s (s.substituteHeld byte) := by
  unfold State.substituteHeld
  split
  · exact .of_steady (completeCycle_cycleKeeps ..) (steady_completeCycle ..)
  · exact .refl s

theorem goes_endHold (cause : EndCause) (s : State) : Goes none s (s.endHold cause) := .of_steady (endHold_cycleKeeps ..) (steady_endHold ..)

theorem goes_setHold (h : HoldState) (s : State) : Goes none s (s.setHold h) := .of_same rfl rfl rfl rfl

theorem goes_endHoldByFloor (s : State) : Goes none s s.endHoldByFloor := ((goes_endHold ..).trans (goes_setHold ..)).trans (goes_proceedHeld _)

theorem goes_raiseClaim (r : Raise) (s : State) : Goes none s (s.raiseClaim r) := by
  have entered : Goes none s (s.enterClaim r) := .of_same rfl rfl rfl rfl
  unfold State.raiseClaim
  dsimp only
  split
  · exact entered.trans (goes_endHoldByFloor _)
  · exact entered.trans (.of_steady (actOnClaim_cycleKeeps ..) (steady_actOnClaim ..))

theorem goes_cutOff (cause : EndCause) (dest : HoldState) (marker : RecordBody) (s : State) : Goes none s (s.cutOff cause dest marker) :=
  .of_steady (cutOff_cycleKeeps ..) (steady_cutOff ..)

theorem goes_latch (n : Notice) (s : State) : Goes none s (s.latch n) := .of_same rfl rfl rfl rfl

theorem goes_mark (b : RecordBody) (s : State) : Goes none s (s.mark b) := .of_steady (mark_cycleKeeps ..) (steady_mark ..)

theorem goes_respond (x : Status) (k : Byte) (a : Answer) (s : State) : Goes none s (s.respond x k a) := .of_steady (respond_cycleKeeps ..) (steady_respond ..)

/-- A command in progress that moves no bytes. -/
theorem goes_occupy {a : Activity} (still : ∀ x, a ≠ .transfer x) (s : State) : Goes none s (s.occupy a) :=
  ⟨rfl, rfl, .inl rfl, fun d hd => ⟨d, .inl hd, rfl, rfl⟩, fun x hx => absurd hx (still x)⟩

/-! ### The engine's work -/

theorem endJob_activity (j : Job) (c : Completion) (s : State) : (s.endJob j c).link.activity = s.link.activity := by
  unfold State.endJob State.unbind
  dsimp only
  split <;> rfl

theorem cancelFold_activity (l : List Job) (s : State) : (l.foldl (fun t j => t.cancel j) s).link.activity = s.link.activity := by
  induction l generalizing s with
  | nil => rfl
  | cons j l ih => exact (ih _).trans (endJob_activity ..)

theorem goes_endJob (j : Job) (c : Completion) (s : State) : Goes none s (s.endJob j c) :=
  .of_engine (endJob_engineOnly ..) (fewer_of_activity (.inl (endJob_activity ..)))

theorem goes_cancelAll (s : State) : Goes none s s.cancelAll := .of_engine (cancelAll_engineOnly s) (fewer_of_activity (.inl (cancelFold_activity ..)))

theorem work_activity {j : Job} {s t : State} (work : Work j s t) : t.link.activity = s.link.activity ∨ t.link.activity = .sending := by
  induction work with
  | rests s => exact .inl rfl
  | asks a l s => exact .inl rfl
  | awaits a s => exact .inl rfl
  | ends c s => exact .inl (endJob_activity ..)
  | aborts a s => exact .inr rfl
  | @owes lane b s _ _ ih => exact ih

theorem goes_work {j : Job} {s t : State} (work : Work j s t) : Goes none s t := .of_engine (work_engineOnly work) (fewer_of_activity (work_activity work))

theorem goes_engineAccessEnd (d : Byte) (s : State) : Goes none s (s.engineAccessEnd d) := by
  rcases work_engineAccessEnd d s with same | ⟨j, -, work⟩
  · rw [same]; exact .refl s
  · exact goes_work work

/-- A command cut short has fewer bytes to make (R145, R146). -/
theorem goes_cutTransfer (cut : TransferByte → Bool) (s : State) : Goes none s (s.cutTransfer cut) := by
  refine .of_engine (cutTransfer_engineOnly cut s) ?_
  unfold State.cutTransfer
  dsimp only
  split
  · rename_i t activity
    split
    · intro x hx
      cases hx
      refine ⟨t, activity, fun b hb => ?_⟩
      rcases List.mem_append.1 hb with hb | hb
      · exact List.mem_of_mem_take hb
      · exact List.mem_of_mem_drop ((List.takeWhile_sublist _).subset hb)
    · split
      · refine fewer_of_activity (.inr ?_)
        unfold State.finishTransfer
        split <;> rfl
      · intro x hx
        cases hx
        exact ⟨t, activity, fun b hb => (List.takeWhile_sublist _).subset hb⟩
  all_goals exact fewer_of_activity (.inl rfl)

theorem goes_judgeOnce (s : State) : Goes none s s.judgeOnce := by
  have changed : ∀ (n : Nat) (state : JobState), Goes none s (s.setJob n state) := fun _ _ => .of_same rfl rfl rfl rfl
  unfold State.judgeOnce
  split
  · exact .refl s
  · split
    · exact .refl s
    · rename_i j _
      split
      · obtain ⟨u, course, work⟩ := startJob_course j s
        refine Goes.trans ?_ (goes_work work)
        rcases course with rfl | ⟨cut, rfl⟩
        · exact changed ..
        · exact (changed ..).trans (goes_cutTransfer ..)
      · exact changed ..

theorem goes_judgeTimes (n : Nat) (s : State) : Goes none s (s.judgeTimes n) := by
  induction n generalizing s with
  | zero => exact .refl s
  | succ n ih => exact (goes_judgeOnce s).trans (ih _)

theorem goes_settleAbort (s : State) : Goes none s s.settleAbort := by
  unfold State.settleAbort
  split
  · exact .refl s
  · rename_i j _
    split
    · rename_i a _
      split
      · have withdrawn : Goes none s { s with bus := { s.bus with engine := none } } := .of_same rfl rfl rfl rfl
        exact withdrawn.trans (goes_work (.owes j.lane true (.aborts a _)))
      · exact .refl s
    · exact .refl s

theorem goes_arbitrate (s : State) : Goes none s s.arbitrate := by
  obtain ⟨port, link⟩ := arbitrate_aside s
  exact .of_steady (arbitrate_cycleKeeps s) (steady_of_same port (by rw [link]))

/-- The judgement of the start rule, a waiting abort and the arbiter's choice leave no new location. -/
theorem goes_settle (s : State) : Goes none s s.settle := ((goes_judgeTimes _ s).trans (goes_settleAbort _)).trans (goes_arbitrate _)

theorem Goes.settled {o : Option Cycle} {s t : State} (h : Goes o s t) : Goes o s t.settle := h.trans (goes_settle t)

theorem goes_jobPowerLost (s : State) : Goes none s s.jobPowerLost := by
  unfold State.jobPowerLost
  split
  · exact .refl s
  · split
    · exact .refl s
    · dsimp only
      split
      · exact ((goes_endJob ..).trans (goes_cancelAll _)).trans (goes_respond ..)
      · exact goes_endJob ..

end Sys2Proof.MappedOverlay
end

section
/-! PROOFS. No step stops while every reachable overlay location is mapped: the rows of the table, one lemma each, and the step (chapters 2, 3 and 8). -/

namespace Sys2Proof.MappedOverlay

open Sys2Proof Sys2Proof.Machine Sys2Proof.JobTable Sys2Proof.StepForms Sys2Proof.RunSound

/-! ### Results -/

/-- The result is a next state with every reachable location mapped. -/
structure ResultReach (r : Result) : Prop where
  next : ∃ t, r = .next t ∧ Reach t

theorem reach_next {t : State} (h : Reach t) : ResultReach (.next t) := ⟨t, rfl, h⟩

theorem reach_respond {s : State} (h : Reach s) (x : Status) (k : Byte) (a : Answer) : Reach (s.respond x k a) := h.stays (goes_respond ..)

theorem reach_accept {t : State} (h : Reach t) (c : Instr) (a : Answer) : ResultReach (t.accept c a) := reach_next (reach_respond h ..)

theorem reach_reject {t : State} (h : Reach t) (c : Instr) (status : Status) : ResultReach (t.reject c status) := reach_next (reach_respond h ..)

theorem goes_taken {c : Instr} {s t : State} (h : s.takesFrame c t) : Goes none s t ∧ t.link.activity = .idle := by
  obtain ⟨-, -, -, ⟨-, rfl⟩ | ⟨_, _, -, -, rfl⟩⟩ := h <;>
    exact ⟨⟨rfl, rfl, .inl rfl, fun d hd => ⟨d, .inl hd, rfl, rfl⟩, fun _ hx => nomatch hx⟩, rfl⟩

/-- A command whose action keeps every reachable location mapped and does not stop does so whatever becomes of its frame. -/
theorem reach_onTaken {c : Instr} {s : State} {act : State → Result} (h : Reach s)
    (acts : ∀ t, Reach t → t.link.activity = .idle → (t.overlay.survey = .powerOn → Instr.takenInSurvey c = true) → ResultReach (act t)) :
    ResultReach (s.onTaken c act) := by
  rcases onTaken_cases c s act with ⟨queue, r⟩ | ⟨t, taken, r⟩
  · rw [r]
    exact reach_next (h.stays (.of_same rfl rfl rfl rfl))
  · obtain ⟨goes, idle⟩ := goes_taken taken
    have reach := h.stays goes
    rcases r with r | ⟨admitted, r⟩
    · rw [r]
      exact reach_next (reach_respond reach ..)
    · rw [r]
      exact acts t reach idle (State.takesFrame_survey taken ▸ admitted)

/-! ### Resets, surveys and limits -/

theorem initial_disabled {w : Window} (h : w ∈ (Vector.replicate 16 Window.initial).toList) : w.enabled = false := by
  rw [Vector.toList_replicate] at h
  rw [List.eq_of_mem_replicate h]
  rfl

/-- After a reset no record is enabled, no cycle is in flight and no command moves bytes (R1, R25, R186). -/
theorem reach_afterReset (o : Overlay) (supply : Nat) (boardReset : Bool) (levels : Fin 4 → Bool) (freeIndex : Nat) (pending : List Instr) :
    Reach (State.afterReset o supply boardReset levels freeIndex pending) where
  windows := fun _ mem enabled => absurd ((initial_disabled mem).symm.trans enabled) Bool.false_ne_true
  cycle := fun _ h => nomatch h
  overlay := fun _ h => nomatch h
  transfer := fun _ h => nomatch h
  noWindow := fun _ _ mem enabled => absurd ((initial_disabled mem).symm.trans enabled) Bool.false_ne_true
  noCycle := fun _ _ h => nomatch h
  noTransfer := fun _ _ h => nomatch h

theorem reach_partReset (s : State) : Reach s.partReset := by
  unfold State.partReset
  exact reach_afterReset ..

theorem goes_stopSurvey (s : State) : Goes none s s.stopSurvey := by
  unfold State.stopSurvey
  split
  · exact ⟨rfl, rfl, .inr rfl, fun d hd => ⟨d, .inl hd, rfl, rfl⟩, fewer_of_activity (.inl rfl)⟩
  · exact .refl s

theorem goes_transferWrite (b : TransferByte) (s : State) : Goes none s (s.transferWrite b) := by
  refine .of_steady (transferWrite_cycleKeeps b s) ?_
  unfold State.transferWrite
  split <;> exact steady_of_same rfl rfl

theorem goes_finishGranted (s : State) : Goes none s s.finishGranted := by
  unfold State.finishGranted
  split
  · split
    · exact goes_transferWrite ..
    · exact .refl s
  · exact .refl s

theorem goes_holdInReset (s : State) : Goes none s s.holdInReset := by
  refine ((goes_stopSurvey s).trans (goes_finishGranted _)).trans ?_
  exact ⟨rfl, rfl, .inl rfl, fun d hd => ⟨d, .inl hd, rfl, rfl⟩, fun _ hx => nomatch hx⟩

theorem reach_endReset {s : State} (h : Reach s) : Reach s.endReset := by
  unfold State.endReset
  split
  · exact reach_partReset s
  · exact h.stays (.of_same rfl rfl rfl rfl)

theorem goes_freeBus (s : State) : Goes none s s.freeBus := .of_same rfl rfl rfl rfl

theorem reach_heldAccessEnd {s : State} (h : Reach s) : Reach s.heldAccessEnd := by
  unfold State.heldAccessEnd
  split
  · exact h
  · split
    · exact reach_partReset _
    · exact h.stays (goes_freeBus s)

/-- While a survey ran nothing reached overlay memory, so its new list leaves nothing unmapped (R52). -/
theorem reach_surveyEnds {s : State} (h : Reach s) (runs : s.overlay.survey ≠ .idle) (readBacks : List ReadBack) : Reach (s.surveyEnds readBacks) where
  windows := fun w mem enabled overlay => absurd ((h.noWindow runs w mem enabled).symm.trans overlay) Bool.false_ne_true
  cycle := fun c inFlight => by
    have none : c.location = none := by
      by_contra some
      have overlay := h.overlay c inFlight (Option.isSome_iff_ne_none.2 some)
      rw [h.noCycle runs c inFlight] at overlay
      cases overlay
    simp [none]
  overlay := h.overlay
  transfer := fun x hx b hb => by simp [h.noTransfer runs x hx b hb]
  noWindow := fun idle => absurd rfl idle
  noCycle := fun idle => absurd rfl idle
  noTransfer := fun idle => absurd rfl idle

theorem goes_passUntil (since : Stamp) (limit : Nat) (s : State) : Goes none s (s.passUntil since limit) := by
  unfold State.passUntil
  split
  · exact .of_same rfl rfl rfl rfl
  · exact .refl s

theorem goes_expireHold (timer : HoldTimer) (s : State) : Goes none s (s.expireHold timer) :=
  (((goes_passUntil ..).trans (goes_cutOff ..)).trans (goes_latch ..)).settled

theorem goes_expireDue (s : State) : Goes none s s.expireDue := by
  unfold State.expireDue
  split
  · split
    · exact goes_expireHold ..
    · exact .refl s
  · exact .refl s

theorem goes_pollExpire (s : State) : Goes none s s.pollExpire := by
  unfold State.pollExpire
  split
  · split
    · exact (goes_work (work_timeOut ..)).settled
    · exact .refl s
  · exact .refl s

theorem goes_endReception (f : Frame) (s : State) : Goes none s (s.endReception f) := by
  unfold State.endReception
  split
  · exact .of_same rfl rfl rfl rfl
  · exact .refl s

theorem goes_dropLate (told : Option Byte) (s : State) : Goes none s (s.dropLate told) := by
  unfold State.dropLate
  split
  · exact (goes_passUntil ..).trans (goes_endReception ..)
  · exact .refl s

theorem goes_dropDue (s : State) : Goes none s s.dropDue := by
  unfold State.dropDue
  split
  · exact goes_dropLate ..
  · exact .refl s

theorem goes_takeDue (s : State) : Goes none s s.takeDue := ((goes_expireDue s).trans (goes_pollExpire _)).trans (goes_dropDue _)

theorem goes_passTime (s : State) : Goes none s s.passTime := (Goes.of_same (s := s) (t := s.tick) rfl rfl rfl rfl).trans (goes_takeDue s.tick)

/-! ### Resolution -/

/-- What the governing record is: enabled, its span holding the page (R26, R27). -/
theorem governing_spec {ws : Vector Window 16} {page : Nat} {lane : Lane} {i : Fin 16} (h : governing ws page lane = some i) :
    ws[i] ∈ ws.toList ∧ ws[i].enabled = true ∧ ws[i].firstPage ≤ page ∧ page ≤ ws[i].lastPage := by
  have covers := List.find?_some h
  simp only [Window.covers, Bool.and_eq_true, decide_eq_true_eq] at covers
  obtain ⟨⟨⟨enabled, first⟩, last⟩, -⟩ := covers
  exact ⟨Vector.mem_toList_iff.2 (Vector.getElem_mem _), enabled, first, last⟩

/-- What resolution gives fits: its overlay location lies in a mapped window, and an overlay route needs an enabled record of an overlay kind (R30, R38, R52). -/
theorem resolve_fits {s : State} (h : Reach s) (address : Nat) (lane : Lane) :
    (resolve s.windows address lane).location.all s.overlay.maps = true ∧
    ((resolve s.windows address lane).location.isSome = true → (resolve s.windows address lane).route.isOverlay = true) ∧
    (s.overlay.survey ≠ .idle → (resolve s.windows address lane).route.isOverlay = false) := by
  unfold resolve
  split
  · exact ⟨rfl, Bool.noConfusion, fun _ => rfl⟩
  · rename_i i governs
    obtain ⟨mem, enabled, first, last⟩ := governing_spec governs
    refine ⟨?_, fun some => ?_, fun runs => h.noWindow runs _ mem enabled⟩
    · dsimp only
      split
      · rename_i overlay
        have room := h.windows _ mem enabled overlay
        simp only [Option.all_some, Overlay.maps, decide_eq_true_eq]
        omega
      · rfl
    · dsimp only at some
      split at some
      · assumption
      · cases some

theorem fits_present {s : State} (h : Reach s) (address : Nat) (lane : Lane) (kind : Kind) (data : Option Byte) (contention injected : Bool) :
    Fits s (s.present address lane kind data contention injected) := by
  obtain ⟨mapped, overlay, noSurvey⟩ := resolve_fits h address lane
  exact ⟨mapped, overlay, noSurvey⟩

theorem reach_presentCycle {s : State} (h : Reach s) {c : Cycle} (fits : Fits s c) : Reach (s.presentCycle c) :=
  h.goes (.of_performs (presentCycle_cycleKeeps c s) (performs_presentCycle c s)) fun _ same => (Option.some.inj same) ▸ fits

/-! ### Commands that move bytes -/

/-- The bytes that a command still has to make are among those it began with. -/
theorem runTransfer_todo {bytes : List TransferByte} {t x : Transfer} {s : State} (h : (s.runTransfer bytes t).link.activity = .transfer x) :
    ∀ b ∈ x.todo, b ∈ bytes := by
  induction bytes generalizing t s with
  | nil =>
    unfold State.runTransfer State.finishTransfer at h
    split at h <;> cases h
  | cons b rest ih =>
    unfold State.runTransfer at h
    split at h
    · cases h
      exact fun _ hb => hb
    · split at h
      · cases h
        exact fun _ hb => hb
      · exact fun c hc => List.mem_cons_of_mem _ (ih h c hc)

theorem reach_runTransfer {s : State} (h : Reach s) {bytes : List TransferByte} (mapped : ∀ b ∈ bytes, b.location.all s.overlay.maps = true)
    (noSurvey : s.overlay.survey ≠ .idle → ∀ b ∈ bytes, b.location = none) (t : Transfer) : Reach (s.runTransfer bytes t) := by
  have keeps := runTransfer_cycleKeeps bytes t s
  obtain ⟨-, port, -, -, -⟩ := runTransfer_aside bytes t s
  have maps := maps_of_repairList keeps.repairList
  refine ⟨?_, ?_, ?_, fun x hx b hb => ?_, ?_, ?_, fun runs x hx b hb => ?_⟩
  · rw [keeps.windows, capacity_of_repairList keeps.repairList]; exact h.windows
  · rw [port, maps]; exact h.cycle
  · rw [port]; exact h.overlay
  · rw [maps]; exact mapped b (runTransfer_todo hx b hb)
  · rw [keeps.survey, keeps.windows]; exact h.noWindow
  · rw [keeps.survey, port]; exact h.noCycle
  · exact noSurvey (keeps.survey ▸ runs) b (runTransfer_todo hx b hb)

/-- A command in progress goes on with the bytes behind the one that is made. -/
theorem reach_nextBytes {s : State} (h : Reach s) {t : Transfer} (activity : s.link.activity = .transfer t) {b : TransferByte} {rest : List TransferByte}
    (todo : t.todo = b :: rest) (u : Transfer) : Reach ((s.transferWrite b).runTransfer rest u) := by
  have keeps := transferWrite_cycleKeeps b s
  have behind : ∀ c ∈ rest, c ∈ t.todo := fun c hc => todo ▸ List.mem_cons_of_mem _ hc
  refine reach_runTransfer (h.stays (goes_transferWrite b s)) (fun c hc => ?_) (fun runs c hc => ?_) u
  · rw [maps_of_repairList keeps.repairList]
    exact h.transfer t activity c (behind c hc)
  · exact h.noTransfer (keeps.survey ▸ runs) t activity c (behind c hc)

theorem goes_finishTransfer (t : Transfer) (s : State) : Goes none s (s.finishTransfer t) := by
  refine .of_engine (finishTransfer_engineOnly t s) (fewer_of_activity (.inr ?_))
  unfold State.finishTransfer
  split <;> rfl

theorem reach_transferAccessEnd {s : State} (h : Reach s) (data : Byte) : Reach (s.transferAccessEnd data) := by
  unfold State.transferAccessEnd
  split
  · rename_i t activity
    split
    · rename_i b rest todo
      exact reach_nextBytes h activity todo _
    · exact h.stays (goes_finishTransfer ..)
  all_goals exact h

/-- The bytes of a PEEK or POKE: a location comes from resolution alone (R43, R143). -/
theorem transferBytes_mem {ws : Vector Window 16} {view : Bool} {lane : Lane} {l : List (Option Byte)} {address : Nat} {b : TransferByte}
    (h : b ∈ transferBytes ws view lane address l) :
    b.location = none ∨ view = true ∧ ∃ a, b.location = (resolve ws a lane).location ∧ b.route = (resolve ws a lane).route := by
  induction l generalizing address with
  | nil => cases h
  | cons w rest ih =>
    rcases List.mem_cons.1 h with rfl | h
    · unfold transferByte
      split
      · rename_i view
        exact .inr ⟨view, address, rfl, rfl⟩
      · exact .inl rfl
    · exact ih h

/-- A PEEK or POKE past the checks of its fields finds every location mapped; during a commanded survey it has none, or is refused (R144). -/
theorem reach_startTransfer {s : State} (h : Reach s) (c : Instr) (form : TransferForm) (bytewise view : Bool) (lane : Lane) (address : Nat) (l : List (Option Byte)) :
    ResultReach (s.startTransfer c form bytewise view (transferBytes s.windows view lane address l)) := by
  have mapped : ∀ b ∈ transferBytes s.windows view lane address l, b.location.all s.overlay.maps = true := fun b mem => by
    rcases transferBytes_mem mem with none | ⟨-, a, location, -⟩
    · simp [none]
    · rw [location]; exact (resolve_fits h a lane).1
  unfold State.startTransfer
  split
  · exact reach_reject h ..
  · rw [if_pos (List.all_eq_true.2 mapped)]
    refine reach_next ((reach_runTransfer h mapped (fun runs b mem => ?_) _).stays (goes_settle _))
    rcases transferBytes_mem mem with none | ⟨viewed, a, location, route⟩
    · exact none
    · by_contra some
      have overlay : b.route.isOverlay = true := by
        rw [route]
        exact (resolve_fits h a lane).2.1 (by rw [← location]; exact Option.isSome_iff_ne_none.2 some)
      rw [route, (resolve_fits h a lane).2.2 runs] at overlay
      cases overlay

theorem overlayBytes_mem {page offset : Nat} {l : List (Option Byte)} {b : TransferByte} (h : b ∈ overlayBytes page offset l) :
    ∃ o, b.location = some { page := page, offset := o } := by
  induction l generalizing offset with
  | nil => cases h
  | cons w rest ih =>
    rcases List.mem_cons.1 h with rfl | h
    · exact ⟨offset, rfl⟩
    · exact ih h

theorem reach_startOverlay {s : State} (h : Reach s) (form : TransferForm) (bytewise : Bool) {page : Nat} (room : page < s.overlay.capacity) (offset : Nat)
    (l : List (Option Byte)) (idle : s.overlay.survey = .idle) : ResultReach (s.startOverlay form bytewise (overlayBytes page offset l)) := by
  refine reach_next (reach_runTransfer h (fun b mem => ?_) (fun runs => absurd idle runs) _)
  obtain ⟨o, location⟩ := overlayBytes_mem mem
  simpa [location, Overlay.maps] using room

/-- No survey runs where neither does. -/
theorem survey_idle {s : State} (notPowerOn : s.overlay.survey ≠ .powerOn) (notCommanded : s.surveying = false) : s.overlay.survey = .idle := by
  unfold State.surveying at notCommanded
  cases survey : s.overlay.survey <;> simp_all

/-! ### Events of the board -/

theorem reach_cyclePresented {s : State} (h : Reach s) (address : BitVec 20) (write : Option Byte) (fetch : Bool) (selects : BitVec 4) :
    ResultReach (execCyclePresented address write fetch selects s) := by
  have fits : Fits s (s.targetCycle address write fetch selects) := fits_present h ..
  unfold execCyclePresented
  split
  · dsimp only
    rw [if_pos fits.mapped]
    exact reach_next ((reach_presentCycle h fits).stays (goes_settle _))
  · exact reach_next h

theorem goes_targetAccessEnd (data : Byte) (s : State) : Goes none s (s.targetAccessEnd data) := by
  unfold State.targetAccessEnd
  split
  · exact (goes_freeBus s).trans (.of_steady (completeCycle_cycleKeeps ..) (steady_completeCycle ..))
  · exact goes_freeBus s

theorem goes_recordAccess (lane : Fin 4) (a : Access) (data : Byte) (s : State) : Goes none s (s.recordAccess lane a data) := goes_mark ..

theorem reach_boardAccessEnd {s : State} (h : Reach s) (data : Byte) : ResultReach (execBoardAccessEnd data s) := by
  unfold execBoardAccessEnd
  split
  · exact reach_next (reach_heldAccessEnd h)
  · split
    · exact reach_next h
    · exact reach_next h
    · exact reach_next (h.stays (goes_targetAccessEnd data s).settled)
    · rw [if_pos (transferMapped_iff.2 h.transfer)]
      exact reach_next ((reach_transferAccessEnd (h.stays (goes_freeBus s)) data).stays (goes_settle _))
    · exact reach_next (h.stays ((goes_recordAccess ..).trans (goes_freeBus _)).settled)
    · exact reach_next (h.stays (goes_freeBus s).settled)
    · exact reach_next (h.stays (((goes_recordAccess ..).trans (goes_freeBus _)).trans (goes_engineAccessEnd ..)).settled)
    · have goesOn : ∀ u : State, ∀ o, Goes none u { u with bus := { u.bus with owner := o } } := fun _ _ => .of_same rfl rfl rfl rfl
      exact reach_next (h.stays ((goes_recordAccess ..).trans (goesOn ..)))

theorem goes_setBoardReset (b : Bool) (s : State) : Goes none s (s.setBoardReset b) := .of_same rfl rfl rfl rfl

theorem goes_senseNet (s : State) : Goes none s s.senseNet := by
  unfold State.senseNet
  split
  · exact .of_same rfl rfl rfl rfl
  · exact .refl s

theorem reach_boardResetSeen {s : State} (h : Reach s) : ResultReach (execBoardResetSeen s) := by
  unfold execBoardResetSeen
  split
  · exact reach_next (h.stays (((goes_setBoardReset true s).trans (goes_cutOff ..)).trans (goes_latch ..)).settled)
  · exact reach_next (h.stays (goes_setBoardReset true s))

theorem goes_supplyLost (s : State) : Goes none s s.supplyLost := by
  have pin : Goes none s { s with port := { s.port with powered := false } } := .of_same rfl rfl rfl rfl
  have cut := ((pin.trans (goes_cutOff .power .unpowered (.power true) _)).trans (goes_latch .power _)).trans (goes_cutTransfer TransferByte.boardBound _)
  have bus := cut.trans (.of_same (t := State.engineBusLost _) rfl rfl rfl rfl)
  exact (bus.trans (goes_jobPowerLost _)).trans (.of_same rfl rfl rfl rfl)

theorem goes_takeUpClaims (s : State) : Goes none s s.takeUpClaims := by
  unfold State.takeUpClaims
  dsimp only
  split
  · exact (goes_setHold ..).trans (.of_steady (armOrMiss_cycleKeeps _) (steady_armOrMiss _))
  · exact goes_setHold ..

theorem goes_supplyReturned (s : State) : Goes none s s.supplyReturned := by
  have pin : Goes none s { s with port := { s.port with powered := true, resetSense := false } } := .of_same rfl rfl rfl rfl
  unfold State.supplyReturned
  dsimp only
  split
  · exact ((pin.trans (goes_setHold ..)).trans (goes_mark ..)).trans (goes_latch ..)
  · exact ((pin.trans (goes_takeUpClaims _)).trans (goes_mark ..)).trans (goes_latch ..)

theorem goes_supervise (s : State) : Goes none s s.supervise := by
  unfold State.supervise
  split
  · split
    · exact (goes_supplyLost s).settled
    · exact .refl s
  · split
    · exact (goes_supplyReturned s).settled
    · exact .refl s

theorem goes_supplyAt (level : Nat) (s : State) : Goes none s (s.supplyAt level) := by
  have pin : Goes none s (s.setSupply level) := .of_same rfl rfl rfl rfl
  unfold State.supplyAt
  split
  · exact pin
  · exact pin.trans (goes_supervise _)

theorem goes_edgeTaken (line : Fin 4) (rising : Bool) (p : ProbeLine) (s : State) : Goes none s (s.edgeTaken line rising p) := by
  have stamped : Goes none s (s.setProbeLine line (p.stamped rising s.timeBase)) := .of_same rfl rfl rfl rfl
  have recorded : Goes none s (if p.record then (s.setProbeLine line (p.stamped rising s.timeBase)).offer (.edge line rising) true s.timeBase
      else s.setProbeLine line (p.stamped rising s.timeBase)) := by
    split
    · exact stamped.trans (.of_steady (offer_cycleKeeps ..) (steady_offer ..))
    · exact stamped
  unfold State.edgeTaken
  dsimp only
  split
  · exact recorded.trans (goes_latch ..)
  · exact recorded

theorem Reach.cycleMapped {s : State} (h : Reach s) : s.cycleMapped = true := cycleMapped_iff.2 h.cycle

theorem reach_probeEdge {s : State} (h : Reach s) (line : Fin 4) (rising : Bool) : ResultReach (execProbeEdge line rising s) := by
  unfold execProbeEdge
  dsimp only
  split
  · exact reach_next h
  · split
    · exact reach_next (h.stays (.of_same rfl rfl rfl rfl))
    · split
      · exact reach_next (h.stays (goes_edgeTaken ..))
      · rw [if_pos h.cycleMapped]
        exact reach_next (h.stays ((goes_edgeTaken ..).trans (goes_raiseClaim ..)).settled)

theorem reach_readyLineAsserted {s : State} (h : Reach s) : ResultReach (execReadyLineAsserted s) := by
  unfold execReadyLineAsserted
  split
  · split
    · exact reach_next h
    · exact reach_next (h.stays (goes_work (work_pollDone ..)).settled)
  all_goals exact reach_next h

theorem reach_pollTimeout {s : State} (h : Reach s) : ResultReach (execPollTimeout s) := by
  unfold execPollTimeout
  split
  · exact reach_next h
  · split
    · exact reach_next h
    · dsimp only
      split
      · exact reach_next (h.stays (((goes_passUntil ..).trans (goes_work (work_timeOut ..))).settled.trans (goes_takeDue _)))
      all_goals exact reach_next (h.stays ((goes_passUntil ..).trans (goes_takeDue _)))

/-! ### Commands -/

/-- A record is written: it is disabled, or of no overlay kind, or maps its pages (R38, R42, R52). -/
theorem reach_setRecord {s : State} (h : Reach s) {index : Nat} (inRange : index < 16) {w : Window}
    (room : w.enabled = true → w.kind.isOverlay = true → w.origin.getD 0 + (w.lastPage - w.firstPage) < s.overlay.capacity)
    (noSurvey : s.overlay.survey ≠ .idle → w.enabled = true → w.kind.isOverlay = false) : Reach { s with windows := s.windows.set index w inRange } := by
  have mem : ∀ v ∈ (s.windows.set index w inRange).toList, v ∈ s.windows.toList ∨ v = w := fun v hv => by
    rw [Vector.toList_set] at hv
    exact List.mem_or_eq_of_mem_set hv
  refine ⟨fun v hv enabled overlay => ?_, h.cycle, h.overlay, h.transfer, fun runs v hv enabled => ?_, h.noCycle, h.noTransfer⟩
  · rcases mem v hv with old | rfl
    · exact h.windows v old enabled overlay
    · exact room enabled overlay
  · rcases mem v hv with old | rfl
    · exact h.noWindow runs v old enabled
    · exact noSurvey runs enabled

theorem reach_setWindow {s : State} (h : Reach s) (index : Nat) (f : WindowFields) : ResultReach (execSetWindow index f s) := by
  refine reach_onTaken h fun t ht _ admitted => ?_
  have notPowerOn : t.overlay.survey ≠ .powerOn := fun powerOn => nomatch admitted powerOn
  split
  · rename_i inRange
    split
    · exact reach_reject ht ..
    · rename_i w record
      split
      · exact reach_reject ht ..
      · rename_i free
        split
        · rename_i fits
          refine reach_accept (reach_setRecord ht inRange (fun _ overlay => ?_) (fun runs _ => ?_)) ..
          · simp only [Window.fits, overlay, Bool.not_true, Bool.false_or] at fits
            obtain ⟨origin, some, room⟩ := (Option.any_eq_true _ _).1 fits
            simpa [some] using room
          · have commanded : t.overlay.survey = .commanded := by cases survey : t.overlay.survey <;> simp_all
            simpa [commanded] using free
        · exact reach_reject ht ..
  · exact reach_reject ht ..

theorem reach_clearWindow {s : State} (h : Reach s) (index : Nat) : ResultReach (execClearWindow index s) := by
  refine reach_onTaken h fun t ht _ _ => ?_
  split
  · rename_i inRange
    exact reach_accept (reach_setRecord ht inRange Bool.noConfusion (fun _ => Bool.noConfusion)) ..
  · exact reach_reject ht ..

theorem reach_surveyOverlay {s : State} (h : Reach s) : ResultReach (execSurveyOverlay s) := by
  refine reach_onTaken h fun t ht idle _ => ?_
  split
  · exact reach_reject ht ..
  · split
    · exact reach_reject ht ..
    · rename_i notLive
      obtain ⟨noWindow, noCycle⟩ := windowsLive_iff.1 (by simpa using notLive)
      have noBytes : ∀ x, t.link.activity = .transfer x → ∀ b ∈ x.todo, b.location = none := fun x hx => nomatch idle.symm.trans hx
      refine reach_accept ?_ ..
      exact ⟨ht.windows, ht.cycle, ht.overlay, ht.transfer, fun _ => noWindow, fun _ => noCycle, fun _ => noBytes⟩

theorem goes_rewired (s : State) : Goes none s s.rewired := by
  unfold State.rewired
  repeat' split
  all_goals exact .of_same rfl rfl rfl rfl

theorem goes_optionsTaken (wiring threshold : Bool) (s : State) : Goes none s (s.optionsTaken wiring threshold) := by
  have drawn : Goes none s s.useFree := .of_same rfl rfl rfl rfl
  unfold State.optionsTaken
  split
  · exact .refl s
  · exact goes_rewired s
  · exact goes_supervise s
  · split
    · exact (drawn.trans (goes_rewired _)).trans (goes_supervise _)
    · exact (drawn.trans (goes_supervise _)).trans (goes_rewired _)

theorem reach_setHoldOptions {s : State} (h : Reach s) (f : HoldFields) : ResultReach (execSetHoldOptions f s) := by
  refine reach_onTaken h fun t ht _ _ => ?_
  split
  · rename_i fits
    split
    · exact reach_reject ht ..
    · have options : Goes none t (t.setOptions f ⟨f.threshold, fits.1⟩) := .of_same rfl rfl rfl rfl
      exact reach_accept (ht.stays (options.trans (goes_optionsTaken ..)).settled) ..
  · exact reach_reject ht ..

theorem goes_floorTaken (floor : Nat) (s : State) : Goes none s (s.floorTaken floor) := by
  have set : Goes none s (s.withFloor floor) := .of_same rfl rfl rfl rfl
  unfold State.floorTaken
  dsimp only
  repeat' split
  all_goals first
    | with_reducible exact set
    | exact set.trans (goes_setHold ..)
    | exact set.trans (.of_steady (armOrMiss_cycleKeeps _) (steady_armOrMiss _))

theorem reach_setFloor {s : State} (h : Reach s) (floor : Nat) : ResultReach (execSetFloor floor s) := by
  refine reach_onTaken h fun t ht _ _ => ?_
  have set : Goes none t (t.withFloor floor) := .of_same rfl rfl rfl rfl
  split
  · exact reach_reject ht ..
  · split
    · split
      · exact reach_reject ht ..
      · rw [if_pos ht.cycleMapped]
        split
        · exact reach_next (ht.stays ((set.trans (goes_occupy (fun _ => Activity.noConfusion) _)).trans (goes_endHoldByFloor _)).settled)
        · exact reach_accept (ht.stays (set.trans (goes_endHoldByFloor _)).settled) ..
    · exact reach_accept (ht.stays (goes_floorTaken floor t).settled) ..

theorem reach_halt {s : State} (h : Reach s) (level : Nat) : ResultReach (execHalt level s) := by
  refine reach_onTaken h fun t ht _ _ => ?_
  split
  · exact reach_reject ht ..
  · rw [if_pos ht.cycleMapped]
    exact reach_accept (ht.stays (goes_raiseClaim ..).settled) ..

theorem goes_releaseHold (mode : ReleaseMode) (s : State) : Goes none s (s.releaseHold mode) := by
  have ended := goes_endHold .release s
  unfold State.releaseHold
  dsimp only
  split
  · exact (ended.trans (goes_setHold ..)).trans (goes_proceedHeld _)
  · exact (ended.trans (goes_setHold ..)).trans (goes_substituteHeld ..)
  · refine (ended.trans ?_).trans (goes_proceedHeld _)
    exact .of_same rfl rfl rfl rfl

theorem goes_releaseQuietly (s : State) : Goes none s s.releaseQuietly := by
  unfold State.releaseQuietly
  split
  · exact goes_setHold ..
  · exact .refl s

theorem reach_release {s : State} (h : Reach s) (source mode : Nat) (byte : Option Byte) (stepKind : Option Nat) :
    ResultReach (execRelease source mode byte stepKind s) := by
  refine reach_onTaken h fun t ht _ _ => ?_
  split
  · rename_i target m _ _
    have left : Goes none t (t.withClaims (target.remaining t.run.claims)) := .of_same rfl rfl rfl rfl
    have accepts : ∀ {u : State} (c : Instr), Reach u → ResultReach (u.acceptRelease c) := fun c hu => reach_accept hu c _
    unfold State.releaseTaken
    dsimp only
    split
    · exact reach_reject ht ..
    · split
      · exact reach_reject ht ..
      · split
        · exact reach_reject ht ..
        · split
          · split
            · exact reach_reject ht ..
            · rw [if_pos ht.cycleMapped]
              split
              · exact reach_next (ht.stays ((left.trans (goes_occupy (fun _ => Activity.noConfusion) _)).trans (goes_releaseHold m _)).settled)
              · exact accepts _ (ht.stays (left.trans (goes_releaseHold m _)).settled)
          · exact accepts _ (ht.stays (left.trans (goes_releaseQuietly _)).settled)
  · exact reach_reject ht ..

theorem goes_injectAnswered (s : State) : Goes none s s.injectAnswered := by
  unfold State.injectAnswered
  repeat' split
  all_goals first | with_reducible exact .refl s | exact goes_respond ..

theorem reach_inject {s : State} (h : Reach s) (address lane kind : Nat) (data : Option Byte) : ResultReach (execInject address lane kind data s) := by
  refine reach_onTaken h fun t ht _ _ => ?_
  split
  · exact reach_reject ht ..
  · rename_i l k _
    split
    · exact reach_reject ht ..
    · split
      · exact reach_reject ht ..
      · have fits : Fits t (t.present address l k data false true) := fits_present ht ..
        have occupied := ht.stays (goes_occupy (a := .inject) (fun _ => Activity.noConfusion) t)
        have presented : Reach ((t.occupy .inject).presentCycle (t.present address l k data false true)) :=
          reach_presentCycle occupied ⟨fits.mapped, fits.overlay, fits.noSurvey⟩
        dsimp only
        rw [if_pos fits.mapped]
        exact reach_next (presented.stays ((goes_settle _).trans (goes_injectAnswered _)))

theorem goes_enterJob (op : Operation) (lane : Fin 4) (address length : Nat) (s : State) : Goes none s (s.enterJob op lane address length) := by
  unfold State.enterJob State.bind
  dsimp only
  split <;> exact .of_same rfl rfl rfl rfl

theorem goes_abortActive (j : Job) (a : Active) (s : State) : Goes none s (s.abortActive j a) := by
  have withdrawn : Goes none s { s with bus := { s.bus with engine := none } } := .of_same rfl rfl rfl rfl
  unfold State.abortActive
  split
  · exact goes_work (.awaits ..)
  · dsimp only
    split
    · exact (withdrawn.trans (goes_work (work_abortReset ..))).settled
    · exact (withdrawn.trans (goes_work (.aborts ..))).settled

theorem reach_abortEngine {s : State} (h : Reach s) : ResultReach (execAbortEngine s) := by
  refine reach_onTaken h fun t ht _ _ => ?_
  split
  · exact reach_accept (ht.stays (goes_cancelAll t).settled) ..
  · split
    · exact reach_next (ht.stays ((goes_occupy (fun _ => Activity.noConfusion) t).trans (goes_abortActive ..)))
    · exact reach_accept (ht.stays (goes_cancelAll t).settled) ..

theorem reach_linkRateChange {s : State} (h : Reach s) (code : Option Byte) : ResultReach (execLinkRateChange code s) := by
  unfold execLinkRateChange
  split
  · refine reach_next (h.stays (Goes.trans ?_ (goes_endReception ..)))
    exact ⟨rfl, rfl, .inl rfl, fun d hd => ⟨d, .inl hd, rfl, rfl⟩, fun _ hx => nomatch hx⟩
  all_goals exact reach_next h

theorem goes_queueFrame (f : Frame) (s : State) : Goes none s (s.queueFrame f) := by
  unfold State.queueFrame
  split
  · exact .of_same rfl rfl rfl rfl
  · exact .refl s

theorem reach_lineSurveyEnd {s : State} (h : Reach s) (high low : List (BitVec 28)) : ResultReach (execLineSurveyEnd high low s) := by
  unfold execLineSurveyEnd
  split
  · generalize Vector.ofFn (judgeLine high low) = map
    have replaced : Goes none s (({ s with bus := { s.bus with owner := .free, lineMap := map, survey := false } } : State).latch .surveyDone) :=
      .of_same rfl rfl rfl rfl
    exact reach_next (h.stays replaced.settled)
  · exact reach_next h

/-- An answer that changes nothing that can be accessed. -/
theorem Goes.answered {s t : State} (windows : t.windows = s.windows) (overlay : t.overlay = s.overlay) (inFlight : t.port.inFlight = s.port.inFlight)
    (still : ∀ x, t.link.activity ≠ .transfer x) : Goes none s t :=
  ⟨windows, by rw [overlay], by rw [overlay]; exact .inl rfl, fun d hd => ⟨d, .inl (inFlight ▸ hd), rfl, rfl⟩, fun x hx => absurd hx (still x)⟩

/-- Every command answers a next state and keeps every reachable location mapped. -/
theorem reach_exec {s : State} (h : Reach s) (c : Instr) : ResultReach (exec c s) := by
  cases c
  case powerOn => exact reach_next (reach_afterReset ..)
  case prstAsserted =>
    refine reach_next ?_
    split
    · exact h.stays (.of_same rfl rfl rfl rfl)
    · exact h.stays (goes_holdInReset s)
  case prstReleased =>
    refine reach_next ?_
    split
    · exact reach_endReset h
    · exact h
  case partReset =>
    refine reach_next ?_
    split
    · exact h
    · exact reach_endReset (h.stays (goes_holdInReset s))
  case powerOnSurveyEnd readBacks =>
    show ResultReach (execPowerOnSurveyEnd readBacks s)
    unfold execPowerOnSurveyEnd
    split
    · rename_i runs
      exact reach_next (reach_surveyEnds h (by rw [runs.2]; exact OverlaySurvey.noConfusion) _)
    · exact reach_next h
  case overlaySurveyEnd readBacks =>
    show ResultReach (execOverlaySurveyEnd readBacks s)
    unfold execOverlaySurveyEnd
    split
    · rename_i runs
      exact reach_next (reach_surveyEnds h (by rw [runs.2]; exact OverlaySurvey.noConfusion) _)
    · exact reach_next h
  case lineSurveyEnd high low => exact reach_lineSurveyEnd h high low
  case cyclePresented address write fetch selects => exact reach_cyclePresented h address write fetch selects
  case lostCycle => exact reach_next h
  case boardAccessEnd data => exact reach_boardAccessEnd h data
  case boardResetSeen => exact reach_boardResetSeen h
  case boardResetReleased =>
    refine reach_next ?_
    split
    · exact h.stays (goes_setBoardReset false s)
    · exact h.stays ((goes_setBoardReset false s).trans (goes_senseNet _))
  case supplyLost level => exact reach_next (h.stays (goes_supplyAt level s))
  case supplyReturned level => exact reach_next (h.stays (goes_supplyAt level s))
  case probeEdge line rising => exact reach_probeEdge h line rising
  case holdLimitExpiry =>
    show ResultReach (execHoldLimitExpiry s)
    unfold execHoldLimitExpiry
    repeat' split
    · exact reach_next (h.stays ((goes_expireHold ..).trans (goes_takeDue _)))
    · exact reach_next h
    · exact reach_next h
  case jobStart =>
    refine reach_next ?_
    split
    · exact h
    · exact h.stays (goes_settle s)
  case readyLineAsserted => exact reach_readyLineAsserted h
  case pollTimeout => exact reach_pollTimeout h
  case lateFrame code => exact reach_next (h.stays ((goes_dropLate code s).trans (goes_takeDue _)))
  case overlongFrame => exact reach_next (h.stays (goes_endReception ..))
  case startByteNoRoom => exact reach_next h
  case startByteReceived code =>
    show ResultReach (execStartByteReceived s code)
    unfold execStartByteReceived
    split
    · exact reach_next h
    · exact reach_next (h.stays (goes_queueFrame ..))
  case checkByteReceived code payload check =>
    refine reach_next ?_
    split
    · exact h.stays (goes_dropDue s)
    · exact h.stays (goes_endReception ..)
  case unknownCommand code payload =>
    show ResultReach (execUnknownCommand code payload s)
    unfold execUnknownCommand
    split
    · exact reach_next h
    · exact reach_onTaken h fun t ht _ _ => reach_next (reach_respond ht ..)
  case linkRateChange code => exact reach_linkRateChange h code
  case setWindow index f => exact reach_setWindow h index f
  case clearWindow index => exact reach_clearWindow h index
  case surveyOverlay => exact reach_surveyOverlay h
  case writeOverlay page offset data =>
    refine reach_onTaken h fun t ht _ admitted => ?_
    have notPowerOn : t.overlay.survey ≠ .powerOn := fun powerOn => nomatch admitted powerOn
    split
    · exact reach_reject ht ..
    · rename_i notCommanded
      split
      · exact reach_reject ht ..
      · split
        · exact reach_reject ht ..
        · exact reach_startOverlay ht _ _ (by omega) _ _ (survey_idle notPowerOn (by simpa using notCommanded))
  case readOverlay page offset count =>
    refine reach_onTaken h fun t ht _ admitted => ?_
    have notPowerOn : t.overlay.survey ≠ .powerOn := fun powerOn => nomatch admitted powerOn
    split
    · exact reach_reject ht ..
    · rename_i notCommanded
      split
      · exact reach_reject ht ..
      · exact reach_startOverlay ht _ _ (by omega) _ _ (survey_idle notPowerOn (by simpa using notCommanded))
  case peek path address count lane =>
    refine reach_onTaken h fun t ht _ _ => ?_
    repeat' split
    all_goals first | with_reducible exact reach_reject ht .. | exact reach_startTransfer ht ..
  case poke path address data lane =>
    refine reach_onTaken h fun t ht _ _ => ?_
    repeat' split
    all_goals first | with_reducible exact reach_reject ht .. | exact reach_startTransfer ht ..
  case surveyLines =>
    refine reach_onTaken h fun t ht _ _ => ?_
    have asked : Goes none t (State.requestEngine .lineSurvey { t with bus := { t.bus with survey := true } }) := .of_same rfl rfl rfl rfl
    split
    · exact reach_reject ht ..
    · split
      · exact reach_reject ht ..
      · split
        · exact reach_reject ht ..
        · exact reach_accept (ht.stays asked.settled) ..
  case setHoldOptions f => exact reach_setHoldOptions h f
  case setFloor floor => exact reach_setFloor h floor
  case halt level => exact reach_halt h level
  case release source mode byte stepKind => exact reach_release h source mode byte stepKind
  case resetTarget =>
    refine reach_onTaken h fun t ht _ _ => ?_
    split
    · exact reach_reject ht ..
    · exact reach_accept (ht.stays (goes_cutOff ..).settled) ..
  case resume =>
    refine reach_onTaken h fun t ht _ _ => ?_
    repeat' split
    all_goals first
      | with_reducible exact reach_reject ht ..
      | exact reach_accept (ht.stays ((goes_takeUpClaims t).trans (goes_senseNet _)).settled) ..
  case rehearse =>
    refine reach_onTaken h fun t ht _ _ => ?_
    have flagged : Goes none t (t.withRehearsal true) := .of_same rfl rfl rfl rfl
    repeat' split
    all_goals first
      | with_reducible exact reach_reject ht ..
      | exact reach_accept (ht.stays (flagged.trans (goes_takeUpClaims _)).settled) ..
  case inject address lane kind data => exact reach_inject h address lane kind data
  case endRehearsal =>
    refine reach_onTaken h fun t ht _ _ => ?_
    have ended : Goes none t ((t.withRehearsal false).clearClaims.setHold .resetHeld) := .of_same rfl rfl rfl rfl
    repeat' split
    all_goals first | with_reducible exact reach_reject ht .. | exact reach_accept (ht.stays ended.settled) ..
  case submit f =>
    refine reach_onTaken h fun t ht _ _ => ?_
    repeat' split
    all_goals first | with_reducible exact reach_reject ht .. | exact reach_accept (ht.stays (goes_enterJob ..).settled) ..
  case cancelJob number =>
    refine reach_onTaken h fun t ht _ _ => ?_
    repeat' split
    all_goals first | with_reducible exact reach_reject ht .. | exact reach_accept (ht.stays (goes_endJob ..).settled) ..
  case abortEngine => exact reach_abortEngine h
  -- The others write no window record, no overlay memory and no cycle, and they answer at once.
  all_goals
    refine reach_onTaken h fun t ht _ _ => ?_
    repeat' (first | split | (dsimp only; split))
    all_goals exact reach_next (ht.stays (.answered rfl rfl rfl fun _ => Activity.noConfusion))

theorem reach_takeFrame {s : State} (h : Reach s) : ResultReach s.takeFrame := by
  unfold State.takeFrame
  split
  · exact reach_next (h.stays (goes_passTime s))
  · split
    · exact reach_next (h.stays (goes_passTime s))
    · refine reach_next (h.stays ?_)
      unfold State.answerBadLength
      split <;> exact .answered rfl rfl rfl fun _ => Activity.noConfusion
    · split
      · exact reach_next (h.stays (goes_passTime s))
      · exact reach_exec h _

theorem reach_stepLink {s : State} (h : Reach s) : ResultReach s.stepLink := by
  have left : Goes none s s.lineFree := .answered rfl rfl rfl fun _ => Activity.noConfusion
  unfold State.stepLink
  split
  · exact reach_next (h.stays (left.trans (goes_passTime _)))
  · split
    · exact reach_takeFrame h
    · exact reach_next (h.stays (goes_passTime s))

theorem reach_idle {s : State} (h : Reach s) : ResultReach s.idle := by
  unfold State.idle
  split
  · exact reach_next h
  · split
    · rename_i b rest t own
      obtain ⟨activity, todo, -⟩ := nextOwnByte_eq_some.1 own
      rw [if_pos (transferMapped_iff.2 h.transfer)]
      exact reach_next ((reach_nextBytes h activity todo _).stays (goes_settle _))
    · exact reach_stepLink h

theorem reach_step {s : State} (h : Reach s) : ResultReach (step s) := by
  unfold step
  split
  · exact reach_idle h
  · rename_i rest _
    have taken : Goes none s { s with pending := rest } := .of_same rfl rfl rfl rfl
    exact reach_exec (h.stays taken) _

/-- Settles O11: every step answers a next state and keeps every reachable location mapped. -/
theorem mappedStateNeverStops : Obligations.MappedStateNeverStops := fun _ reachable => by
  obtain ⟨t, same, reach⟩ := (reach_step (reach_iff.2 reachable)).next
  exact ⟨t, same, reach_iff.1 reach⟩

end Sys2Proof.MappedOverlay
end

section
/-! PROOFS. The queue of commands, the resets of the part, the reset state, the end of a survey of overlay memory, and the model's one stop. -/

namespace Sys2Proof.Resets

open Sys2Proof Sys2Proof.Machine Sys2Proof.BenchLink

/-! ### Commands taken -/

/-- A command whose meaning is an action on its frame taken runs that action, once its frame is taken with the power-on survey ended. -/
theorem exec_of_takes {c : Instr} {s t : State} {act : State → Result} (meaning : exec c s = s.onTaken c act) (taken : s.takes c t) :
    exec c s = act t := meaning.trans (State.onTaken_takes taken act)

/-- The same for the commands that the power-on survey does not bar. -/
theorem exec_of_takesFrame {c : Instr} {s t : State} {act : State → Result} (meaning : exec c s = s.onTaken c act)
    (early : Instr.takenInSurvey c = true) (taken : s.takesFrame c t) : exec c s = act t := meaning.trans (State.onTaken_takesFrame taken early act)

/-- Settles O1: by the definition of the step. -/
theorem stepRunsFrontCommand : Obligations.StepRunsFrontCommand := by
  intro s c rest pending
  rw [step, pending]

/-! ### What a reset leaves -/

/-- A state after a reset has the reset values (11.4). -/
theorem afterReset_atReset (o : Overlay) (supply : Nat) (boardReset : Bool) (levels : Fin 4 → Bool) (freeIndex : Nat) (pending : List Instr) :
    (State.afterReset o supply boardReset levels freeIndex pending).AtReset supply boardReset levels where
  pins := ⟨rfl, rfl, rfl, rfl, rfl⟩
  inFlight := ⟨rfl, rfl⟩
  wiring := ⟨rfl, rfl, rfl⟩
  powered := rfl
  windows := fun i => by simp [State.afterReset, Window.initial]
  floatByte := rfl
  watch := fun i => by simp [State.afterReset, WatchUnit.initial]
  probes := fun i => by fin_cases i <;> rfl
  timeBase := rfl
  run := by
    have powered : (Port.initial supply boardReset).powered = decide (2600 ≤ supply) := rfl
    simp [State.afterReset, RunControl.initial, powered]
  trace := rfl
  bus := ⟨rfl, rfl, rfl, rfl, rfl⟩
  lineMap := fun i => by simp [State.afterReset, Bus.initial]
  slots := fun i => by simp [State.afterReset]
  lanes := fun i => by simp [State.afterReset]
  engine := ⟨rfl, rfl, rfl⟩
  link := ⟨rfl, rfl, rfl, rfl, rfl, rfl⟩

/-! ### A survey that a reset stops -/

/-- Only a commanded survey is stopped (R54). -/
theorem stopSurvey_of_not {s : State} (h : s.overlay.survey ≠ .commanded) : s.stopSurvey = s := if_neg h

/-- A commanded survey ends at the end of the page it is on (R54; log 11). -/
theorem stopSurvey_of_commanded {s : State} (h : s.overlay.survey = .commanded) :
    s.stopSurvey = { s with overlay := { s.overlay with cells := Mem.fillTo (Config.surveyPage s.freeIndex).val s.overlay.cells, survey := .idle },
                            freeIndex := s.freeIndex + 1 } := if_pos h

/-- What stopping the survey leaves of the blocks that a reset takes over. -/
theorem stopSurvey_eq (s : State) : s.stopSurvey = { s with overlay := s.stopSurvey.overlay, freeIndex := s.stopSurvey.freeIndex } := by
  unfold State.stopSurvey
  split <;> rfl

theorem stopSurvey_survey_ne (s : State) : s.stopSurvey.overlay.survey ≠ .commanded := by
  unfold State.stopSurvey
  split
  · exact OverlaySurvey.noConfusion
  · assumption

/-- A part reset as a state after reset (R51, R54, R59, R192). -/
theorem partReset_eq (s : State) : s.partReset =
    State.afterReset (if s.stopSurvey.overlay.survey = .powerOn then Overlay.powerOn else s.stopSurvey.overlay) s.port.supply s.port.boardReset
      (fun i => s.probes[i].level) s.stopSurvey.freeIndex s.pending := by
  rw [State.partReset, stopSurvey_eq s]

theorem partReset_atReset (s : State) : s.partReset.AtReset s.port.supply s.port.boardReset (fun i => s.probes[i].level) := by
  rw [partReset_eq]
  exact afterReset_atReset ..

theorem partReset_overlay (s : State) :
    s.partReset.overlay = if s.stopSurvey.overlay.survey = .powerOn then Overlay.powerOn else s.stopSurvey.overlay := by
  rw [partReset_eq]
  rfl

theorem powerOn_read (a : Nat) : Mem.read Overlay.powerOn.cells a = 0xFF#8 := Mem.read_nil a

/-- What power-on and a power-on survey begun again find in overlay memory (R50, R51). -/
theorem powerOn_spec : Overlay.powerOn.survey = .powerOn ∧ Overlay.powerOn.repairList = List.range 272 ∧
    ∀ a, Mem.read Overlay.powerOn.cells a = 0xFF#8 := ⟨rfl, StepForms.powerOn_repairList, powerOn_read⟩

/-- A survey stopped by a reset: the pages up to the one it was on are blank, its new list is discarded (R54; log 11). -/
theorem stopSurvey_spec {s : State} (h : s.overlay.survey = .commanded) :
    s.stopSurvey.overlay.survey = .idle ∧ s.stopSurvey.overlay.repairList = s.overlay.repairList ∧
    ∃ page, page < 272 ∧ ∀ a, Mem.read s.stopSurvey.overlay.cells a = if a / 256 ≤ page then 0xFF#8 else Mem.read s.overlay.cells a := by
  rw [stopSurvey_of_commanded h]
  exact ⟨rfl, rfl, (Config.surveyPage s.freeIndex).val, (Config.surveyPage s.freeIndex).isLt, Mem.read_fillTo _ _⟩

/-- Overlay memory after a part reset, by the survey that it finds (R51, R54, R59). -/
theorem partReset_overlay_cases (s : State) :
    (s.overlay.survey = .idle → s.partReset.overlay = s.overlay) ∧
    (s.overlay.survey = .powerOn → s.partReset.overlay = Overlay.powerOn) ∧
    (s.overlay.survey = .commanded → s.partReset.overlay = s.stopSurvey.overlay) := by
  refine ⟨fun idle => ?_, fun runs => ?_, fun runs => ?_⟩
  · rw [partReset_overlay, stopSurvey_of_not (by simp [idle]), if_neg (by simp [idle])]
  · rw [partReset_overlay, stopSurvey_of_not (by simp [runs]), if_pos runs]
  · rw [partReset_overlay, if_neg (by simp [(stopSurvey_spec runs).1])]

/-! ### The part held in reset -/

/-- With no granted BENCH byte of a command nothing is finished. -/
theorem finishGranted_of_not {s : State} (h : s.bus.owner ≠ .bench ∨ ∀ tr, s.link.activity ≠ .transfer tr) : s.finishGranted = s := by
  unfold State.finishGranted
  split
  · next owner activity => exact (h.elim (absurd owner) (fun none => absurd activity (none _)))
  · rfl

/-- A granted BENCH byte is made whole (R145; log 18). -/
theorem finishGranted_of_granted {s : State} {tr : Transfer} {b : TransferByte} {rest : List TransferByte} (owner : s.bus.owner = .bench)
    (activity : s.link.activity = .transfer tr) (todo : tr.todo = b :: rest) : s.finishGranted = s.transferWrite b := by
  simp only [State.finishGranted, owner, activity, todo]

/-- The overlay half of a byte that has one to write, and of one that has not (R44). -/
theorem transferWrite_of_none {b : TransferByte} (h : b.write = none ∨ b.location = none) (s : State) : s.transferWrite b = s := by
  unfold State.transferWrite
  split
  · next d l write location => rcases h with h | h <;> simp_all
  · rfl

theorem transferWrite_of_some {b : TransferByte} {d : Byte} {l : Location} (write : b.write = some d) (location : b.location = some l) (s : State) :
    s.transferWrite b = { s with overlay := s.overlay.writeByte l d } := by
  simp only [State.transferWrite, write, location]

theorem transferWrite_eq (b : TransferByte) (s : State) : s.transferWrite b = { s with overlay := (s.transferWrite b).overlay } := by
  unfold State.transferWrite
  split <;> rfl

theorem finishGranted_eq (s : State) : s.finishGranted = { s with overlay := s.finishGranted.overlay } := by
  unfold State.finishGranted
  split
  · split
    · exact transferWrite_eq ..
    · rfl
  · rfl

/-- What holding the part in reset leaves of each block (R137, R192). -/
theorem holdInReset_eq (s : State) :
    s.holdInReset =
      { s with overlay := s.stopSurvey.finishGranted.overlay, freeIndex := s.stopSurvey.freeIndex
               port := { s.port with prst := true, resetEnds := false }
               link := { s.link with queue := [], activity := .idle, sent := none }
               bus := { s.bus with owner := s.bus.owner.lastAccess, target := false, bench := none, engine := none, survey := false } } := by
  rw [State.holdInReset, finishGranted_eq, stopSurvey_eq s]

/-- Without a granted BENCH byte the hold in reset and the reset that ends it leave what the reset alone leaves. -/
theorem holdInReset_partReset {s : State} (h : s.bus.owner ≠ .bench) : s.holdInReset.partReset = s.partReset := by
  have bus : s.stopSurvey.bus = s.bus := by rw [stopSurvey_eq s]
  have overlay : s.holdInReset.overlay = s.stopSurvey.overlay := by
    rw [holdInReset_eq, finishGranted_of_not (.inl (by rw [bus]; exact h))]
  have stopped : s.holdInReset.stopSurvey = s.holdInReset := stopSurvey_of_not (by rw [overlay]; exact stopSurvey_survey_ne s)
  rw [partReset_eq, stopped, overlay, partReset_eq s, holdInReset_eq]

theorem freeBus_partReset (s : State) : s.freeBus.partReset = s.partReset := by
  rw [partReset_eq, partReset_eq s]
  unfold State.stopSurvey
  split
  · next commanded => rw [if_pos (show s.overlay.survey = .commanded from commanded)]; rfl
  · next other => rw [if_neg (show s.overlay.survey ≠ .commanded from other)]; rfl

/-- Each row that ends a part reset leaves the part reset of its own state (R137, R192; log 34). -/
theorem exec_endsReset_eq {c : Instr} {s : State} (ends : s.endsReset c) : exec c s = .next s.partReset := by
  rcases ends with ⟨rfl, held, free⟩ | ⟨rfl, running, owner⟩ | ⟨data, rfl, held, waits, owner⟩
  · have meaning : exec .prstReleased s = .next (if s.port.prst then s.endReset else s) := rfl
    rw [meaning, if_pos held, endReset_of_free (by rw [free]; rfl)]
  · have meaning : exec .partReset s = .next (if s.port.prst then s else s.holdInReset.endReset) := rfl
    have free : s.holdInReset.bus.owner.lastAccess = .free := by
      rw [holdInReset_owner]
      rcases owner with h | h <;> rw [h] <;> rfl
    have notBench : s.bus.owner ≠ .bench := by rcases owner with h | h <;> rw [h] <;> exact Owner.noConfusion
    rw [meaning, if_neg (by simp [running]), endReset_of_free free, holdInReset_partReset notBench]
  · have meaning : exec (.boardAccessEnd data) s = execBoardAccessEnd data s := rfl
    have access : s.bus.owner.lastAccess ≠ .free := by
      rcases owner with h | h | ⟨_, _, h⟩ <;> rw [h] <;> exact Owner.noConfusion
    rw [meaning, execBoardAccessEnd, if_pos held, heldAccessEnd_of_waiting access waits, freeBus_partReset]

/-- A reset that finds a board access in progress waits for its end (R137; log 34). -/
theorem endReset_of_access {s : State} (access : s.bus.owner.lastAccess ≠ .free) :
    s.endReset = { s with port := { s.port with resetEnds := true } } := if_neg access

/-- PART_RESET with a board access in progress: the part is held in reset until the access has ended (R137). -/
theorem exec_partReset_of_access {s : State} (running : s.port.prst = false) (access : s.bus.owner.lastAccess.lastAccess ≠ .free) :
    exec .partReset s = .next { s.holdInReset with port := { s.port with prst := true, resetEnds := true } } := by
  have meaning : exec .partReset s = .next (if s.port.prst then s else s.holdInReset.endReset) := rfl
  rw [meaning, if_neg (by simp [running]), endReset_of_access (by rw [holdInReset_owner]; exact access), holdInReset_port]

/-- The access that an owner has in progress is let end as it is, but for a run, of which only the access in progress remains (R137). -/
theorem lastAccess_of_access {o : Owner} (h : o = .target ∨ o = .bench ∨ ∃ lane a, o = .ended lane a) : o.lastAccess = o ∧ o ≠ .free := by
  rcases h with rfl | rfl | ⟨lane, a, rfl⟩ <;> exact ⟨rfl, Owner.noConfusion⟩

/-- Settles O3: a state after a reset has the reset values; each row that ends a part reset leaves the part reset of its own state, and the rows that find an access
wait for its end. -/
theorem resetsSetResetValues : Obligations.ResetsSetResetValues := by
  refine ⟨fun supply probes boardReset s => ?_, fun s => ⟨fun c ends => ?_, fun owner => ?_, fun lane a rest running owner => ?_, fun running => ?_, fun held => ?_⟩⟩
  · exact ⟨_, rfl, afterReset_atReset .., powerOn_spec.1, powerOn_spec.2.1, Overlay.capacity_allListed powerOn_spec.2.1, powerOn_spec.2.2, rfl⟩
  · obtain ⟨idle, powerOn, commanded⟩ := partReset_overlay_cases s
    refine ⟨_, exec_endsReset_eq ends, partReset_atReset s, partReset_pending s, idle, fun runs => ?_, fun runs => ?_⟩
    · rw [powerOn runs]; exact powerOn_spec
    · rw [commanded runs]; exact stopSurvey_spec runs
  · obtain ⟨last, access⟩ := lastAccess_of_access owner
    refine ⟨fun held => ?_, fun running => ?_⟩
    · have meaning : exec .prstReleased s = .next (if s.port.prst then s.endReset else s) := rfl
      rw [meaning, if_pos held, endReset_of_access (by rw [last]; exact access)]
    · refine ⟨_, exec_partReset_of_access running (by rw [last, last]; exact access), rfl, ?_⟩
      rw [holdInReset_eq]
      exact ⟨last, rfl, rfl, rfl, rfl⟩
  · have last : s.bus.owner.lastAccess = .ended lane a := by rw [owner]; rfl
    refine ⟨_, exec_partReset_of_access running (by rw [last]; exact Owner.noConfusion), rfl, ?_⟩
    rw [holdInReset_eq]
    exact last
  · have meaning : exec .prstReleased s = .next (if s.port.prst then s.endReset else s) := rfl
    rw [meaning, if_neg (by simp [running])]
  · have meaning : exec .partReset s = .next (if s.port.prst then s else s.holdInReset.endReset) := rfl
    rw [meaning, if_pos held]

/-! ### While the part is held in reset -/

/-- Held in reset, a bench command's bytes are ignored (R192). -/
theorem exec_benchCommand_of_prst {c : Instr} {s : State} (held : s.port.prst = true) (bench : benchCommand c = true) : exec c s = .next s := by
  obtain ⟨act, meaning⟩ := exec_eq_onTaken bench s
  rw [meaning, State.onTaken_prst held]

theorem exec_cyclePresented_of_prst {s : State} (held : s.port.prst = true) (address : BitVec 20) (write : Option Byte) (fetch : Bool) (selects : BitVec 4) :
    exec (.cyclePresented address write fetch selects) s = .next s := by
  have barred : s.mayPresent = false := by simp [State.mayPresent, held]
  have meaning : exec (.cyclePresented address write fetch selects) s = execCyclePresented address write fetch selects s := rfl
  rw [meaning, execCyclePresented, if_neg (by simp [barred])]

theorem exec_boardAccessEnd_of_prst {s : State} (held : s.port.prst = true) (waits : s.port.resetEnds = false) (access : s.bus.owner.lastAccess ≠ .free)
    (data : Byte) : exec (.boardAccessEnd data) s = .next s.freeBus := by
  have meaning : exec (.boardAccessEnd data) s = execBoardAccessEnd data s := rfl
  rw [meaning, execBoardAccessEnd, if_pos held, State.heldAccessEnd, if_neg access, if_neg (by simp [waits])]

/-- A line at the level it has is the line as it is. -/
theorem setProbeLine_self (line : Fin 4) (s : State) : s.setProbeLine line s.probes[line] = s := by
  have same : s.probes.set line s.probes[line] = s.probes := Vector.set_getElem_self ..
  rw [State.setProbeLine, same]

/-- Held in reset, an edge moves the level alone (R192). -/
theorem exec_probeEdge_of_prst {s : State} (held : s.port.prst = true) (line : Fin 4) (rising : Bool) :
    exec (.probeEdge line rising) s = .next (s.setProbeLine line { s.probes[line] with level := rising }) := by
  have meaning : exec (.probeEdge line rising) s = execProbeEdge line rising s := rfl
  rw [meaning]
  unfold execProbeEdge
  by_cases same : s.probes[line].level = rising
  · have line_same : { s.probes[line] with level := rising } = s.probes[line] := by rw [← same]
    simp only [same, if_true]
    rw [line_same, setProbeLine_self]
  · dsimp only
    rw [if_neg same, if_pos (by simp [held])]

theorem supplyAt_of_prst {s : State} (held : s.port.prst = true) (level : Nat) : s.supplyAt level = s.setSupply level := if_pos held

/-- The overlay memory that the hold in reset leaves, by what the bus finds to finish (R145; log 18). -/
theorem holdInReset_overlay (s : State) :
    (s.bus.owner ≠ .bench ∨ (∀ tr, s.link.activity ≠ .transfer tr) → s.holdInReset.overlay = s.stopSurvey.overlay) ∧
    (∀ tr b rest, s.bus.owner = .bench → s.link.activity = .transfer tr → tr.todo = b :: rest →
      (b.write = none ∨ b.location = none → s.holdInReset.overlay = s.stopSurvey.overlay) ∧
      (∀ d l, b.write = some d → b.location = some l → s.holdInReset.overlay = s.stopSurvey.overlay.writeByte l d)) := by
  have overlay : s.holdInReset.overlay = s.stopSurvey.finishGranted.overlay := by rw [holdInReset_eq]
  have bus : s.stopSurvey.bus = s.bus := by rw [stopSurvey_eq s]
  have link : s.stopSurvey.link = s.link := by rw [stopSurvey_eq s]
  refine ⟨fun none => ?_, fun tr b rest owner activity todo => ?_⟩
  · rw [overlay, finishGranted_of_not (by rw [bus, link]; exact none)]
  · rw [overlay, finishGranted_of_granted (by rw [bus]; exact owner) (by rw [link]; exact activity) todo]
    exact ⟨fun none => by rw [transferWrite_of_none none], fun d l write location => by rw [transferWrite_of_some write location]⟩

/-- Settles O4: the assertion by what the hold in reset leaves of each block; while it lasts, each row by its own check. -/
theorem prstHoldsPartInReset : Obligations.PrstHoldsPartInReset := by
  intro s
  have assertion : exec .prstAsserted s = .next (if s.port.prst then { s with port := { s.port with resetEnds := false } } else s.holdInReset) := rfl
  refine ⟨fun running => ?_, fun held => ?_⟩
  · have owner : s.holdInReset.bus.owner = s.bus.owner.lastAccess := holdInReset_owner s
    obtain ⟨ungranted, granted⟩ := holdInReset_overlay s
    refine ⟨s.holdInReset, ?_, holdInReset_port s, ?_, ?_, ?_, ?_, ?_, ?_, ?_, ?_, ?_, ?_, ?_, ?_, ?_, ?_, ?_, ?_⟩
    · rw [assertion, if_neg (by simp [running])]
    · rw [holdInReset_eq]
    · simp [State.attn]
    · rw [holdInReset_eq]
    · rw [holdInReset_eq]
    · rw [holdInReset_eq]
    · rw [holdInReset_eq]
    · rw [holdInReset_eq]
    · intro free; rw [owner, free]; rfl
    · intro target; rw [owner, target]; rfl
    · intro bench; rw [owner, bench]; rfl
    · intro lane a rest engine; rw [owner, engine]; rfl
    · intro survey; rw [owner, survey]; rfl
    · intro quiet
      rw [stopSurvey_of_not quiet] at ungranted granted
      exact ⟨ungranted, granted⟩
    · intro runs
      obtain ⟨idle, list, page⟩ := stopSurvey_spec runs
      exact ⟨s.stopSurvey.overlay, idle, list, page, ungranted, granted⟩
    · intro access
      have last : s.bus.owner.lastAccess.lastAccess ≠ .free := by
        rcases access with h | h | ⟨lane, a, h⟩ | ⟨lane, a, rest, h⟩ <;> rw [h] <;> exact Owner.noConfusion
      rw [exec_partReset_of_access running last, holdInReset_port]
    · rw [holdInReset_eq]
      exact ⟨rfl, rfl, rfl, rfl, rfl, rfl, rfl, rfl, rfl, rfl, rfl⟩
  · refine ⟨by rw [assertion, if_pos held], fun c => exec_benchCommand_of_prst held, fun code => ?_, exec_cyclePresented_of_prst held, fun data access waits => ?_,
      exec_probeEdge_of_prst held, fun level => ?_⟩
    · have meaning : exec (.startByteReceived code) s = execStartByteReceived s code := rfl
      rw [meaning, execStartByteReceived, if_pos held]
    · obtain ⟨last, owned⟩ := lastAccess_of_access access
      exact exec_boardAccessEnd_of_prst held waits (by rw [last]; exact owned) data
    · have moved : Host.Outcome.next (s.supplyAt level) = (.next (s.setSupply level) : Result) := by rw [supplyAt_of_prst held]
      exact ⟨moved, moved⟩

/-! ### The invariants of the reset state -/

/-- Settles O5: the forms hold of any state after a reset, given an overlay memory that has its own; so do run control's soundness and the reach of overlay memory. -/
theorem resetStateHasInvariants : Obligations.ResetStateHasInvariants := by
  have formed := StepForms.powerOn_formed State.reset
  have run : State.reset.runSound := RunSound.governed_iff.1 (RunSound.governed_afterReset ..)
  have reach : State.reset.overlayReachable := MappedOverlay.reach_iff.1 (MappedOverlay.reach_afterReset ..)
  refine ⟨formed.1, formed.2, ⟨Nat.zero_le _, fun i h => absurd h (Nat.not_lt_zero i)⟩, run.2.2.2.2.2, ⟨List.nodup_nil, fun n => ?_⟩, fun i => ?_, run, reach⟩
  · simp [State.reset, State.afterReset]
  · simp [State.reset, State.afterReset, State.naming]

/-! ### The end of a survey -/

/-- The end of a survey that runs, and the row where none does (R49, R50, R53). -/
theorem exec_powerOnSurveyEnd (readBacks : List ReadBack) (s : State) :
    exec (.powerOnSurveyEnd readBacks) s = if s.port.prst = false ∧ s.overlay.survey = .powerOn then .next (s.surveyEnds readBacks) else .next s := rfl

theorem exec_overlaySurveyEnd (readBacks : List ReadBack) (s : State) :
    exec (.overlaySurveyEnd readBacks) s = if s.port.prst = false ∧ s.overlay.survey = .commanded then .next (s.surveyEnds readBacks) else .next s := rfl

/-- The byte that a pass writes to an offset (R49). -/
theorem surveyPattern_eq (second : Bool) (offset : Nat) : surveyPattern second offset =
    if second then (if offset % 2 = 0 then 0xAA#8 else 0x55#8) else (if offset % 2 = 0 then 0x55#8 else 0xAA#8) := by
  unfold surveyPattern
  by_cases even : offset % 2 = 0 <;> cases second <;> simp [even]

/-- Settles O13: the new list is the list of the failing pages, and each row judges its own survey. -/
theorem surveyEndReplacesRepairList : Obligations.SurveyEndReplacesRepairList := by
  intro readBacks s written
  obtain ⟨ascending, listed⟩ := surveyList_spec readBacks
  refine ⟨surveyList readBacks, ascending, fun p => ?_, fun running survey => ?_, fun running survey => ?_, fun barred => ?_, fun barred => ?_, Mem.read_nil⟩
  · simp only [listed, surveyPattern_eq, written]
  · rw [exec_powerOnSurveyEnd, if_pos ⟨running, survey⟩]
    rfl
  · rw [exec_overlaySurveyEnd, if_pos ⟨running, survey⟩]
    rfl
  · rw [exec_powerOnSurveyEnd, if_neg (fun runs => barred.elim (fun held => by simp [held] at runs) (fun none => none runs.2))]
  · rw [exec_overlaySurveyEnd, if_neg (fun runs => barred.elim (fun held => by simp [held] at runs) (fun none => none runs.2))]

/-! ### The model's one stop -/

theorem exec_cyclePresented (address : BitVec 20) (write : Option Byte) (fetch : Bool) (selects : BitVec 4) {s : State} (may : s.mayPresent = true) :
    exec (.cyclePresented address write fetch selects) s =
      if (s.targetCycle address write fetch selects).location.all s.overlay.maps then
        .next (s.presentCycle (s.targetCycle address write fetch selects)).settle else .fault .noOverlayPage := if_pos may

/-- HALT with a level in range, its frame taken (R103). -/
theorem exec_halt {level : Nat} {s t : State} (inRange : level ≤ 7) (taken : s.takes (.halt level) t) :
    exec (.halt level) s =
      if t.cycleMapped then
        .next ((t.raiseClaim (haltRaise level)).settle.respond .ok 0x32 (.hold (t.raiseClaim (haltRaise level)).settle.run.hold))
      else .fault .noOverlayPage := (exec_of_takes rfl taken).trans (if_neg (by omega))

/-- The end of a BENCH byte's access (R138, R143). -/
theorem exec_boardAccessEnd_of_bench {s : State} (running : s.port.prst = false) (owner : s.bus.owner = .bench) (data : Byte) :
    exec (.boardAccessEnd data) s =
      if s.transferMapped then .next (s.freeBus.transferAccessEnd data).settle else .fault .noOverlayPage := by
  have meaning : exec (.boardAccessEnd data) s = execBoardAccessEnd data s := rfl
  simp [meaning, execBoardAccessEnd, running, owner]

/-- A sensed edge of a line with a hold level (R87, R90). -/
theorem exec_probeEdge_of_claim {line : Fin 4} {rising : Bool} {level : Nat} {s : State} (moves : s.probes[line].level ≠ rising)
    (sensed : s.probes[line].sense.admits rising = true) (claims : s.probes[line].holdLevel = some level) (running : s.port.prst = false) :
    exec (.probeEdge line rising) s =
      if s.cycleMapped then
        .next ((s.edgeTaken line rising { s.probes[line] with level := rising }).raiseClaim (probeRaise line level)).settle
      else .fault .noOverlayPage := by
  have meaning : exec (.probeEdge line rising) s = execProbeEdge line rising s := rfl
  rw [meaning]
  unfold execProbeEdge
  dsimp only
  rw [if_neg moves, if_neg (by rw [running, sensed]; exact Bool.noConfusion), claims]

/-- SET FLOOR that would end the hold (R102, R104, R108). -/
theorem exec_setFloor_of_end {floor : Nat} {s t : State} (inRange : floor ≤ 8) (taken : s.takes (.setFloor floor) t) (holding : t.run.hold = .holding)
    (ends : (t.withFloor floor).run.anyHolding = false) (quiet : t.writeActive = false) :
    exec (.setFloor floor) s =
      if t.cycleMapped then
        if t.injectedHeld then .next (((t.withFloor floor).occupy .floor).endHoldByFloor).settle
        else .next ((t.withFloor floor).endHoldByFloor.settle.respond .ok 0x31 (.floor none))
      else .fault .noOverlayPage := by
  refine (exec_of_takes rfl taken).trans ?_
  rw [if_neg (by omega), if_pos ⟨holding, ends⟩, if_neg (by simp [quiet])]
  rfl

/-- Settles O12: each of the rows by its check of the locations that it may access. -/
theorem unmappedPageFaults : Obligations.UnmappedPageFaults := by
  intro s t
  refine ⟨fun address write fetch selects may unmapped => ?_, fun level inRange taken unmapped => ?_, fun data owner running unmapped => ?_,
    fun line rising level moves sensed claims running unmapped => ?_, fun floor inRange taken holding ends quiet unmapped => ?_,
    fun byte stepKind taken claims holding quiet unmapped => ?_, fun tr b rest pending running activity todo own unmapped => ?_⟩
  · rw [exec_cyclePresented _ _ _ _ may, if_neg (by simp [unmapped])]
  · rw [exec_halt inRange taken, if_neg (by simp [unmapped])]
  · rw [exec_boardAccessEnd_of_bench running owner, if_neg (by simp [unmapped])]
  · rw [exec_probeEdge_of_claim moves sensed claims running, if_neg (by simp [unmapped])]
  · rw [exec_setFloor_of_end inRange taken holding ends quiet, if_neg (by simp [unmapped])]
  · refine (exec_of_takes rfl taken).trans ?_
    simp [releaseTarget, releaseMode, State.releaseTaken, ReleaseTarget.found, ReleaseTarget.remaining, RunControl.anyHolding, claims, holding, quiet, unmapped]
  · have next : s.nextOwnByte = some (b, rest, tr) := nextOwnByte_eq_some.2 ⟨activity, todo, own⟩
    simp [step, pending, State.idle, running, next, unmapped]

end Sys2Proof.Resets
end

section
/-! PROOFS. The bench link (chapter 11): a command's frame spells the command. -/

namespace Sys2Proof.WireRoundTrip

open Sys2Proof Sys2Proof.Machine Sys2Proof.BenchLink

/-! ### Fields -/

/-- A number that its bytes hold is read off them. -/
theorem num_one {n : Nat} (h : fitsByte n = true) (rest : List Byte) : Reader.num 1 (leBytes 1 n ++ rest) = some (n, rest) :=
  Reader.reads_num (by simpa [fitsByte] using h) rest

theorem num_two {n : Nat} (h : fitsTwo n = true) (rest : List Byte) : Reader.num 2 (leBytes 2 n ++ rest) = some (n, rest) :=
  Reader.reads_num (by simpa [fitsTwo] using h) rest

theorem num_three {n : Nat} (h : fitsThree n = true) (rest : List Byte) : Reader.num 3 (leBytes 3 n ++ rest) = some (n, rest) :=
  Reader.reads_num (by simpa [fitsThree] using h) rest

theorem num_four {n : Nat} (h : fitsFour n = true) (rest : List Byte) : Reader.num 4 (leBytes 4 n ++ rest) = some (n, rest) :=
  Reader.reads_num (by simpa [fitsFour] using h) rest

/-- A field that may be absent is read off its bytes: absence alone has every bit set (R188). -/
theorem opt_one {o : Option Nat} (h : fitsByteOpt o = true) (rest : List Byte) : Reader.opt 1 (optBytes 1 o ++ rest) = some (o, rest) :=
  Reader.reads_opt (fun n some => by simpa [fitsByteOpt, some] using h) rest

theorem opt_two {o : Option Nat} (h : fitsTwoOpt o = true) (rest : List Byte) : Reader.opt 2 (optBytes 2 o ++ rest) = some (o, rest) :=
  Reader.reads_opt (fun n some => by simpa [fitsTwoOpt, some] using h) rest

theorem byte_cons (b : Byte) (rest : List Byte) : Reader.byte (b :: rest) = some (b, rest) := rfl

theorem flag_cons (b : Bool) (rest : List Byte) : Reader.flag (flagByte b :: rest) = some (b, rest) := Reader.reads_flag b rest

/-- The last field of a command, read into it. -/
theorem reads_map {α β : Type} {x : Reader α} {bytes : List Byte} {a : α} (h : x.reads bytes a) (f : α → β) :
    (x >>= fun a => pure (f a)).reads bytes (f a) := fun rest => by rw [Reader.bind_apply, h rest]; rfl

/-- A list of bytes behind its count of two bytes. -/
theorem reads_data {data : List Byte} {k : Nat} (h : k + data.length ≤ Config.payloadLimit) :
    (Reader.counted 2 Reader.byte).reads (countedBytes 2 data (fun b => [b])) data :=
  Reader.reads_counted (by simp only [Config.payloadLimit] at h; omega) (fun b _ => Reader.reads_byte b)

/-! ### Records -/

theorem reads_window {w : WindowFields} (h : w.wf = true) : Reader.window.reads w.bytes w := by
  simp only [WindowFields.wf, Bool.and_eq_true] at h
  obtain ⟨⟨⟨⟨⟨lane, first⟩, last⟩, kind⟩, origin⟩, level⟩ := h
  intro rest
  simp only [Reader.window, WindowFields.bytes, Reader.bind_apply, List.append_assoc, List.cons_append, List.nil_append, flag_cons,
    num_one lane, num_two first, num_two last, num_one kind, opt_two origin, opt_one level, Option.bind_some, Reader.pure_apply]

/-- The level byte of a qualifier: 0xFF beside an absent line, whatever it says there (log 40). -/
theorem num_level {o : Option Nat} (h : o.all fitsByte = true) (rest : List Byte) :
    Reader.num 1 (optBytes 1 o ++ rest) = some (o.getD 255, rest) := by
  cases o with
  | none => exact num_one (n := 255) rfl rest
  | some n => exact num_one (by simpa using h) rest

theorem reads_watch {w : WatchFields} (h : w.wf = true) : Reader.watch.reads w.bytes w := by
  simp only [WatchFields.wf, Bool.and_eq_true] at h
  obtain ⟨⟨⟨⟨⟨⟨⟨mode, lane⟩, first⟩, last'⟩, probe⟩, countA⟩, countB⟩, level⟩ := h
  have line : fitsByteOpt (w.probe.map Prod.fst) = true := by
    cases qualifier : w.probe with
    | none => rfl
    | some p => simp_all [fitsByteOpt]
  have probeLevel : (w.probe.map Prod.snd).all fitsByte = true := by
    cases qualifier : w.probe with
    | none => rfl
    | some p => simp_all
  have both : (w.probe.map Prod.fst).map (fun l => (l, (w.probe.map Prod.snd).getD 255)) = w.probe := by cases w.probe <;> rfl
  have layout : w.bytes = leBytes 1 w.mode ++ (leBytes 1 w.lane ++ (leBytes 3 w.firstAddress ++ (leBytes 3 w.lastAddress ++ ([w.kinds] ++
      ([w.dataValue] ++ ([w.dataMask] ++ (optBytes 1 (w.probe.map Prod.fst) ++ (optBytes 1 (w.probe.map Prod.snd) ++ (leBytes 2 w.countA ++
      (leBytes 2 w.countB ++ ([flagByte w.chained] ++ ([w.actions] ++ (leBytes 1 w.holdLevel ++ [flagByte w.gateQualifies]))))))))))))) := by
    simp only [WatchFields.bytes, List.append_assoc, List.cons_append, List.nil_append]
  have result : { w with probe := (w.probe.map Prod.fst).map (fun l => (l, (w.probe.map Prod.snd).getD 255)) } = w :=
    congrArg (fun p => { w with probe := p }) both
  have last := reads_map (Reader.reads_flag w.gateQualifies) (fun gate =>
    { w with probe := (w.probe.map Prod.fst).map (fun l => (l, (w.probe.map Prod.snd).getD 255)), gateQualifies := gate })
  rw [result] at last
  rw [layout]
  exact Reader.reads_bind (num_one mode) <| Reader.reads_bind (num_one lane) <| Reader.reads_bind (num_three first) <|
    Reader.reads_bind (num_three last') <| Reader.reads_bind (Reader.reads_byte _) <| Reader.reads_bind (Reader.reads_byte _) <|
    Reader.reads_bind (Reader.reads_byte _) <| Reader.reads_bind (opt_one line) <| Reader.reads_bind (num_level probeLevel) <|
    Reader.reads_bind (num_two countA) <| Reader.reads_bind (num_two countB) <| Reader.reads_bind (Reader.reads_flag _) <|
    Reader.reads_bind (Reader.reads_byte _) <| Reader.reads_bind (num_one level) last

theorem reads_probe {p : ProbeFields} (h : p.wf = true) : Reader.probe.reads p.bytes p := by
  simp only [ProbeFields.wf, Bool.and_eq_true] at h
  obtain ⟨sense, level⟩ := h
  intro rest
  simp only [Reader.probe, ProbeFields.bytes, Reader.bind_apply, List.append_assoc, List.cons_append, List.nil_append, flag_cons, num_one sense,
    opt_one level, Option.bind_some, Reader.pure_apply]

theorem reads_hold {f : HoldFields} (h : f.wf = true) : Reader.hold.reads f.bytes f := by
  simp only [HoldFields.wf, Bool.and_eq_true] at h
  obtain ⟨limit, threshold⟩ := h
  have enables : (f.selectEnables.setWidth 8).setWidth 4 = f.selectEnables := by simp
  intro rest
  simp only [Reader.hold, HoldFields.bytes, Reader.bind_apply, List.append_assoc, List.cons_append, List.nil_append, flag_cons, byte_cons,
    num_two limit, num_one threshold, Option.bind_some, Reader.pure_apply, enables]

theorem reads_trace {f : TraceFields} (h : f.wf = true) : Reader.trace.reads f.bytes f := by
  simp only [TraceFields.wf, Bool.and_eq_true] at h
  obtain ⟨⟨mode, post⟩, watermark⟩ := h
  intro rest
  simp only [Reader.trace, TraceFields.bytes, Reader.bind_apply, List.append_assoc, List.cons_append, List.nil_append, flag_cons, num_one mode,
    num_two post, num_two watermark, Option.bind_some, Reader.pure_apply]

theorem reads_submit {f : SubmitFields} (h : f.wf = true) : Reader.submit.reads f.bytes f := by
  simp only [SubmitFields.wf, Bool.and_eq_true] at h
  obtain ⟨⟨⟨⟨⟨⟨operation, lane⟩, address⟩, length⟩, slot⟩, offset⟩, policy⟩ := h
  intro rest
  simp only [Reader.submit, SubmitFields.bytes, Reader.bind_apply, List.append_assoc, List.cons_append, List.nil_append, flag_cons, num_one operation,
    num_one lane, num_three address, num_four length, num_one slot, num_two offset, num_one policy, Option.bind_some, Reader.pure_apply]

/-- A list of pairs behind its count, where a frame has room for it. -/
theorem counted_pairs {l : List Pair} (short : l.length < 256) (h : l.all Pair.wf = true) (rest : List Byte) :
    Reader.counted 1 Reader.pair (countedBytes 1 l pairBytes ++ rest) = some (l, rest) :=
  Reader.reads_counted (by simpa using short)
    (fun p mem => Reader.reads_pair (by simpa [Pair.wf, fitsFour] using List.all_eq_true.1 h p mem)) rest

theorem counted_sectors {l : List SectorRun} (short : l.length < 256) (h : l.all (fun r => fitsFour r.size && fitsTwo r.count) = true)
    (rest : List Byte) : Reader.counted 1 Reader.sector (countedBytes 1 l sectorBytes ++ rest) = some (l, rest) := by
  refine Reader.reads_counted (by simpa using short) (fun r mem => ?_) rest
  have fits := List.all_eq_true.1 h r mem
  simp only [fitsFour, fitsTwo, Bool.and_eq_true, decide_eq_true_eq] at fits
  exact Reader.reads_sector fits.1 fits.2

theorem pair_append {p : Pair} (h : p.wf = true) (rest : List Byte) : Reader.pair (pairBytes p ++ rest) = some (p, rest) :=
  Reader.reads_pair (by simpa [Pair.wf, fitsFour] using h) rest

theorem reads_profile {p : ProfileFields} (h : p.wf = true) : Reader.profile.reads p.bytes p := by
  simp only [ProfileFields.wf, Bool.and_eq_true, decide_eq_true_eq] at h
  obtain ⟨⟨⟨⟨⟨⟨⟨⟨⟨⟨⟨⟨⟨⟨cls, base⟩, size⟩, unlock⟩, program⟩, sectorErase⟩, laneErase⟩, reset⟩, method⟩, bit⟩, programTime⟩, sectorTime⟩, laneTime⟩,
    sectors⟩, room⟩ := h
  simp only [Config.payloadLimit] at room
  have layout : p.bytes = leBytes 1 p.cls ++ (leBytes 3 p.base ++ (leBytes 4 p.size ++ ([p.erased] ++ (countedBytes 1 p.unlock pairBytes ++
      (pairBytes p.program ++ (countedBytes 1 p.sectorErase pairBytes ++ ([p.sectorCommand] ++ (countedBytes 1 p.laneErase pairBytes ++
      (pairBytes p.resetPair ++ (leBytes 1 p.pollMethod ++ (leBytes 1 p.pollBit ++ (leBytes 2 p.programTimeout ++ (leBytes 2 p.sectorTimeout ++
      (leBytes 2 p.laneTimeout ++ countedBytes 1 p.sectors sectorBytes)))))))))))))) := by
    simp only [ProfileFields.bytes, List.append_assoc]
  have last : (do let sectors ← Reader.counted 1 Reader.sector; return { p with sectors }).reads (countedBytes 1 p.sectors sectorBytes) p :=
    reads_map (counted_sectors (by omega) sectors) (fun sectors => { p with sectors := sectors })
  rw [layout]
  exact Reader.reads_bind (num_one cls) <| Reader.reads_bind (num_three base) <| Reader.reads_bind (num_four size) <|
    Reader.reads_bind (Reader.reads_byte _) <| Reader.reads_bind (counted_pairs (by omega) unlock) <| Reader.reads_bind (pair_append program) <|
    Reader.reads_bind (counted_pairs (by omega) sectorErase) <| Reader.reads_bind (Reader.reads_byte _) <|
    Reader.reads_bind (counted_pairs (by omega) laneErase) <| Reader.reads_bind (pair_append reset) <| Reader.reads_bind (num_one method) <|
    Reader.reads_bind (num_one bit) <| Reader.reads_bind (num_two programTime) <| Reader.reads_bind (num_two sectorTime) <|
    Reader.reads_bind (num_two laneTime) last

/-! ### Commands -/

/-- A command whose payload is one byte that holds its field. -/
theorem spells_one {code : Byte} {f : Nat → Instr} (reader : Reader.command code = some (do return f (← Reader.num 1))) {n : Nat}
    (h : fitsByte n = true) : (Frame.whole code (leBytes 1 n)).spells = .command (f n) :=
  Frame.spells_of_reads reader (reads_map (num_one h) f)

/-- A command whose payload is one record, and one that has an index before it. -/
theorem spells_record {code : Byte} {α : Type} {x : Reader α} {f : α → Instr} (reader : Reader.command code = some (do return f (← x)))
    {bytes : List Byte} {a : α} (h : x.reads bytes a) : (Frame.whole code bytes).spells = .command (f a) :=
  Frame.spells_of_reads reader (reads_map h f)

theorem spells_indexed {code : Byte} {α : Type} {x : Reader α} {f : Nat → α → Instr}
    (reader : Reader.command code = some (do let i ← Reader.num 1; return f i (← x))) {bytes : List Byte} {n : Nat} {a : α} (fits : fitsByte n = true)
    (h : x.reads bytes a) : (Frame.whole code (leBytes 1 n ++ bytes)).spells = .command (f n a) :=
  Frame.spells_of_reads reader (Reader.reads_bind (num_one fits) (reads_map h (f n)))

/-- A command with no field. -/
theorem spells_bare {code : Byte} {c : Instr} (reader : Reader.command code = some (pure c)) : (Frame.whole code []).spells = .command c :=
  Frame.spells_of_reads reader (Reader.reads_pure c)

theorem spells_setNoticeMask (mask : BitVec 16) : (Frame.whole 0x03 (leBytes 2 mask.toNat)).spells = .command (.setNoticeMask mask) := by
  have reads := reads_map (num_two (n := mask.toNat) (by simpa [fitsTwo] using mask.isLt)) (fun m => Instr.setNoticeMask (BitVec.ofNat 16 m))
  rw [BitVec.ofNat_toNat, BitVec.setWidth_eq] at reads
  exact Frame.spells_of_reads rfl reads

/-- Settles O6: each bench command by its own reader; a row that is no bench command has no code of the table. -/
theorem frameSpellsItsCommand : Obligations.FrameSpellsItsCommand := by
  intro c bench
  have wf : Instr.wf c = true := (Bool.and_eq_true_iff.1 bench).1
  cases c
  case unknownCommand code payload =>
    rw [not_benchCommand_unknownCommand] at bench
    cases bench
  case powerOn | prstAsserted | prstReleased | partReset | powerOnSurveyEnd | overlaySurveyEnd | lineSurveyEnd | cyclePresented | lostCycle
      | boardAccessEnd | boardResetSeen | boardResetReleased | supplyLost | supplyReturned | probeEdge | holdLimitExpiry | jobStart
      | readyLineAsserted | pollTimeout | lateFrame | overlongFrame | startByteNoRoom | frameError | linkRateChange | startByteReceived
      | checkByteReceived =>
    rw [not_benchCommand_of_code_zero rfl] at bench
    cases bench
  case identify | readNotices | resetPart | surveyOverlay | readRepairMap | resetTarget | resume | rehearse | endRehearsal | listClaims | traceHalt
      | traceClear | traceStatus | surveyLines | readLineMap | clearLineMap | collect | jobStatus | abortEngine => exact spells_bare rfl
  case setLinkRate | clearWindow | readWindow | readWatch | readProbe | setFloor | halt | traceArm | drain | sealSlot | freeSlot | slotStatus
      | readProfile | clearProfile | cancelJob => exact spells_one rfl wf
  case setNoticeMask mask => exact spells_setNoticeMask mask
  case setFloat byte => exact spells_record rfl (Reader.reads_byte byte)
  case setHoldOptions f => exact spells_record rfl (reads_hold wf)
  case traceSetup f => exact spells_record rfl (reads_trace wf)
  case submit f => exact spells_record rfl (reads_submit wf)
  case setWindow index f =>
    obtain ⟨fits, fields⟩ := Bool.and_eq_true_iff.1 wf
    exact spells_indexed rfl fits (reads_window fields)
  case setWatch unit f =>
    obtain ⟨fits, fields⟩ := Bool.and_eq_true_iff.1 wf
    exact spells_indexed rfl fits (reads_watch fields)
  case setProbe line f =>
    obtain ⟨fits, fields⟩ := Bool.and_eq_true_iff.1 wf
    exact spells_indexed rfl fits (reads_probe fields)
  case setProfile lane f =>
    obtain ⟨fits, fields⟩ := Bool.and_eq_true_iff.1 wf
    exact spells_indexed rfl fits (reads_profile fields)
  case loadSlot slot data =>
    obtain ⟨fits, short⟩ := Bool.and_eq_true_iff.1 wf
    exact spells_indexed rfl fits (reads_data (of_decide_eq_true short))
  case writeOverlay page offset data =>
    simp only [Instr.wf, Bool.and_eq_true, decide_eq_true_eq] at wf
    obtain ⟨⟨fitsPage, fitsOffset⟩, short⟩ := wf
    refine Frame.spells_of_reads rfl ?_
    rw [show Instr.payload (.writeOverlay page offset data) = leBytes 1 page ++ (leBytes 1 offset ++ countedBytes 2 data (fun b => [b])) from
      List.append_assoc ..]
    exact Reader.reads_bind (num_one fitsPage) (Reader.reads_bind (num_one fitsOffset) (reads_map (reads_data short) _))
  case readOverlay page offset count =>
    simp only [Instr.wf, Bool.and_eq_true] at wf
    obtain ⟨⟨fitsPage, fitsOffset⟩, fitsCount⟩ := wf
    refine Frame.spells_of_reads rfl ?_
    rw [show Instr.payload (.readOverlay page offset count) = leBytes 1 page ++ (leBytes 1 offset ++ leBytes 2 count) from List.append_assoc ..]
    exact Reader.reads_bind (num_one fitsPage) (Reader.reads_bind (num_one fitsOffset) (reads_map (num_two fitsCount) _))
  case release source mode byte stepKind =>
    simp only [Instr.wf, Bool.and_eq_true] at wf
    obtain ⟨⟨fitsSource, fitsMode⟩, fitsKind⟩ := wf
    refine Frame.spells_of_reads rfl ?_
    rw [show Instr.payload (.release source mode byte stepKind) =
      leBytes 1 source ++ (leBytes 1 mode ++ (optByteBytes byte ++ optBytes 1 stepKind)) by simp only [Instr.payload, List.append_assoc]]
    exact Reader.reads_bind (num_one fitsSource) (Reader.reads_bind (num_one fitsMode) (Reader.reads_bind (Reader.reads_optByte byte)
      (reads_map (opt_one fitsKind) _)))
  case inject address lane kind data =>
    simp only [Instr.wf, Bool.and_eq_true] at wf
    obtain ⟨⟨fitsAddress, fitsLane⟩, fitsKind⟩ := wf
    refine Frame.spells_of_reads rfl ?_
    rw [show Instr.payload (.inject address lane kind data) = leBytes 3 address ++ (leBytes 1 lane ++ (leBytes 1 kind ++ optByteBytes data)) by
      simp only [Instr.payload, List.append_assoc]]
    exact Reader.reads_bind (num_three fitsAddress) (Reader.reads_bind (num_one fitsLane) (Reader.reads_bind (num_one fitsKind)
      (reads_map (Reader.reads_optByte data) _)))
  case peek path address count lane =>
    simp only [Instr.wf, Bool.and_eq_true] at wf
    obtain ⟨⟨⟨fitsPath, fitsAddress⟩, fitsCount⟩, fitsLane⟩ := wf
    refine Frame.spells_of_reads rfl ?_
    rw [show Instr.payload (.peek path address count lane) = leBytes 1 path ++ (leBytes 3 address ++ (leBytes 2 count ++ leBytes 1 lane)) by
      simp only [Instr.payload, List.append_assoc]]
    exact Reader.reads_bind (num_one fitsPath) (Reader.reads_bind (num_three fitsAddress) (Reader.reads_bind (num_two fitsCount)
      (reads_map (num_one fitsLane) _)))
  case poke path address data lane =>
    simp only [Instr.wf, Bool.and_eq_true, decide_eq_true_eq] at wf
    obtain ⟨⟨⟨fitsPath, fitsAddress⟩, short⟩, fitsLane⟩ := wf
    refine Frame.spells_of_reads rfl ?_
    rw [show Instr.payload (.poke path address data lane) =
      leBytes 1 path ++ (leBytes 3 address ++ (countedBytes 2 data (fun b => [b]) ++ leBytes 1 lane)) by simp only [Instr.payload, List.append_assoc]]
    exact Reader.reads_bind (num_one fitsPath) (Reader.reads_bind (num_three fitsAddress) (Reader.reads_bind (reads_data short)
      (reads_map (num_one fitsLane) _)))

end Sys2Proof.WireRoundTrip
end

section
/-! PROOFS. The Window Table's commands, the float byte, resolution, and what presentation fills in for a target cycle (chapters 1 and 2). -/

namespace Sys2Proof.WindowRows

open Sys2Proof Sys2Proof.Machine Sys2Proof.Resets

/-! ### Codes (R188) -/

theorem laneOfCode_of_lt {n : Nat} (h : n < 4) : laneOfCode n = some ⟨n, h⟩ := dif_pos h

theorem laneOfCode_of_not_lt {n : Nat} (h : ¬n < 4) : laneOfCode n = none := dif_neg h

/-- A lane selector's code: a lane 0 to 3, or 8 for ANY. -/
theorem laneSel_ofCode (n : Nat) : LaneSel.ofCode n = if h : n < 4 then some (.lane ⟨n, h⟩) else if n = 8 then some .any else none := by
  unfold LaneSel.ofCode
  by_cases inRange : n < 4
  · rw [if_neg (by omega), dif_pos inRange, laneOfCode_of_lt inRange]
    rfl
  · rw [dif_neg inRange, laneOfCode_of_not_lt inRange]
    rfl

theorem route_ofCode (n : Nat) : Route.ofCode n = match n with
    | 0 => some .pass | 1 => some .overlay | 2 => some .overlayRo | 3 => some .shadow | 4 => some .guard | 5 => some .float | _ => none := by
  match n with
  | 0 => rfl
  | 1 => rfl
  | 2 => rfl
  | 3 => rfl
  | 4 => rfl
  | 5 => rfl
  | _ + 6 => rfl

theorem laneSel_ofCode_of_bad {n : Nat} (above : 3 < n) (notAny : n ≠ 8) : LaneSel.ofCode n = none := by
  rw [laneSel_ofCode, dif_neg (by omega), if_neg notAny]

theorem route_ofCode_of_bad {n : Nat} (above : 5 < n) : Route.ofCode n = none := by
  obtain ⟨k, rfl⟩ : ∃ k, n = k + 6 := ⟨n - 6, by omega⟩
  rfl

/-! ### SET WINDOW -/

/-- The guard level that R36 allows to a kind. -/
theorem guardLevel_ok_iff (l : Option Nat) : l.all (fun l => decide (l ≤ 7)) = true ↔ ∀ n, l = some n → n ≤ 7 := by
  cases l <;> simp

/-- The record that SET WINDOW stores, the fields being in order (R35). -/
theorem windowRecord_of_ok {w : WindowFields} {lane : LaneSel} {kind : Route} (laneCode : LaneSel.ofCode w.lane = some lane)
    (kindCode : Route.ofCode w.kind = some kind) (order : w.firstPage ≤ w.lastPage) (last : w.lastPage ≤ 4095)
    (level : kind = .guard → ∀ l, w.guardLevel = some l → l ≤ 7) :
    windowRecord w = some { enabled := w.enabled, lane := lane, firstPage := w.firstPage, lastPage := w.lastPage, kind := kind,
                            origin := if kind.isOverlay then w.origin else none, capture := w.capture,
                            guardLevel := if kind = .guard then w.guardLevel else none } := by
  simp only [windowRecord, laneCode, kindCode]
  exact if_pos ⟨by omega, last, order, fun guard => (guardLevel_ok_iff _).2 (level guard)⟩

/-- R36 refuses the fields. -/
theorem windowRecord_of_bad {w : WindowFields}
    (bad : 4095 < w.firstPage ∨ 4095 < w.lastPage ∨ w.lastPage < w.firstPage ∨ (3 < w.lane ∧ w.lane ≠ 8) ∨ 5 < w.kind ∨
        (w.kind = 4 ∧ ∃ l, w.guardLevel = some l ∧ 7 < l)) : windowRecord w = none := by
  unfold windowRecord
  split
  · next lane kind laneCode kindCode =>
    refine if_neg fun ⟨first, last, order, level⟩ => ?_
    rcases bad with h | h | h | ⟨h, notAny⟩ | h | ⟨guard, l, given, h⟩
    · omega
    · omega
    · omega
    · rw [laneSel_ofCode_of_bad h notAny] at laneCode
      nomatch laneCode
    · rw [route_ofCode_of_bad h] at kindCode
      nomatch kindCode
    · rw [guard] at kindCode
      have := (guardLevel_ok_iff _).1 (level (Option.some.inj kindCode).symm) l given
      omega
  · rfl

theorem exec_setWindow_outOfRange {index : Nat} {w : WindowFields} {s t : State} (taken : s.takes (.setWindow index w) t) (out : ¬index < 16) :
    exec (.setWindow index w) s = .next (t.respond .badValue 0x10 .empty) :=
  (exec_of_takes rfl taken).trans (dif_neg out)

theorem exec_setWindow_none {index : Nat} {w : WindowFields} {s t : State} (taken : s.takes (.setWindow index w) t) (inRange : index < 16)
    (record : windowRecord w = none) : exec (.setWindow index w) s = .next (t.respond .badValue 0x10 .empty) := by
  refine (exec_of_takes rfl taken).trans ?_
  rw [dif_pos inRange, record]
  rfl

/-- SET WINDOW with its fields in order: a commanded survey bars an overlay kind, then the room check, then the record is written (R37, R38). -/
theorem exec_setWindow_some {index : Nat} {w : WindowFields} {s t : State} (taken : s.takes (.setWindow index w) t) (inRange : index < 16) {r : Window}
    (record : windowRecord w = some r) :
    exec (.setWindow index w) s = .next (
      if r.kind.isOverlay && decide (t.overlay.survey = .commanded) then t.respond .overlayBusy 0x10 .empty
      else if r.fits t.overlay.capacity then ({ t with windows := t.windows.set index r inRange } : State).respond .ok 0x10 .empty
      else t.respond .noRoom 0x10 .empty) := by
  refine (exec_of_takes rfl taken).trans ?_
  rw [dif_pos inRange, record]
  dsimp only
  split
  · rfl
  · split <;> rfl

/-- A record of an overlay kind with an origin fits where its last page has a physical page; with none it does not (R38; log 33). -/
theorem fits_iff {w : Window} (overlay : w.kind.isOverlay = true) (capacity : Nat) :
    w.fits capacity = true ↔ ∃ o, w.origin = some o ∧ o + (w.lastPage - w.firstPage) < capacity := by
  simp [Window.fits, overlay, Option.any_eq_true]

theorem fits_of_not_overlay {w : Window} (h : w.kind.isOverlay = false) (capacity : Nat) : w.fits capacity = true := by
  simp [Window.fits, h]

/-- Settles O20: the fields of the record first, then the survey, then the room. -/
theorem setWindowWritesOrRefuses : Obligations.SetWindowWritesOrRefuses := by
  refine ⟨laneSel_ofCode, route_ofCode, fun index w s t taken => ⟨fun bad => ?_, fun lane kind inRange laneCode kindCode order last level => ?_⟩⟩
  · by_cases inRange : index < 16
    · exact exec_setWindow_none taken inRange (windowRecord_of_bad (bad.resolve_left (by omega)))
    · exact exec_setWindow_outOfRange taken inRange
  · have meaning := exec_setWindow_some taken inRange (windowRecord_of_ok laneCode kindCode order last level)
    refine ⟨fun overlay survey => ?_, fun overlay survey noRoom => ?_, fun room => ?_⟩
    · rw [meaning, if_pos (by simp [overlay, survey])]
    · rw [meaning, if_neg (by simp [survey]), if_neg]
      rw [fits_iff (by exact overlay)]
      rintro ⟨o, origin, below⟩
      have absent := noRoom o ((if_pos overlay).symm.trans origin)
      dsimp only at below
      omega
    · have free : ¬(kind.isOverlay && decide (t.overlay.survey = .commanded)) = true := by
        rcases room with no | ⟨survey, -⟩
        · simp [no]
        · simp [survey]
      rw [meaning, if_neg free, if_pos]
      cases overlay : kind.isOverlay with
      | false => exact fits_of_not_overlay overlay _
      | true =>
        obtain ⟨-, o, origin, below⟩ := room.resolve_left (by simp [overlay])
        exact (fits_iff (by exact overlay) _).2 ⟨o, by simp [origin], below⟩

/-! ### READ WINDOW, SET FLOAT -/

/-- Settles O22: each command's own check, then its answer. -/
theorem readWindowAndSetFloat : Obligations.ReadWindowAndSetFloat := by
  refine ⟨fun index s t taken => ⟨fun inRange => ?_, fun above => ?_⟩, fun byte s t taken => ?_⟩
  · exact (exec_of_takes rfl taken).trans (dif_pos inRange)
  · exact (exec_of_takes rfl taken).trans (dif_neg (by omega))
  · exact (exec_of_takes rfl taken).trans rfl

/-! ### Resolution -/

theorem covers_lane_iff (l : LaneSel) (lane : Lane) : l.covers lane = true ↔ l = .any ∨ ∃ n, l = .lane n ∧ lane = some n := by
  cases l <;> simp [LaneSel.covers]

/-- A cycle matches a record (R26). -/
theorem covers_iff (w : Window) (page : Nat) (lane : Lane) :
    w.covers page lane = true ↔ w.enabled = true ∧ w.firstPage ≤ page ∧ page ≤ w.lastPage ∧ (w.lane = .any ∨ ∃ n, w.lane = .lane n ∧ lane = some n) := by
  simp only [Window.covers, Bool.and_eq_true, decide_eq_true_eq, covers_lane_iff, and_assoc]

theorem governing_of_none {ws : Vector Window 16} {page : Nat} {lane : Lane} (none' : ∀ i : Fin 16, ws[i].covers page lane = false) :
    governing ws page lane = none := by
  refine List.find?_eq_none.2 fun i _ => ?_
  rw [none' i]
  exact Bool.false_ne_true

/-- The lowest-indexed record that the cycle matches governs it (R27). -/
theorem governing_of_lowest {ws : Vector Window 16} {page : Nat} {lane : Lane} {i : Fin 16} (covers : ws[i].covers page lane = true)
    (lowest : ∀ j : Fin 16, j < i → ws[j].covers page lane = false) : governing ws page lane = some i := by
  have at_i : ws[(List.finRange 16)[i.val]'(by simp)].covers page lane = true := by simpa using covers
  refine List.find?_eq_some_iff_getElem.2 ⟨covers, i.val, by simp, by simp, fun j below => ?_⟩
  have := lowest ⟨j, by omega⟩ below
  simpa using this

theorem isOverlay_iff (k : Route) : k.isOverlay = true ↔ k = .overlay ∨ k = .overlayRo ∨ k = .shadow := by
  cases k <;> simp [Route.isOverlay]

theorem isOverlay_eq_false {k : Route} (h : k = .pass ∨ k = .guard ∨ k = .float) : k.isOverlay = false := by
  rcases h with rfl | rfl | rfl <;> rfl

theorem resolve_of_none {ws : Vector Window 16} {address : Nat} {lane : Lane} (h : governing ws (address / 256) lane = none) :
    resolve ws address lane = { window := none, route := .pass, location := none, capture := true, guardLevel := none } := by
  rw [resolve, show governing ws (address / Config.pageSize) lane = none from h]

/-- What the governing record gives a cycle (R28, R30, R31, R34). -/
theorem resolve_of_some {ws : Vector Window 16} {address : Nat} {lane : Lane} {i : Fin 16} (h : governing ws (address / 256) lane = some i) :
    resolve ws address lane =
      { window := some i, route := ws[i].kind,
        location := if ws[i].kind.isOverlay then
            some { page := ws[i].origin.getD 0 + (address / 256 - ws[i].firstPage), offset := address % 256 } else none,
        capture := ws[i].capture, guardLevel := ws[i].guardLevel } := by
  rw [resolve, show governing ws (address / Config.pageSize) lane = some i from h]
  rfl

/-- Settles O23: the search for the governing record stops at the lowest index that matches. -/
theorem resolutionTakesLowestWindow : Obligations.ResolutionTakesLowestWindow := by
  refine fun ws address lane => ⟨fun w => covers_iff w _ lane, fun none' => resolve_of_none (governing_of_none none'), fun i covers lowest => ?_⟩
  rw [resolve_of_some (governing_of_lowest covers lowest)]
  refine ⟨rfl, rfl, rfl, rfl, fun overlay o origin => ?_, fun other => ?_⟩
  · dsimp only
    rw [if_pos ((isOverlay_iff _).2 overlay), origin]
    rfl
  · dsimp only
    rw [isOverlay_eq_false other]
    exact if_neg Bool.false_ne_true

/-! ### What presentation fills in -/

theorem presented_write {d : Byte} (wired status : Bool) : Kind.presented (some d) wired status = .write := rfl

/-- A cycle without write data is a FETCH where the fetch-status input is wired and says so, else a READ (R2). -/
theorem presented_read (wired status : Bool) : Kind.presented none wired status = if wired && status then .fetch else .read := by
  simp [Kind.presented]

/-- The lane is the lowest-numbered select that is asserted (R3). -/
theorem laneOfSelects_iff : ∀ (asserted : BitVec 4) (n : Fin 4),
    laneOfSelects asserted = some n ↔ asserted.getLsbD n.val = true ∧ ∀ m : Fin 4, m < n → asserted.getLsbD m.val = false := by decide

theorem contended_iff : ∀ asserted : BitVec 4,
    contended asserted = true ↔ ∃ m n : Fin 4, m ≠ n ∧ asserted.getLsbD m.val = true ∧ asserted.getLsbD n.val = true := by decide

/-- The four sampled levels, line n in bit n (R91). -/
theorem probeLevels_bit (s : State) (i : Fin 4) : s.probeLevels.getLsbD i.val = s.probes[i].level := by
  have bits : ∀ a b c d : Bool, ∀ i : Fin 4, ((if a then 1#4 else 0) ||| (if b then 2#4 else 0) ||| (if c then 4#4 else 0) |||
      (if d then 8#4 else 0)).getLsbD i.val = #v[a, b, c, d][i] := by decide
  rw [State.probeLevels, bits]
  fin_cases i <;> rfl

/-- The gate result: every GATE unit that qualifies the trace is OPEN (R79). -/
theorem gatesOpen_iff (units : Vector WatchUnit 4) :
    gatesOpen units = true ↔ ∀ i : Fin 4, units[i].mode = .gate → units[i].gateQualifies = some true → units[i].state = .opened := by
  have unit : ∀ u : WatchUnit, (!(decide (u.mode = .gate) && u.gateQualifies.getD false) || decide (u.state = .opened)) = true ↔
      (u.mode = .gate → u.gateQualifies = some true → u.state = .opened) := by
    intro u
    cases u.gateQualifies <;> simp [imp_iff_not_or, or_assoc]
  simp only [gatesOpen, List.all_eq_true, unit, Vector.mem_toList_iff, Vector.mem_iff_getElem]
  exact ⟨fun h i => h _ ⟨i.val, i.isLt, rfl⟩, fun h u ⟨i, below, at_i⟩ => at_i ▸ h ⟨i, below⟩⟩

/-- Settles O24: each field of a presented cycle by the lemma about the function that fills it. -/
theorem presentationFillsCycle : Obligations.PresentationFillsCycle := by
  intro s address write fetch selects
  refine ⟨rfl, rfl, rfl, rfl, rfl, rfl, rfl, rfl, rfl, fun d given => ?_, fun absent => ?_, laneOfSelects_iff _, contended_iff _, rfl, rfl, rfl, rfl,
    probeLevels_bit s, gatesOpen_iff _⟩
  · subst given
    exact ⟨rfl, rfl⟩
  · subst absent
    cases wired : s.port.fetchWired <;> cases fetch <;> simp [State.targetCycle, State.present, presented_read, wired]

end Sys2Proof.WindowRows
end

section
/-! PROOFS. The commands on overlay memory, the bytes that they move, and the logical map (chapter 3). -/

namespace Sys2Proof.OverlayRows

open Sys2Proof Sys2Proof.Machine Sys2Proof.Resets Sys2Proof.MappedOverlay

/-! ### SURVEY OVERLAY, READ REPAIR MAP -/

theorem surveying_iff (s : State) : s.surveying = true ↔ s.overlay.survey = .commanded := decide_eq_true_iff

/-- SURVEY OVERLAY: its two refusals, then the survey starts (R52). -/
theorem exec_surveyOverlay {s t : State} (taken : s.takes .surveyOverlay t) :
    exec .surveyOverlay s = .next (
      if t.overlay.survey = .commanded then t.respond .overlayBusy 0x18 .empty
      else if t.windowsLive then t.respond .windowsLive 0x18 .empty
      else ({ t with overlay := { t.overlay with survey := .commanded } } : State).respond .ok 0x18 .empty) := by
  refine (exec_of_takes rfl taken).trans ?_
  by_cases runs : t.overlay.survey = .commanded
  · rw [if_pos ((surveying_iff t).2 runs), if_pos runs]
    rfl
  · rw [if_neg (mt (surveying_iff t).1 runs), if_neg runs]
    split <;> rfl

theorem windowsLive_eq_false_iff (t : State) : t.windowsLive = false ↔
    (∀ i : Fin 16, t.windows[i].enabled = true → t.windows[i].kind.isOverlay = false) ∧ ∀ c, t.port.inFlight = some c → c.route.isOverlay = false := by
  rw [windowsLive_iff]
  refine and_congr_left fun _ => ?_
  simp only [Vector.mem_toList_iff, Vector.mem_iff_getElem]
  exact ⟨fun h i => h _ ⟨i.val, i.isLt, rfl⟩, fun h w ⟨i, below, at_i⟩ => at_i ▸ h ⟨i, below⟩⟩

/-- Settles O25: by the three outcomes of SURVEY OVERLAY; READ REPAIR MAP only answers. -/
theorem overlaySurveyCommands : Obligations.OverlaySurveyCommands := by
  refine ⟨fun s t taken => ⟨fun runs => ?_, fun idle live => ?_, fun idle windows cycle => ?_⟩, fun s t taken => (exec_of_takes rfl taken).trans rfl⟩
  · rw [exec_surveyOverlay taken, if_pos runs]
  · have lives : t.windowsLive = true := by
      by_contra quiet
      obtain ⟨windows, cycle⟩ := (windowsLive_eq_false_iff t).1 (Bool.eq_false_of_not_eq_true quiet)
      rcases live with ⟨i, enabled, overlay⟩ | ⟨c, inFlight, overlay⟩
      · exact Bool.false_ne_true ((windows i enabled).symm.trans overlay)
      · exact Bool.false_ne_true ((cycle c inFlight).symm.trans overlay)
    rw [exec_surveyOverlay taken, if_neg idle, if_pos lives]
  · rw [exec_surveyOverlay taken, if_neg idle, (windowsLive_eq_false_iff t).2 ⟨windows, cycle⟩]
    rfl

/-! ### The bytes of a command -/

/-- A byte of READ OVERLAY or WRITE OVERLAY (R56, R57). -/
def overlayByte (page offset : Nat) (write : Option Byte) : TransferByte :=
  { address := page * 256 + offset, write := write, route := .overlay, location := some { page := page, offset := offset } }

theorem overlayBytes_cons (page offset : Nat) (w : Option Byte) (l : List (Option Byte)) :
    overlayBytes page offset (w :: l) = overlayByte page offset w :: overlayBytes page (offset + 1) l := rfl

/-- The bytes stand at consecutive offsets. -/
theorem overlayBytes_eq_mapIdx (page : Nat) (l : List (Option Byte)) (offset : Nat) :
    overlayBytes page offset l = l.mapIdx (fun i w => overlayByte page (offset + i) w) := by
  induction l generalizing offset with
  | nil => rfl
  | cons w l ih =>
    rw [overlayBytes_cons, List.mapIdx_cons, ih]
    simp only [Nat.add_zero, Nat.add_assoc, Nat.add_comm 1]

theorem overlayBytes_write (page offset : Nat) (data : List Byte) :
    overlayBytes page offset (data.map some) = data.mapIdx (fun i d => overlayByte page (offset + i) (some d)) := by
  rw [overlayBytes_eq_mapIdx]
  refine List.ext_getElem (by simp) fun i below _ => ?_
  simp

theorem overlayBytes_read (page offset count : Nat) :
    overlayBytes page offset (List.replicate count none) = (List.range count).map (fun i => overlayByte page (offset + i) none) := by
  rw [overlayBytes_eq_mapIdx]
  refine List.ext_getElem (by simp) fun i below _ => ?_
  simp

/-- A bytewise command leaves its bytes to steps of their own (R58; log 38). -/
theorem runTransfer_bytewise {b : TransferByte} (overlay : b.route = .overlay) (rest : List TransferByte) {tr : Transfer}
    (bytewise : tr.bytewise = true) (s : State) : s.runTransfer (b :: rest) tr = s.occupy (.transfer { tr with todo := b :: rest }) := by
  rw [State.runTransfer, if_neg, if_pos bytewise]
  rw [TransferByte.boardBound, overlay]
  exact Bool.false_ne_true

/-- The other commands make a byte that needs no bus and go on with the next (R143). -/
theorem runTransfer_atOnce {b : TransferByte} (overlay : b.route = .overlay) (rest : List TransferByte) {tr : Transfer}
    (atOnce : tr.bytewise = false) (s : State) :
    s.runTransfer (b :: rest) tr = (s.transferWrite b).runTransfer rest (tr.made' b (s.transferRead b)) := by
  rw [State.runTransfer, if_neg, if_neg (by simp [atOnce])]
  rw [TransferByte.boardBound, overlay]
  exact Bool.false_ne_true

/-! ### Bytes written -/

/-- Overlay memory after bytes written at consecutive offsets of a logical page. -/
def storeBytes (page : Nat) : Nat → List Byte → Overlay → Overlay
  | _, [], o => o
  | offset, d :: data, o => storeBytes page (offset + 1) data (o.writeByte { page := page, offset := offset } d)

theorem runTransfer_write (page : Nat) (data : List Byte) (offset : Nat) (tr : Transfer) (form : tr.form = .writeOverlay)
    (atOnce : tr.bytewise = false) (s : State) :
    s.runTransfer (overlayBytes page offset (data.map some)) tr =
      ({ s with overlay := storeBytes page offset data s.overlay } : State).respond .ok 0x1A .empty := by
  induction data generalizing offset tr s with
  | nil =>
    change s.finishTransfer { tr with todo := [] } = _
    rw [State.finishTransfer, form]
    rfl
  | cons d data ih =>
    rw [List.map_cons, overlayBytes_cons, runTransfer_atOnce rfl _ atOnce]
    exact ih (offset + 1) (tr.made' _ _) form atOnce _

/-- What the bytes written read as, and what they leave (R46, R48). -/
theorem storeBytes_spec (page p : Nat) (data : List Byte) (offset : Nat) (o : Overlay) (wf : Mem.wf o.cells) (physical : o.physicalPage page = some p) :
    (storeBytes page offset data o).repairList = o.repairList ∧ (storeBytes page offset data o).survey = o.survey ∧
    ∀ a, Mem.read (storeBytes page offset data o).cells a =
      if p * 256 + offset ≤ a ∧ a < p * 256 + offset + data.length then data.getD (a - (p * 256 + offset)) 0 else Mem.read o.cells a := by
  induction data generalizing offset o with
  | nil => exact ⟨rfl, rfl, fun a => (if_neg (by simp)).symm⟩
  | cons d data ih =>
    obtain ⟨wf', repairList, survey⟩ := o.writeByte_keeps { page := page, offset := offset } d
    obtain ⟨repairList', survey', read⟩ := ih (offset + 1) _ (wf' wf) ((o.writeByte_physicalPage _ d page).trans physical)
    refine ⟨repairList'.trans repairList, survey'.trans survey, fun a => (read a).trans ?_⟩
    rw [Overlay.writeByte_read wf physical]
    dsimp only
    rcases Nat.lt_trichotomy a (p * 256 + offset) with before | at_ | after
    · rw [if_neg (by omega), if_neg (by omega), if_neg (by omega)]
    · rw [if_neg (by omega), if_pos at_, if_pos (by simp; omega), at_, Nat.sub_self]
      rfl
    · obtain ⟨k, rfl⟩ : ∃ k, a = p * 256 + offset + 1 + k := ⟨a - (p * 256 + offset + 1), by omega⟩
      have left : p * 256 + offset + 1 + k - (p * 256 + (offset + 1)) = k := by omega
      have right : p * 256 + offset + 1 + k - (p * 256 + offset) = k + 1 := by omega
      rw [left, right, List.getD_cons_succ, if_neg (by omega : ¬p * 256 + offset + 1 + k = p * 256 + offset)]
      refine if_congr ?_ rfl rfl
      rw [List.length_cons]
      omega

/-! ### Bytes read -/

theorem runTransfer_read (page count : Nat) (offset : Nat) (tr : Transfer) (form : tr.form = .readOverlay) (atOnce : tr.bytewise = false) (s : State) :
    s.runTransfer (overlayBytes page offset (List.replicate count none)) tr =
      s.respond .ok 0x1B (.bytes (tr.made ++ (List.range count).map (fun i => s.overlay.readByte { page := page, offset := offset + i }))) := by
  induction count generalizing offset tr with
  | zero =>
    change s.finishTransfer { tr with todo := [] } = _
    rw [State.finishTransfer, form, List.range_zero, List.map_nil, List.append_nil]
  | succ count ih =>
    rw [List.replicate_succ, overlayBytes_cons, runTransfer_atOnce rfl _ atOnce]
    refine (ih (offset + 1) (tr.made' _ _) form atOnce).trans ?_
    have shift : (fun i => s.overlay.readByte { page := page, offset := offset + (i + 1) }) =
        fun i => s.overlay.readByte { page := page, offset := offset + 1 + i } := by
      funext i
      rw [Nat.add_assoc, Nat.add_comm 1]
    rw [List.range_succ_eq_map, List.map_cons, List.map_map]
    change _ = s.respond .ok 0x1B (.bytes (tr.made ++ _ :: (List.range count).map (fun i => s.overlay.readByte { page := page, offset := offset + (i + 1) })))
    rw [shift, List.append_cons]
    rfl

theorem readByte_of_physical {o : Overlay} {page p : Nat} (physical : o.physicalPage page = some p) (offset : Nat) :
    o.readByte { page := page, offset := offset } = Mem.read o.cells (p * 256 + offset) := by
  simp [Overlay.readByte, Overlay.cellOf, physical, Config.pageSize]

/-! ### WRITE OVERLAY -/

theorem framed_of_empty {s : State} (h : s.link.queue = []) : s.framed = false := by simp [State.framed, h]

theorem framed_of_ne {s : State} (h : s.link.queue ≠ []) : s.framed = true := by simp [State.framed, h]

/-- WRITE OVERLAY: its refusals in the order of R56, then its bytes. -/
theorem exec_writeOverlay {page offset : Nat} {data : List Byte} {s t : State} (taken : s.takes (.writeOverlay page offset data) t) :
    exec (.writeOverlay page offset data) s = .next (
      if t.overlay.survey = .commanded then t.respond .overlayBusy 0x1A .empty
      else if data.length = 0 ∨ 256 < data.length then t.respond .badLength 0x1A .empty
      else if t.overlay.capacity ≤ page ∨ 256 < offset + data.length then t.respond .badValue 0x1A .empty
      else t.runTransfer (overlayBytes page offset (data.map some))
        { form := .writeOverlay, bytewise := s.framed, todo := overlayBytes page offset (data.map some), made := [], count := 0 }) := by
  refine (exec_of_takes rfl taken).trans ?_
  simp only [surveying_iff]
  split
  · rfl
  · split
    · rfl
    · split <;> rfl

theorem exists_physicalPage {o : Overlay} {page : Nat} (h : page < o.capacity) : ∃ p, o.physicalPage page = some p := by
  cases physical : o.physicalPage page with
  | some p => exact ⟨p, rfl⟩
  | none =>
    have := (o.physicalPage_eq_none page).1 physical
    omega

theorem overlay_eq_of {o o' : Overlay} (repairList : o.repairList = o'.repairList) (survey : o.survey = o'.survey) : o = { o' with cells := o.cells } := by
  rw [← repairList, ← survey]

/-- WRITE OVERLAY as its row alone stores its bytes in that step (R56). -/
theorem exec_writeOverlay_atOnce {page offset : Nat} {data : List Byte} {s t : State} (taken : s.takes (.writeOverlay page offset data) t) (wf : t.memoryWf)
    (survey : t.overlay.survey ≠ .commanded) (some' : 1 ≤ data.length) (mapped : page < t.overlay.capacity) (fits : offset + data.length ≤ 256)
    (alone : s.link.queue = []) :
    ∃ physical cells, t.overlay.physicalPage page = some physical ∧
      exec (.writeOverlay page offset data) s = .next (({ t with overlay := { t.overlay with cells := cells } } : State).respond .ok 0x1A .empty) ∧
      ∀ a, Mem.read cells a =
        if physical * 256 + offset ≤ a ∧ a < physical * 256 + offset + data.length then data.getD (a - (physical * 256 + offset)) 0
        else Mem.read t.overlay.cells a := by
  obtain ⟨p, physical⟩ := exists_physicalPage mapped
  obtain ⟨repairList, survey', read⟩ := storeBytes_spec page p data offset t.overlay wf physical
  refine ⟨p, (storeBytes page offset data t.overlay).cells, physical, ?_, read⟩
  have stored : storeBytes page offset data t.overlay = { t.overlay with cells := (storeBytes page offset data t.overlay).cells } := by
    exact overlay_eq_of repairList survey'
  rw [exec_writeOverlay taken, if_neg survey, if_neg (by omega), if_neg (by omega), runTransfer_write page data offset _ rfl (framed_of_empty alone),
    ← stored]

/-- One that comes from the receive queue leaves its bytes to steps of their own (R58; log 38). -/
theorem exec_writeOverlay_framed {page offset : Nat} {data : List Byte} {s t : State} (taken : s.takes (.writeOverlay page offset data) t)
    (survey : t.overlay.survey ≠ .commanded) (some' : 1 ≤ data.length) (mapped : page < t.overlay.capacity) (fits : offset + data.length ≤ 256)
    (framed : s.link.queue ≠ []) :
    exec (.writeOverlay page offset data) s =
      .next (t.occupy (.transfer { form := .writeOverlay, bytewise := true, todo := data.mapIdx (fun i d => overlayByte page (offset + i) (some d)),
                                   made := [], count := 0 })) := by
  rw [exec_writeOverlay taken, if_neg survey, if_neg (by omega), if_neg (by omega), framed_of_ne framed, ← overlayBytes_write]
  cases data with
  | nil => exact absurd some' (by simp)
  | cons d data =>
    rw [List.map_cons, overlayBytes_cons, runTransfer_bytewise rfl _ rfl]

/-! ### READ OVERLAY -/

/-- READ OVERLAY: its refusals in the order of R57, then its bytes. -/
theorem exec_readOverlay {page offset count : Nat} {s t : State} (taken : s.takes (.readOverlay page offset count) t) :
    exec (.readOverlay page offset count) s = .next (
      if t.overlay.survey = .commanded then t.respond .overlayBusy 0x1B .empty
      else if count = 0 ∨ 256 < count ∨ t.overlay.capacity ≤ page ∨ 256 < offset + count then t.respond .badValue 0x1B .empty
      else t.runTransfer (overlayBytes page offset (List.replicate count none))
        { form := .readOverlay, bytewise := s.framed, todo := overlayBytes page offset (List.replicate count none), made := [], count := 0 }) := by
  refine (exec_of_takes rfl taken).trans ?_
  simp only [surveying_iff]
  split
  · rfl
  · split <;> rfl

theorem exec_readOverlay_atOnce {page offset count : Nat} {s t : State} (taken : s.takes (.readOverlay page offset count) t)
    (survey : t.overlay.survey ≠ .commanded) (some' : 1 ≤ count) (mapped : page < t.overlay.capacity) (fits : offset + count ≤ 256)
    (alone : s.link.queue = []) :
    ∃ physical, t.overlay.physicalPage page = some physical ∧
      exec (.readOverlay page offset count) s =
        .next (t.respond .ok 0x1B (.bytes ((List.range count).map (fun i => Mem.read t.overlay.cells (physical * 256 + offset + i))))) := by
  obtain ⟨p, physical⟩ := exists_physicalPage mapped
  refine ⟨p, physical, ?_⟩
  rw [exec_readOverlay taken, if_neg survey, if_neg (by omega), runTransfer_read page count offset _ rfl (framed_of_empty alone)]
  simp only [readByte_of_physical physical, List.nil_append, Nat.add_assoc]

theorem exec_readOverlay_framed {page offset count : Nat} {s t : State} (taken : s.takes (.readOverlay page offset count) t)
    (survey : t.overlay.survey ≠ .commanded) (some' : 1 ≤ count) (mapped : page < t.overlay.capacity) (fits : offset + count ≤ 256)
    (framed : s.link.queue ≠ []) :
    exec (.readOverlay page offset count) s =
      .next (t.occupy (.transfer { form := .readOverlay, bytewise := true, todo := (List.range count).map (fun i => overlayByte page (offset + i) none),
                                   made := [], count := 0 })) := by
  rw [exec_readOverlay taken, if_neg survey, if_neg (by omega), framed_of_ne framed, ← overlayBytes_read]
  cases count with
  | zero => exact absurd some' (by simp)
  | succ count =>
    rw [List.replicate_succ, overlayBytes_cons, runTransfer_bytewise rfl _ rfl]

/-! ### A byte of its own step -/

/-- With no command waiting, a command that needs no bus for its next byte makes it (R58; log 38). -/
theorem step_makesOwnByte {s : State} {tr : Transfer} {b : TransferByte} {rest : List TransferByte} (noneWaits : s.pending = [])
    (prst : s.port.prst = false) (activity : s.link.activity = .transfer tr) (todo : tr.todo = b :: rest) (own : b.boardBound = false)
    (mapped : s.transferMapped = true) : step s = .next (s.makeOwnByte b rest tr).settle := by
  have next : s.nextOwnByte = some (b, rest, tr) := by
    simp only [State.nextOwnByte, activity, todo, own, Bool.false_eq_true, if_false]
  rw [step, noneWaits]
  simp only [State.idle, prst, Bool.false_eq_true, if_false, next, mapped, if_true]

/-- What that byte does where all behind it need no bus. -/
theorem makeOwnByte_of_last (b : TransferByte) (tr : Transfer) (s : State) :
    s.makeOwnByte b [] tr = (s.transferWrite b).finishTransfer { tr.made' b (s.transferRead b) with todo := [] } := rfl

theorem makeOwnByte_of_more {b : TransferByte} {rest : List TransferByte} {tr : Transfer} (more : rest ≠ []) (overlay : ∀ b ∈ rest, b.route = .overlay)
    (bytewise : tr.bytewise = true) (s : State) :
    s.makeOwnByte b rest tr = (s.transferWrite b).occupy (.transfer { tr.made' b (s.transferRead b) with todo := rest }) := by
  cases rest with
  | nil => exact absurd rfl more
  | cons next rest => exact runTransfer_bytewise (overlay next (by simp)) rest (tr := tr.made' b (s.transferRead b)) bytewise _

/-- Settles O26: both commands by their refusals and bytes, and the byte of a step of its own by READ and WRITE. -/
theorem overlayBytesWrittenAndRead : Obligations.OverlayBytesWrittenAndRead := by
  refine ⟨fun page offset data s t taken wf => ⟨fun runs => ?_, fun survey length => ?_, fun survey some' limit value => ?_,
      fun survey some' mapped fits => ⟨exec_writeOverlay_atOnce taken wf survey some' mapped fits, exec_writeOverlay_framed taken survey some' mapped fits⟩⟩,
    fun page offset count s t taken => ⟨fun runs => ?_, fun survey value => ?_,
      fun survey some' mapped fits => ⟨exec_readOverlay_atOnce taken survey some' mapped fits, exec_readOverlay_framed taken survey some' mapped fits⟩⟩,
    fun page offset count write rest made s => ?_⟩
  · rw [exec_writeOverlay taken, if_pos runs]
  · rw [exec_writeOverlay taken, if_neg survey, if_pos length]
  · rw [exec_writeOverlay taken, if_neg survey, if_neg (by omega), if_pos value]
  · rw [exec_readOverlay taken, if_pos runs]
  · rw [exec_readOverlay taken, if_neg survey, if_pos value]
  · intro tr stored read noneWaits prst activity mapped overlay
    have stepped := step_makesOwnByte noneWaits prst activity rfl rfl mapped
    refine ⟨fun last => stepped.trans ?_, fun more => stepped.trans ?_⟩
    · subst last
      rw [makeOwnByte_of_last]
      cases write <;> rfl
    · rw [makeOwnByte_of_more more overlay rfl]
      cases write <;> rfl

/-! ### The logical map -/

/-- The place of a page among the good ones is the number of good pages below it (R47). -/
theorem goodPages_index {l : List Nat} {k p : Nat} (h : (goodPages l)[k]? = some p) :
    ((List.range p).filter (fun q => decide (q ∉ l))).length = k := by
  obtain ⟨below, good⟩ := mem_goodPages.1 (List.mem_of_getElem? h)
  have parts : List.range 272 = List.range p ++ p :: (List.range (271 - p)).map (p + 1 + ·) := by
    conv_lhs => rw [show 272 = p + (271 - p + 1) by omega, List.range_add, List.range_succ_eq_map, List.map_cons, List.map_map]
    refine congrArg (List.range p ++ ·) (congrArg₂ _ (Nat.add_zero p) (List.map_congr_left fun i _ => ?_))
    simp only [Function.comp]
    omega
  have split' : goodPages l = (List.range p).filter (fun q => decide (q ∉ l)) ++
      p :: ((List.range (271 - p)).map (p + 1 + ·)).filter (fun q => decide (q ∉ l)) := by
    have filtered : goodPages l = (List.range 272).filter (fun q => decide (q ∉ l)) := by
      simp [goodPages, Config.physicalPages]
    rw [filtered, parts, List.filter_append, List.filter_cons_of_pos (by simpa using good)]
  refine (List.getElem?_inj ?_ (goodPages_sorted l).nodup).1 ?_
  · rw [split', List.length_append, List.length_cons]
    omega
  · rw [h, split', List.getElem?_append_right le_rfl, Nat.sub_self]
    rfl

/-- Settles O27: the logical map by the list of good pages. -/
theorem logicalPagesSkipListed : Obligations.LogicalPagesSkipListed := by
  refine fun o => ⟨fun l => decide_eq_true_iff, ?_, o.physicalPage_eq_none, fun k p physical => ?_, fun l p physical => ?_⟩
  · simp [Overlay.capacity, goodPages, Config.physicalPages, Config.maxCapacity]
  · obtain ⟨below, good⟩ := o.physicalPage_good physical
    refine ⟨below, good, ?_⟩
    rw [Overlay.physicalPage] at physical
    split at physical
    · exact goodPages_index physical
    · nomatch physical
  · have cell : o.cellOf l = some (p * 256 + l.offset) := by simp [Overlay.cellOf, physical, Config.pageSize]
    refine ⟨cell, ?_, fun b => ?_⟩
    · rw [Overlay.readByte, cell]
    · rw [Overlay.writeByte, cell]

end Sys2Proof.OverlayRows
end

section
/-! PROOFS. The commands on the watch units and the probe lines, what a unit makes of a cycle and a match of it, and the edges of a probe line (chapters 4 and 5). -/

namespace Sys2Proof.WatchRows

open Sys2Proof Sys2Proof.Machine Sys2Proof.Resets Sys2Proof.WindowRows

/-! ### SET WATCH, READ WATCH -/

theorem watchMode_ofCode (n : Nat) : WatchMode.ofCode n = match n with | 0 => some .off | 1 => some .once | 2 => some .every | 3 => some .gate | _ => none := by
  match n with
  | 0 => rfl
  | 1 => rfl
  | 2 => rfl
  | 3 => rfl
  | _ + 4 => rfl

theorem watchMode_ofCode_of_bad {n : Nat} (above : 3 < n) : WatchMode.ofCode n = none := by
  obtain ⟨k, rfl⟩ : ∃ k, n = k + 4 := ⟨n - 4, by omega⟩
  rfl

/-- Mode OFF has code 0 and mode GATE code 3 (R188). -/
theorem watchMode_codes {n : Nat} {mode : WatchMode} (code : WatchMode.ofCode n = some mode) : (mode = .off ↔ n = 0) ∧ (mode = .gate ↔ n = 3) := by
  rw [watchMode_ofCode] at code
  split at code <;> simp_all <;> subst code <;> simp

theorem exists_watchMode {n : Nat} (h : n ≤ 3) : ∃ mode, WatchMode.ofCode n = some mode := by
  match n with
  | 0 => exact ⟨_, rfl⟩
  | 1 => exact ⟨_, rfl⟩
  | 2 => exact ⟨_, rfl⟩
  | 3 => exact ⟨_, rfl⟩

/-- A probe qualifier names a line 0 to 3 and a level 0 or 1 (R81). -/
theorem qualifier_of_bad {p : Option (Nat × Nat)} {line level : Nat} (given : p = some (line, level)) (bad : 3 < line ∨ 1 < level) :
    qualifierOfCode p = none := by
  subst given
  by_cases inRange : line < 4
  · simp only [qualifierOfCode, laneOfCode_of_lt inRange]
    rw [if_neg (by omega), if_neg (by omega)]
  · simp only [qualifierOfCode, laneOfCode_of_not_lt inRange]

theorem qualifier_of_ok {p : Option (Nat × Nat)} (ok : ¬∃ line level, p = some (line, level) ∧ (3 < line ∨ 1 < level)) :
    qualifierOfCode p = some (p.map (fun p => (Fin.ofNat 4 p.1, decide (p.2 = 0)))) := by
  rcases p with _ | ⟨line, level⟩
  · rfl
  · have : ¬(3 < line ∨ 1 < level) := fun bad => ok ⟨line, level, rfl, bad⟩
    have inRange : line < 4 := by omega
    have same : (⟨line, inRange⟩ : Fin 4) = Fin.ofNat 4 line := Fin.ext (Nat.mod_eq_of_lt inRange).symm
    simp only [qualifierOfCode, laneOfCode_of_lt inRange, same, Option.map_some]
    by_cases high : level = 0
    · rw [if_pos high]
      simp [high]
    · rw [if_neg high, if_pos (by omega)]
      simp [high]

/-- The conditions of R81 on the fields that a mode other than OFF keeps, lane and qualifier apart. -/
theorem watchFieldsBad_iff (unit : Nat) (mode : WatchMode) (w : WatchFields) :
    watchFieldsBad unit mode w = true ↔ 0xFFFFF < w.firstAddress ∨ 0xFFFFF < w.lastAddress ∨ w.lastAddress < w.firstAddress ∨ w.kinds = 0 ∨
      8 ≤ w.kinds.toNat ∨ w.countA = 0 ∨ (mode = .gate ∧ w.countB = 0) ∨ (w.chained = true ∧ unit = 0) ∨
      (mode ≠ .gate ∧ w.actions.getLsbD 0 = true ∧ 7 < w.holdLevel) := by
  have limit : ∀ n, Config.addressLimit ≤ n ↔ 0xFFFFF < n := fun n => Iff.rfl
  simp only [watchFieldsBad, Bool.or_eq_true, Bool.and_eq_true, decide_eq_true_eq, limit, or_assoc, and_assoc]

theorem watchRecord_of_noMode {unit : Nat} {w : WatchFields} (code : WatchMode.ofCode w.mode = none) : watchRecord unit w = none := by
  simp only [watchRecord, code]

theorem watchRecord_off {unit : Nat} {w : WatchFields} (code : WatchMode.ofCode w.mode = some .off) : watchRecord unit w = some WatchUnit.initial := by
  simp only [watchRecord, code]

theorem watchRecord_of_noLane {unit : Nat} {w : WatchFields} {mode : WatchMode} (code : WatchMode.ofCode w.mode = some mode) (on : mode ≠ .off)
    (lane : LaneSel.ofCode w.lane = none) : watchRecord unit w = none := by
  cases mode with
  | off => exact absurd rfl on
  | once => simp only [watchRecord, code, lane]
  | every => simp only [watchRecord, code, lane]
  | gate => simp only [watchRecord, code, lane]

theorem watchRecord_of_noQualifier {unit : Nat} {w : WatchFields} {mode : WatchMode} {lane : LaneSel} (code : WatchMode.ofCode w.mode = some mode)
    (on : mode ≠ .off) (laneCode : LaneSel.ofCode w.lane = some lane) (probe : qualifierOfCode w.probe = none) : watchRecord unit w = none := by
  cases mode with
  | off => exact absurd rfl on
  | once => simp only [watchRecord, code, laneCode, probe]
  | every => simp only [watchRecord, code, laneCode, probe]
  | gate => simp only [watchRecord, code, laneCode, probe]

/-- The unit that SET WATCH stores for a mode other than OFF (R80). -/
def watchWritten (mode : WatchMode) (lane : LaneSel) (probe : Option (Fin 4 × Bool)) (w : WatchFields) : WatchUnit :=
  { mode := mode, lane := lane, firstAddress := w.firstAddress, lastAddress := w.lastAddress, kinds := w.kinds.setWidth 3,
    dataValue := w.dataValue, dataMask := w.dataMask, probe := probe, countA := w.countA,
    countB := if mode = .gate then some w.countB else none, chained := w.chained,
    actions := if mode = .gate then { hold := none, note := false, traceStart := false, traceStop := false }
      else { hold := if w.actions.getLsbD 0 then some w.holdLevel else none, note := w.actions.getLsbD 1, traceStart := w.actions.getLsbD 2,
             traceStop := w.actions.getLsbD 3 },
    gateQualifies := if mode = .gate then some w.gateQualifies else none,
    state := if w.chained then .dormant else if mode = .gate then .opened else .armed, remaining := w.countA, pendingData := false }

theorem watchRecord_of_fields {unit : Nat} {w : WatchFields} {mode : WatchMode} {lane : LaneSel} {probe : Option (Fin 4 × Bool)}
    (code : WatchMode.ofCode w.mode = some mode) (on : mode ≠ .off) (laneCode : LaneSel.ofCode w.lane = some lane)
    (probeCode : qualifierOfCode w.probe = some probe) :
    watchRecord unit w = if watchFieldsBad unit mode w then none else some (watchWritten mode lane probe w) := by
  cases mode with
  | off => exact absurd rfl on
  | once => simp only [watchRecord, code, laneCode, probeCode]; rfl
  | every => simp only [watchRecord, code, laneCode, probeCode]; rfl
  | gate => simp only [watchRecord, code, laneCode, probeCode]; rfl

/-- The conditions of R81 with those on the lane and the qualifier first. -/
theorem fields_reorder (lane a b c d e probe rest : Prop) :
    (lane ∨ a ∨ b ∨ c ∨ d ∨ e ∨ probe ∨ rest) ↔ lane ∨ probe ∨ a ∨ b ∨ c ∨ d ∨ e ∨ rest := by
  simp only [or_left_comm (b := probe)]

/-- R81 refuses the fields. -/
theorem watchRecord_of_bad {unit : Nat} {w : WatchFields}
    (bad : 3 < w.mode ∨ (w.mode ≠ 0 ∧
      ((3 < w.lane ∧ w.lane ≠ 8) ∨ 0xFFFFF < w.firstAddress ∨ 0xFFFFF < w.lastAddress ∨ w.lastAddress < w.firstAddress ∨ w.kinds = 0 ∨ 8 ≤ w.kinds.toNat ∨
       (∃ line level, w.probe = some (line, level) ∧ (3 < line ∨ 1 < level)) ∨ w.countA = 0 ∨ (w.mode = 3 ∧ w.countB = 0) ∨
       (w.chained = true ∧ unit = 0) ∨ (w.mode ≠ 3 ∧ w.actions.getLsbD 0 = true ∧ 7 < w.holdLevel)))) : watchRecord unit w = none := by
  by_cases above : 3 < w.mode
  · exact watchRecord_of_noMode (watchMode_ofCode_of_bad above)
  obtain ⟨notOff, fields⟩ := bad.resolve_left above
  obtain ⟨mode, code⟩ := exists_watchMode (Nat.not_lt.1 above)
  obtain ⟨off, gate⟩ := watchMode_codes code
  have on : mode ≠ .off := mt off.1 notOff
  cases laneCode : LaneSel.ofCode w.lane with
  | none => exact watchRecord_of_noLane code on laneCode
  | some lane =>
    cases probeCode : qualifierOfCode w.probe with
    | none => exact watchRecord_of_noQualifier code on laneCode probeCode
    | some probe =>
      rw [watchRecord_of_fields code on laneCode probeCode, if_pos]
      rw [watchFieldsBad_iff, gate, ne_eq, gate]
      have laneOk : ¬(3 < w.lane ∧ w.lane ≠ 8) := fun ⟨above, notAny⟩ => by
        rw [laneSel_ofCode_of_bad above notAny] at laneCode
        nomatch laneCode
      have probeOk : ¬∃ line level, w.probe = some (line, level) ∧ (3 < line ∨ 1 < level) := fun ⟨_, _, given, bad⟩ => by
        rw [qualifier_of_bad given bad] at probeCode
        nomatch probeCode
      exact (((fields_reorder ..).1 fields).resolve_left laneOk).resolve_left probeOk

theorem exec_setWatch_outOfRange {unit : Nat} {w : WatchFields} {s t : State} (taken : s.takes (.setWatch unit w) t) (out : ¬unit < 4) :
    exec (.setWatch unit w) s = .next (t.respond .badValue 0x20 .empty) :=
  (exec_of_takes rfl taken).trans (dif_neg out)

theorem exec_setWatch_none {unit : Nat} {w : WatchFields} {s t : State} (taken : s.takes (.setWatch unit w) t) (inRange : unit < 4)
    (record : watchRecord unit w = none) : exec (.setWatch unit w) s = .next (t.respond .badValue 0x20 .empty) := by
  refine (exec_of_takes rfl taken).trans ?_
  rw [dif_pos inRange, record]
  rfl

theorem exec_setWatch_some {unit : Nat} {w : WatchFields} {s t : State} (taken : s.takes (.setWatch unit w) t) (inRange : unit < 4) {u : WatchUnit}
    (record : watchRecord unit w = some u) :
    exec (.setWatch unit w) s = .next (({ t with watch := t.watch.set unit u inRange } : State).respond .ok 0x20 .empty) := by
  refine (exec_of_takes rfl taken).trans ?_
  rw [dif_pos inRange, record]
  rfl

/-- Settles O28: by the record that SET WATCH stores or R81 refuses. -/
theorem watchCommands : Obligations.WatchCommands := by
  refine ⟨watchMode_ofCode, fun unit w s t taken => ⟨fun bad => ?_, fun inRange off => ?_, fun inRange mode lane ok code on laneCode => ?_⟩,
    fun unit s t taken => ⟨fun inRange => (exec_of_takes rfl taken).trans (dif_pos inRange), fun out => (exec_of_takes rfl taken).trans (dif_neg (by omega))⟩⟩
  · by_cases inRange : unit < 4
    · exact exec_setWatch_none taken inRange (watchRecord_of_bad (bad.resolve_left (by omega)))
    · exact exec_setWatch_outOfRange taken inRange
  · exact exec_setWatch_some taken inRange (watchRecord_off (by rw [off]; rfl))
  · obtain ⟨off, gate⟩ := watchMode_codes code
    have notOff : w.mode ≠ 0 := mt off.2 on
    have probeOk : ¬∃ line level, w.probe = some (line, level) ∧ (3 < line ∨ 1 < level) := fun bad =>
      ok (.inr (.inr ⟨notOff, (fields_reorder ..).2 (.inr (.inl bad))⟩))
    have fieldsOk : ¬watchFieldsBad unit mode w = true := by
      rw [watchFieldsBad_iff, gate, ne_eq, gate]
      exact fun bad => ok (.inr (.inr ⟨notOff, (fields_reorder ..).2 (.inr (.inr bad))⟩))
    exact exec_setWatch_some taken inRange
      ((watchRecord_of_fields code on laneCode (qualifier_of_ok probeOk)).trans (if_neg fieldsOk))

/-! ### Condition, match, arming -/

/-- A unit's lane, address, kind and probe parts (R62, R63). -/
theorem meets_iff (u : WatchUnit) (c : Cycle) :
    u.meets c = true ↔ (u.lane = .any ∨ ∃ n, u.lane = .lane n ∧ c.lane = some n) ∧ u.firstAddress ≤ c.address ∧ c.address ≤ u.lastAddress ∧
      u.kinds.getLsbD (match c.kind with | .read => 0 | .fetch => 1 | .write => 2) = true ∧
      (∀ line level, u.probe = some (line, level) → c.probes.getLsbD line.val = level) := by
  have kind : c.kind.code = match c.kind with | .read => 0 | .fetch => 1 | .write => 2 := by cases c.kind <;> rfl
  have probe : u.probeMet c.probes = true ↔ ∀ line level, u.probe = some (line, level) → c.probes.getLsbD line.val = level := by
    rw [WatchUnit.probeMet, Option.all_eq_true]
    exact ⟨fun h line level given => by simpa using h _ given, fun h p given => by simpa using h p.1 p.2 given⟩
  simp only [WatchUnit.meets, WatchUnit.hasKind, Bool.and_eq_true, decide_eq_true_eq, covers_lane_iff, kind, probe, and_assoc]

theorem matching_iff (u : WatchUnit) : u.matching = true ↔ u.state = .armed ∨ u.state = .opened ∨ u.state = .shut := decide_eq_true_iff

theorem verdict_of_not_matching {u : WatchUnit} (h : u.matching = false) (c : Cycle) : u.verdict c = .ignored := by
  rw [WatchUnit.verdict, h]
  rfl

theorem verdict_of_not_meets {u : WatchUnit} {c : Cycle} (h : u.meets c = false) : u.verdict c = .ignored := by
  rw [WatchUnit.verdict, h, Bool.and_false]
  rfl

/-- A unit whose condition a cycle meets: a match without a data part, a comparison now for a WRITE, a pending decision for a read (R64, R69). -/
theorem verdict_of_meets {u : WatchUnit} {c : Cycle} (matching : u.matching = true) (meets : u.meets c = true) :
    (u.dataMask = 0 → u.verdict c = .matched) ∧
    (u.dataMask ≠ 0 → c.kind ≠ .write → u.verdict c = .deferred) ∧
    (∀ d, u.dataMask ≠ 0 → c.kind = .write → c.writeData = some d →
      u.verdict c = if d &&& u.dataMask = u.dataValue &&& u.dataMask then .matched else .ignored) := by
  rw [WatchUnit.verdict, matching, meets]
  refine ⟨fun noData => if_pos noData, fun data notWrite => (if_neg data).trans ?_, fun d data write given => (if_neg data).trans ?_⟩
  · cases kind : c.kind with
    | read => rfl
    | fetch => rfl
    | write => exact absurd kind notWrite
  · rw [write]
    simp only [WatchUnit.dataMet, given, Option.getD_some, decide_eq_true_eq]

/-- A match that leaves a count does not fire (R66). -/
theorem afterMatch_of_more {u : WatchUnit} (h : 1 < u.remaining) : u.afterMatch = ({ u with remaining := u.remaining - 1 }, false) := by
  rw [WatchUnit.afterMatch]
  exact if_pos (by omega)

/-- The last match of a count, by the unit's mode (R66, R67, R68). -/
theorem afterMatch_of_last {u : WatchUnit} (h : u.remaining = 1) : u.afterMatch = match u.mode with
    | .once => ({ u with remaining := 0, state := .spent }, true)
    | .every => ({ u with remaining := u.countA }, true)
    | .gate =>
      if u.state = .opened then ({ u with remaining := u.countB.getD 0, state := .shut }, false)
      else ({ u with remaining := u.countA, state := .opened }, false)
    | .off => (u, false) := by
  rw [WatchUnit.afterMatch]
  refine (if_neg (by omega)).trans ?_
  rfl

theorem armed_of_dormant {u : WatchUnit} (chained : u.chained = true) (dormant : u.state = .dormant) :
    u.armed = { u with state := if u.mode = .gate then .opened else .armed, remaining := u.countA } := if_pos ⟨chained, dormant⟩

theorem armed_of_not {u : WatchUnit} (h : u.chained = false ∨ u.state ≠ .dormant) : u.armed = u :=
  if_neg fun ⟨chained, dormant⟩ => h.elim (fun unchained => Bool.false_ne_true (unchained.symm.trans chained)) (fun other => other dormant)

/-- Settles O29: the unit's condition, its verdict, its count and its arming, each by its lemma. -/
theorem watchJudgesAndCounts : Obligations.WatchJudgesAndCounts := by
  refine ⟨fun u c => ⟨meets_iff u c, fun state => ?_, verdict_of_not_meets, fun state => verdict_of_meets ((matching_iff u).2 state)⟩,
    fun u => ⟨afterMatch_of_more, fun last => ⟨fun mode => ?_, fun mode => ?_, fun mode state b count => ?_, fun mode state => ?_⟩⟩,
    fun u => ⟨fun chained dormant mode => ?_, fun chained dormant mode => ?_, armed_of_not⟩, fun units => ⟨rfl, rfl, rfl, rfl⟩⟩
  · refine verdict_of_not_matching (Bool.eq_false_of_not_eq_true fun matching => ?_) c
    rcases (matching_iff u).1 matching with other | other | other <;> simp [other] at state
  · rw [afterMatch_of_last last, mode]
  · rw [afterMatch_of_last last, mode]
  · rw [afterMatch_of_last last, mode]
    simp only [state, if_true, count, Option.getD_some]
  · rw [afterMatch_of_last last, mode]
    simp [state]
  · rw [armed_of_dormant chained dormant, if_neg mode]
  · rw [armed_of_dormant chained dormant, if_pos mode]

/-! ### SET PROBE, READ PROBE -/

theorem sense_ofCode (n : Nat) : Sense.ofCode n = match n with | 0 => some .off | 1 => some .rise | 2 => some .fall | 3 => some .both | _ => none := by
  match n with
  | 0 => rfl
  | 1 => rfl
  | 2 => rfl
  | 3 => rfl
  | _ + 4 => rfl

theorem configured_of_bad {p : ProbeLine} {f : ProbeFields} (bad : 3 < f.sense ∨ ∃ l, f.holdLevel = some l ∧ 7 < l) : p.configured f = none := by
  rw [ProbeLine.configured]
  cases sense : Sense.ofCode f.sense with
  | none => rfl
  | some x =>
    refine if_neg fun ok => ?_
    rcases bad with above | ⟨l, given, above⟩
    · obtain ⟨k, code⟩ : ∃ k, f.sense = k + 4 := ⟨f.sense - 4, by omega⟩
      rw [code] at sense
      nomatch sense
    · have := (guardLevel_ok_iff _).1 ok l given
      omega

theorem configured_of_ok (p : ProbeLine) {f : ProbeFields} {sense : Sense} (code : Sense.ofCode f.sense = some sense)
    (level : ∀ l, f.holdLevel = some l → l ≤ 7) :
    p.configured f = some { p with sense := sense, record := f.record, note := f.note, holdLevel := f.holdLevel, holdFirst := f.holdFirst } := by
  rw [ProbeLine.configured, code]
  exact if_pos ((guardLevel_ok_iff _).2 level)

/-- Settles O31: SET PROBE by what it configures, READ PROBE by its answer. -/
theorem probeCommands : Obligations.ProbeCommands := by
  refine ⟨sense_ofCode, fun line f s t taken => ⟨fun bad => ?_, fun inRange sense code level => ?_⟩,
    fun line s t taken => ⟨fun inRange => (exec_of_takes rfl taken).trans (dif_pos inRange), fun out => (exec_of_takes rfl taken).trans (dif_neg (by omega))⟩⟩
  · refine (exec_of_takes rfl taken).trans ?_
    by_cases inRange : line < 4
    · rw [dif_pos inRange, configured_of_bad (bad.resolve_left (by omega))]
      rfl
    · exact dif_neg inRange
  · refine (exec_of_takes rfl taken).trans ?_
    rw [dif_pos inRange, configured_of_ok _ code level]
    rfl

/-! ### Edges -/

/-- The edges that a sense setting admits (R87). -/
theorem admits_iff (sense : Sense) (rising : Bool) :
    sense.admits rising = true ↔ sense = .both ∨ (sense = .rise ∧ rising = true) ∨ (sense = .fall ∧ rising = false) := by
  cases sense <;> simp [Sense.admits]

/-- A row that is no edge (log 5). -/
theorem exec_probeEdge_same {line : Fin 4} {rising : Bool} {s : State} (same : s.probes[line].level = rising) : exec (.probeEdge line rising) s = .next s :=
  if_pos same

theorem exec_probeEdge_unsensed {line : Fin 4} {rising : Bool} {s : State} (edge : s.probes[line].level ≠ rising)
    (unsensed : s.probes[line].sense.admits rising = false) :
    exec (.probeEdge line rising) s = .next { s with probes := s.probes.set line { s.probes[line] with level := rising } } := by
  change execProbeEdge line rising s = _
  unfold execProbeEdge
  dsimp only
  rw [if_neg edge, if_pos (by rw [unsensed]; simp)]
  rfl

/-- A sensed edge without a hold is taken; with one it then raises the line's claim (R88 to R90). -/
theorem exec_probeEdge_sensed {line : Fin 4} {rising : Bool} {s : State} (prst : s.port.prst = false) (edge : s.probes[line].level ≠ rising)
    (sensed : s.probes[line].sense.admits rising = true) :
    (s.probes[line].holdLevel = none →
      exec (.probeEdge line rising) s = .next (s.edgeTaken line rising { s.probes[line] with level := rising })) ∧
    (∀ level, s.probes[line].holdLevel = some level → s.cycleMapped = true →
      exec (.probeEdge line rising) s =
        .next ((s.edgeTaken line rising { s.probes[line] with level := rising }).raiseClaim (probeRaise line level)).settle) := by
  have meaning : exec (.probeEdge line rising) s = execProbeEdge line rising s := rfl
  refine ⟨fun none' => meaning.trans ?_, fun level given mapped => meaning.trans ?_⟩
  · unfold execProbeEdge
    dsimp only
    rw [if_neg edge, if_neg (by rw [prst, sensed]; exact Bool.false_ne_true), none']
  · unfold execProbeEdge
    dsimp only
    rw [if_neg edge, if_neg (by rw [prst, sensed]; exact Bool.false_ne_true), given]
    exact if_pos mapped

/-- The stamp of a sensed edge (R88). -/
theorem stamped_eq (p : ProbeLine) (rising : Bool) (now : Stamp) :
    ({ p with level := rising } : ProbeLine).stamped rising now =
      if rising then if p.holdFirst = true ∧ p.riseKept = true then { p with level := true } else { p with level := true, riseStamp := now, riseKept := true }
      else if p.holdFirst = true ∧ p.fallKept = true then { p with level := false } else { p with level := false, fallStamp := now, fallKept := true } := by
  cases rising <;> simp only [ProbeLine.stamped, Bool.and_eq_true, Bool.false_eq_true, if_false, if_true]

/-- Settles O32: an edge that is none, one that is not sensed, and a sensed one with its stamp, record, note and claim. -/
theorem probeEdgeStampsAndActs : Obligations.ProbeEdgeStampsAndActs := by
  intro line rising s prst p sensed stamped s1 s2 s3
  have taken : s.edgeTaken line rising { s.probes[line] with level := rising } = s3 := by
    simp only [State.edgeTaken, stamped_eq]
    rfl
  refine ⟨exec_probeEdge_same, fun edge unsensed => ?_, fun edge isSensed none' => ?_, fun level edge isSensed given mapped => ?_⟩
  · exact exec_probeEdge_unsensed edge (Bool.eq_false_of_not_eq_true (mt (admits_iff _ _).1 unsensed))
  · rw [← taken]
    exact (exec_probeEdge_sensed prst edge ((admits_iff _ _).2 isSensed)).1 none'
  · rw [← taken]
    exact (exec_probeEdge_sensed prst edge ((admits_iff _ _).2 isSensed)).2 level given mapped

end Sys2Proof.WatchRows
end

section
/-! PROOFS. The Trace Store: its commands, its records as bytes, a record handed over; and LIST CLAIMS with the bytes of its entries (chapters 6 and 7). -/

namespace Sys2Proof.TraceRows

open Sys2Proof Sys2Proof.Machine Sys2Proof.Resets Sys2Proof.BenchLink

/-! ### Bytes -/

theorem leBytes_one (n : Nat) : leBytes 1 n = [BitVec.ofNat 8 n] := rfl

theorem optBytes_one (o : Option Nat) : optBytes 1 o = [BitVec.ofNat 8 (o.getD 255)] := rfl

/-- A bit of a set byte as a number. -/
theorem ite_eq_mul_toNat (b : Bool) (k : Nat) : (if b then k else 0) = k * b.toNat := by cases b <;> simp

/-- Three and six members of a set, lowest bit first (R188). -/
theorem setByte_three (a b c : Bool) : setByte [a, b, c] = (if a then 1 else 0) + (if b then 2 else 0) + (if c then 4 else 0) := by
  simp only [setByte, List.foldr_cons, List.foldr_nil, ite_eq_mul_toNat, Nat.one_mul]
  omega

theorem setByte_six (a b c d e f : Bool) :
    setByte [a, b, c, d, e, f] = (if a then 1 else 0) + (if b then 2 else 0) + (if c then 4 else 0) + (if d then 8 else 0) + (if e then 16 else 0) +
      (if f then 32 else 0) := by
  simp only [setByte, List.foldr_cons, List.foldr_nil, ite_eq_mul_toNat, Nat.one_mul]
  omega

theorem source_code (x : Source) :
    x.code = match x with | .watch i => i.val | .probe i => 4 + i.val | .guard => 8 | .halt => 9 | .step => 10 := by
  cases x <;> rfl

/-! ### LIST CLAIMS -/

/-- The order of R97 puts satisfied steps first and waiting steps last, and between them goes by level and source code. -/
theorem before_spec {a b : Claim} (h : a.before b = true) :
    (∀ p, b.step = some p → p.satisfied = true → ∃ q, a.step = some q ∧ q.satisfied = true) ∧
    (a.step = none → b.step = none → ∀ m n, a.level = some m → b.level = some n → m < n ∨ (m = n ∧ a.source.code ≤ b.source.code)) ∧
    (∀ q, a.step = some q → q.satisfied = false → ∃ p, b.step = some p ∧ p.satisfied = false) := by
  have order := (before_iff a b).1 h
  refine ⟨fun p step satisfied => ?_, fun aStep bStep m n aLevel bLevel => ?_, fun q step waiting => ?_⟩
  · have first : b.rank = 0 := by simp [Claim.rank, step, satisfied]
    have : a.rank = 0 := by omega
    cases aStep : a.step with
    | none => simp [Claim.rank, aStep] at this
    | some q =>
      refine ⟨q, rfl, ?_⟩
      by_contra waiting
      simp [Claim.rank, aStep, waiting] at this
  · have ranks : a.rank = b.rank := by simp [Claim.rank, aStep, bStep]
    simpa [ranks, aLevel, bLevel] using order
  · have last : a.rank = 2 := by simp [Claim.rank, step, waiting]
    cases bStep : b.step with
    | none =>
      have : b.rank = 1 := by simp [Claim.rank, bStep]
      omega
    | some p =>
      refine ⟨p, rfl, ?_⟩
      cases satisfied : p.satisfied with
      | false => rfl
      | true =>
        have : b.rank = 0 := by simp [Claim.rank, bStep, satisfied]
        omega

theorem live_iff (floor : Nat) (k : Claim) : k.live floor = true ↔ k.level = none ∨ ∃ n, k.level = some n ∧ n < floor := by
  cases level : k.level <;> simp [Claim.live, level]

/-- The 12 bytes of a claim entry (11.6). -/
theorem claim_bytes (floor : Nat) (k : Claim) : Claim.bytes floor k =
    [BitVec.ofNat 8 (match k.source with | .watch i => i.val | .probe i => 4 + i.val | .guard => 8 | .halt => 9 | .step => 10),
     BitVec.ofNat 8 (k.level.getD 255), BitVec.ofNat 8 k.repeats,
     BitVec.ofNat 8 ((if k.live floor then 1 else 0) + (if k.step.any StepPart.satisfied then 2 else 0) + (if k.step.any (fun p => decide (p.kind = .fetch)) then 4 else 0))] ++
    leBytes 4 k.stamp.toNat ++ leBytes 3 (k.address.getD 0xFFFFFF) ++ [match k.window with | some w => BitVec.ofNat 8 w.val | none => 0xFF] := by
  rw [← source_code, ← setByte_three]
  cases window : k.window <;> simp [Claim.bytes, window, leBytes_one, optBytes]

/-- Settles O47: the list is the claims in the order of urgency; its entries byte by byte. -/
theorem listClaimsByUrgency : Obligations.ListClaimsByUrgency := by
  refine ⟨fun s t taken => ⟨byUrgency t.run.claims, (exec_of_takes rfl taken).trans rfl, byUrgency_perm _, byUrgency_sorted _⟩, fun a b => before_spec, live_iff,
    fun claims floor hold rehearsal _ => ?_, claim_bytes⟩
  have flag : flagByte rehearsal = if rehearsal then 1 else 0 := rfl
  cases hold <;> simp [Answer.payload, countedBytes, leBytes_one, HoldState.code, flag]

/-! ### TRACE SETUP, TRACE ARM, TRACE HALT -/

/-- The capture states in which a setup and an arming are taken (R121, R136). -/
theorem settled_iff (x : CaptureState) : x.settled = true ↔ x = .idle ∨ x = .stopped := by
  cases x <;> simp [CaptureState.settled]

theorem fillMode_ofCode_of_bad {n : Nat} (h : 1 < n) : FillMode.ofCode n = none := by
  obtain ⟨k, rfl⟩ : ∃ k, n = k + 2 := ⟨n - 2, by omega⟩
  rfl

theorem fillMode_ofCode_of_ok {n : Nat} (h : n ≤ 1) : FillMode.ofCode n = some (if n = 0 then .ring else .fillStop) := by
  match n with
  | 0 => rfl
  | 1 => rfl

theorem traceSetup_of_bad {f : TraceFields} (bad : 1 < f.fillMode ∨ 4095 < f.postCount ∨ f.watermark = 0 ∨ 4096 < f.watermark) : traceSetup f = none := by
  by_cases mode : 1 < f.fillMode
  · rw [traceSetup, fillMode_ofCode_of_bad mode]
  · rw [traceSetup, fillMode_ofCode_of_ok (by omega)]
    refine if_neg ?_
    rw [Config.traceLimit]
    omega

theorem traceSetup_of_ok {f : TraceFields} (ok : ¬(1 < f.fillMode ∨ 4095 < f.postCount ∨ f.watermark = 0 ∨ 4096 < f.watermark)) :
    traceSetup f = some { fillMode := if f.fillMode = 0 then .ring else .fillStop, postCount := f.postCount, watermark := f.watermark,
                          engineCycles := f.engineCycles, edges := f.edges, markers := f.markers } := by
  rw [traceSetup, fillMode_ofCode_of_ok (by omega)]
  refine if_pos ?_
  rw [Config.traceLimit]
  omega

/-- TRACE SETUP by the setup that its fields give (R136). -/
theorem exec_traceSetup {f : TraceFields} {s t : State} (taken : s.takes (.traceSetup f) t) :
    (traceSetup f = none → exec (.traceSetup f) s = .next (t.respond .badValue 0x40 .empty)) ∧
    (∀ setup, traceSetup f = some setup → exec (.traceSetup f) s = .next (
      if t.trace.capture.settled then
        ({ t with trace := { t.trace with setup := setup, markLatch := decide (setup.watermark ≤ t.trace.records.length) } } : State).respond .ok 0x40 .empty
      else t.respond .wrongState 0x40 .empty)) := by
  refine ⟨fun none' => (exec_of_takes rfl taken).trans ?_, fun setup some' => (exec_of_takes rfl taken).trans ?_⟩
  · rw [none']
    rfl
  · rw [some']
    dsimp only
    split <;> rfl

theorem captureOfMode_of_bad {n : Nat} (h : 1 < n) : captureOfMode n = none := by
  obtain ⟨k, rfl⟩ : ∃ k, n = k + 2 := ⟨n - 2, by omega⟩
  rfl

theorem captureOfMode_of_ok {n : Nat} (h : n ≤ 1) : captureOfMode n = some (if n = 0 then .recording else .waiting) := by
  match n with
  | 0 => rfl
  | 1 => rfl

/-- TRACE ARM by the capture state that its mode gives (R121). -/
theorem exec_traceArm {mode : Nat} {s t : State} (taken : s.takes (.traceArm mode) t) :
    (captureOfMode mode = none → exec (.traceArm mode) s = .next (t.respond .badValue 0x41 .empty)) ∧
    (∀ capture, captureOfMode mode = some capture → exec (.traceArm mode) s = .next (
      if t.trace.capture.settled then ({ t with trace := { t.trace with capture := capture, tail := 0 } } : State).respond .ok 0x41 .empty
      else t.respond .wrongState 0x41 .empty)) := by
  refine ⟨fun none' => (exec_of_takes rfl taken).trans ?_, fun capture some' => (exec_of_takes rfl taken).trans ?_⟩
  · rw [none']
    rfl
  · rw [some']
    dsimp only
    split <;> rfl

theorem exec_traceHalt {s t : State} (taken : s.takes .traceHalt t) :
    exec .traceHalt s = .next ((if t.trace.capture = .stopped then t else t.stopCapture).respond .ok 0x42 .empty) :=
  (exec_of_takes rfl taken).trans rfl

/-! ### TRACE STATUS, DRAIN -/

/-- The held count is the distance from the oldest to the next number (R133). -/
theorem length_of_consecutive {t : State} (h : t.traceConsecutive) : BitVec.ofNat 32 t.trace.records.length = t.trace.next - t.trace.oldest := by
  obtain ⟨-, numbers⟩ := h
  cases held : t.trace.records with
  | nil => simp [TraceStore.oldest, held]
  | cons r rest =>
    have first := numbers 0 (by simp [held])
    simp only [held, List.getElem_cons_zero, Nat.sub_zero] at first
    rw [TraceStore.oldest, held]
    dsimp only
    rw [first, sub_sub_cancel]

theorem exec_drain {count : Nat} {s t : State} (taken : s.takes (.drain count) t) :
    exec (.drain count) s = .next (
      if count = 0 ∨ 64 < count then t.respond .badValue 0x45 .empty
      else ({ t with trace := t.trace.drained count } : State).respond .ok 0x45 (.records (t.trace.records.take count))) := by
  refine (exec_of_takes rfl taken).trans ?_
  split <;> rfl

/-! ### The 16 bytes of a record -/

theorem kindCode_eq (b : RecordBody) :
    b.kindCode = match b with
      | .cycle _ => 0 | .engine _ _ _ _ => 1 | .edge _ _ => 2 | .holdBegin _ => 3 | .holdEnd _ _ => 4 | .targetReset _ => 5 | .power _ => 6 := by
  cases b <;> rfl

/-- Every body takes seven bytes (11.6). -/
theorem body_length (b : RecordBody) : b.bytes.length = 7 := by
  cases b <;> simp [RecordBody.bytes, CycleRecord.bytes, HoldOrigin.bytes, optBytes]

theorem record_bytes (r : TraceRecord) : r.bytes.length = 16 ∧
    r.bytes = leBytes 4 r.seq.toNat ++ leBytes 4 r.stamp.toNat ++
      ([match r.body with
       | .cycle _ => 0 | .engine _ _ _ _ => 1 | .edge _ _ => 2 | .holdBegin _ => 3 | .holdEnd _ _ => 4 | .targetReset _ => 5 | .power _ => 6] : List Byte) ++
      r.body.bytes := by
  refine ⟨by simp [TraceRecord.bytes, body_length], ?_⟩
  rw [TraceRecord.bytes, leBytes_one, kindCode_eq]
  cases r.body <;> rfl

theorem cycle_bytes {c : CycleRecord} (inSpace : c.address < 0x100000) : (RecordBody.cycle c).bytes =
    leBytes 3 (c.address + 0x100000 * (match c.lane with | some n => n.val | none => 7)) ++
    [c.data,
     BitVec.ofNat 8 ((match c.window with | some w => w.val | none => 128) +
       16 * (match c.route with | .pass => 0 | .overlay => 1 | .overlayRo => 2 | .shadow => 3 | .guard => 4 | .float => 5)),
     BitVec.ofNat 8 ((if c.held then 1 else 0) + (if c.substituted then 2 else 0) + (if c.stretched then 4 else 0) + (if c.contention then 8 else 0) +
       (if c.abandoned then 16 else 0) + (if c.injected then 32 else 0) + 64 * (match c.kind with | .read => 0 | .fetch => 1 | .write => 2)),
     BitVec.ofNat 8 (c.matched.toNat + 16 * c.fired.toNat)] := by
  have lane : laneCode c.lane = match c.lane with | some n => n.val | none => 7 := by cases c.lane <;> rfl
  have route : c.route.code = match c.route with | .pass => 0 | .overlay => 1 | .overlayRo => 2 | .shadow => 3 | .guard => 4 | .float => 5 := by
    cases c.route <;> rfl
  have kind : c.kind.code = match c.kind with | .read => 0 | .fetch => 1 | .write => 2 := by cases c.kind <;> rfl
  have window : (match c.window with | none => 128 | some w => w.val) = match c.window with | some w => w.val | none => 128 := by cases c.window <;> rfl
  rw [RecordBody.bytes, CycleRecord.bytes, Nat.mod_eq_of_lt inSpace, ← lane, ← route, ← kind, ← window, ← setByte_six]
  simp only [leBytes_one, List.append_assoc, List.cons_append, List.nil_append] <;> rfl

theorem engine_bytes {address : Nat} (lane : Fin 4) (data : Byte) (write : Bool) (inSpace : address < 0x100000) :
    (RecordBody.engine address lane data write).bytes = leBytes 3 (address + 0x100000 * lane.val) ++ [data, 0, if write then 0x80 else 0, 0] := by
  rw [RecordBody.bytes, Nat.mod_eq_of_lt inSpace]
  cases write <;> simp [leBytes_one]

/-- Settles O50: the commands by their refusals and effects, the records by their bytes. -/
theorem traceCommands : Obligations.TraceCommands := by
  refine ⟨fun f s t taken => ⟨fun bad => ?_, fun ok notIdle notStopped => ?_, fun ok settled => ?_⟩,
    fun mode s t taken => ⟨fun bad => ?_, fun ok notIdle notStopped => ?_, fun ok settled => ?_⟩,
    fun s t taken => ⟨fun stopped => ?_, fun runs => ?_⟩,
    fun s t taken => ⟨t.trace.oldest, (exec_of_takes rfl taken).trans rfl, TraceClear.oldest_of_empty, fun r rest held => ?_, length_of_consecutive⟩,
    fun count s t taken => ⟨fun bad => ?_, fun low high => ?_⟩,
    fun l _ => rfl, record_bytes, fun c => cycle_bytes, fun address lane data write => engine_bytes lane data write, fun line rising => ?_,
    fun o cause => ⟨?_, ?_⟩, fun origin => ?_, fun lost => ?_⟩
  · exact (exec_traceSetup taken).1 (traceSetup_of_bad bad)
  · rw [(exec_traceSetup taken).2 _ (traceSetup_of_ok ok), if_neg (by simp [settled_iff, notIdle, notStopped])]
  · rw [(exec_traceSetup taken).2 _ (traceSetup_of_ok ok), if_pos ((settled_iff _).2 settled)]
  · exact (exec_traceArm taken).1 (captureOfMode_of_bad bad)
  · rw [(exec_traceArm taken).2 _ (captureOfMode_of_ok ok), if_neg (by simp [settled_iff, notIdle, notStopped])]
  · rw [(exec_traceArm taken).2 _ (captureOfMode_of_ok ok), if_pos ((settled_iff _).2 settled)]
  · rw [exec_traceHalt taken, if_pos stopped]
  · rw [exec_traceHalt taken, if_neg runs]
    rfl
  · rw [TraceStore.oldest, held]
  · rw [exec_drain taken, if_pos bad]
  · rw [exec_drain taken, if_neg (by omega), TraceStore.drained, List.length_drop]
  · cases rising <;> simp [RecordBody.bytes, leBytes_one]
  · rw [RecordBody.bytes, HoldOrigin.bytes, source_code]
    rfl
  · rw [RecordBody.bytes, HoldOrigin.bytes, source_code]
    cases cause <;> rfl
  · cases origin <;> rfl
  · cases lost <;> rfl

/-! ### A record handed over -/

/-- The store has qualified a record's kind by what the Target Port sends, or by its setup (R128). -/
theorem qualifies_eq (t : TraceStore) (sent : Bool) (b : RecordBody) :
    t.qualifies sent b = match b with
      | .cycle _ => sent
      | .engine _ _ _ _ => t.setup.engineCycles
      | .edge _ _ => t.setup.edges
      | .holdBegin _ => t.setup.markers
      | .holdEnd _ _ => t.setup.markers
      | .targetReset _ => t.setup.markers
      | .power _ => t.setup.markers := by
  cases b <;> rfl

theorem capturing_iff (t : TraceStore) : t.capturing = true ↔ t.capture = .recording ∨ t.capture = .tailing := decide_eq_true_iff

theorem full_iff (t : TraceStore) : t.full = true ↔ 4096 ≤ t.records.length := decide_eq_true_iff

/-- The records that an append keeps (R129). -/
theorem push_eq (t : TraceStore) (r : TraceRecord) :
    t.push r = (if 4096 ≤ t.records.length then t.records.drop 1 else t.records) ++ [r] := by
  simp only [TraceStore.push, full_iff]

theorem markTrace_capture (s : State) : s.markTrace.trace.capture = s.trace.capture := by unfold State.markTrace; split <;> rfl

theorem markTrace_tail (s : State) : s.markTrace.trace.tail = s.trace.tail := by unfold State.markTrace; split <;> rfl

theorem markTrace_setup (s : State) : s.markTrace.trace.setup = s.trace.setup := by unfold State.markTrace; split <;> rfl

/-- The held count against the watermark (R131). -/
theorem markTrace_spec (s : State) :
    s.markTrace.trace.markLatch = (s.trace.markLatch || decide (s.trace.setup.watermark ≤ s.trace.records.length)) ∧
    (s.trace.setup.watermark ≤ s.trace.records.length → s.trace.markLatch = false → s.markTrace.noticed .traceMark = true) ∧
    (s.trace.markLatch = true ∨ s.trace.records.length < s.trace.setup.watermark → s.markTrace.noticed .traceMark = s.noticed .traceMark) ∧
    s.markTrace.noticed .traceStopped = s.noticed .traceStopped := by
  unfold State.markTrace
  split
  · next reached =>
    obtain ⟨mark, clear⟩ := reached
    refine ⟨by simp [mark], fun _ _ => noticed_latch_self .., fun other => ?_, noticed_latch_of_ne (by simp) _⟩
    rcases other with set' | below
    · simp [clear] at set'
    · omega
  · next other =>
    refine ⟨?_, fun mark clear => absurd ⟨mark, clear⟩ other, fun _ => rfl, rfl⟩
    by_cases mark : s.trace.setup.watermark ≤ s.trace.records.length
    · have : s.trace.markLatch = true := by simpa [mark] using other
      simp [this]
    · simp [mark]

theorem countTail_setup (s : State) : s.countTail.trace.setup = s.trace.setup := by
  unfold State.countTail; dsimp only
  split
  · split <;> rfl
  · rfl

theorem countTail_markLatch (s : State) : s.countTail.trace.markLatch = s.trace.markLatch := by
  unfold State.countTail; dsimp only
  split
  · split <;> rfl
  · rfl

theorem noticed_traceMark_countTail (s : State) : s.countTail.noticed .traceMark = s.noticed .traceMark := by
  unfold State.countTail; dsimp only
  split
  · split
    · exact noticed_latch_of_ne (by simp) _
    · rfl
  · rfl

/-- Out of TAILING nothing is counted. -/
theorem countTail_of_not {s : State} (h : s.trace.capture ≠ .tailing) : s.countTail = s := if_neg h

/-- In TAILING the record counts, and the last one stops the capture (R124). -/
theorem countTail_of_tailing {s : State} (h : s.trace.capture = .tailing) :
    s.countTail.trace.tail = s.trace.tail - 1 ∧ s.countTail.trace.capture = (if s.trace.tail ≤ 1 then .stopped else .tailing) ∧
    s.countTail.noticed .traceStopped = (s.noticed .traceStopped || decide (s.trace.tail ≤ 1)) := by
  unfold State.countTail
  rw [if_pos h]
  dsimp only
  by_cases last : s.trace.tail ≤ 1
  · rw [if_pos (by omega), if_pos last]
    exact ⟨rfl, rfl, by rw [State.stopCapture, noticed_latch]; simp [last, State.noticed]⟩
  · rw [if_neg (by omega), if_neg last]
    exact ⟨rfl, h, by simp [last, State.noticed]⟩

/-- A record appended: where it stands, the watermark, and the tail (R124, R127, R129, R131). -/
theorem appendRecord_marks (b : RecordBody) (stamp : Stamp) (s : State) {held : Nat}
    (count : (s.trace.push { seq := s.trace.next, stamp := stamp, body := b }).length = held) :
    (s.appendRecord b stamp).trace.setup = s.trace.setup ∧
    (s.appendRecord b stamp).trace.markLatch = (s.trace.markLatch || decide (s.trace.setup.watermark ≤ held)) ∧
    (s.trace.setup.watermark ≤ held → s.trace.markLatch = false → (s.appendRecord b stamp).noticed .traceMark = true) ∧
    (s.trace.markLatch = true ∨ held < s.trace.setup.watermark → (s.appendRecord b stamp).noticed .traceMark = s.noticed .traceMark) ∧
    (s.trace.capture = .recording → (s.appendRecord b stamp).trace.capture = .recording ∧ (s.appendRecord b stamp).trace.tail = s.trace.tail ∧
      (s.appendRecord b stamp).noticed .traceStopped = s.noticed .traceStopped) ∧
    (s.trace.capture = .tailing → (s.appendRecord b stamp).trace.tail = s.trace.tail - 1 ∧
      (s.appendRecord b stamp).trace.capture = (if s.trace.tail ≤ 1 then .stopped else .tailing) ∧
      (s.appendRecord b stamp).noticed .traceStopped = (s.noticed .traceStopped || decide (s.trace.tail ≤ 1))) := by
  subst count
  rw [State.appendRecord]
  generalize placed : ({ s with trace := { s.trace with records := _, next := _ } } : State) = p
  obtain ⟨latch, reached, below, stopped⟩ := markTrace_spec p
  have capture := markTrace_capture p
  have tail := markTrace_tail p
  subst placed
  refine ⟨(countTail_setup _).trans (markTrace_setup _), (countTail_markLatch _).trans latch, fun mark clear => ?_, fun other => ?_, fun records => ?_,
    fun tailing => ?_⟩
  · exact (noticed_traceMark_countTail _).trans (reached mark clear)
  · exact (noticed_traceMark_countTail _).trans (below other)
  · have out := capture.trans records
    rw [countTail_of_not (by rw [out]; simp)]
    exact ⟨out, tail, stopped⟩
  · obtain ⟨left, ends, flag⟩ := countTail_of_tailing (capture.trans tailing)
    rw [tail] at left ends flag
    rw [stopped] at flag
    exact ⟨left, ends, flag⟩

/-- Settles O52: the three outcomes of a record handed over. -/
theorem offerAppendsOrDiscards : Obligations.OfferAppendsOrDiscards := by
  intro b sent stamp s qualifies capturing t kept
  have kind : s.trace.qualifies sent b = qualifies := qualifies_eq ..
  have captures := capturing_iff s.trace
  refine ⟨fun out => ?_, fun on fits room => ?_, fun on fits full stop => ?_⟩
  · refine offer_discards (out.imp (fun off => ?_) (fun unfit => kind.trans unfit))
    exact Bool.eq_false_of_not_eq_true (mt captures.1 off)
  · have hasRoom : (s.trace.full && decide (s.trace.setup.fillMode = .fillStop)) = false := by
      rcases room with below | ring
      · simp [TraceStore.full, Config.traceLimit, Nat.not_le.2 below]
      · simp [ring]
    have appends : s.trace.appends sent b = true := by
      rw [TraceStore.appends, captures.2 on, kind, fits, hasRoom]
      rfl
    have appended : t = s.appendRecord b stamp := offer_appends appends
    obtain ⟨records, next⟩ := appendRecord_spec b stamp s
    have placed := push_eq s.trace { seq := s.trace.next, stamp := stamp, body := b }
    have marks := appendRecord_marks b stamp s (held := kept.length + 1) (by rw [placed]; simp [kept])
    rw [← appended] at records next marks
    exact ⟨offer_traceOnly .., records.trans placed, next, marks⟩
  · exact offer_fillStop (captures.2 on) (kind.trans fits) ((full_iff _).2 full) stop

end Sys2Proof.TraceRows
end

section
/-! PROOFS. The staging slots, the lane profiles, the line survey and the grant rule of the board bus (chapters 8 and 9). -/

namespace Sys2Proof.SlotRows

open Sys2Proof Sys2Proof.Machine Sys2Proof.Resets

/-! ### Staging slots -/

theorem isSealed_eq_false {x : SlotState} (h : x = .empty ∨ x = .filling) : x.isSealed = false := by
  rcases h with rfl | rfl <;> rfl

/-- LOAD SLOT on a slot that there is: its refusals in order, then the bytes join the slot's (R153). -/
theorem exec_loadSlot {slot : Nat} {data : List Byte} {s t : State} (taken : s.takes (.loadSlot slot data) t) (inRange : slot < 4) :
    exec (.loadSlot slot data) s = .next (
      if data.length = 0 ∨ 1024 < data.length then t.respond .badLength 0x60 .empty
      else if t.slots[slot].state.isSealed then t.respond .wrongState 0x60 .empty
      else if 4096 < t.slots[slot].contents.length + data.length then t.respond .badLength 0x60 .empty
      else ({ t with slots := t.slots.set slot { t.slots[slot] with state := .filling, contents := t.slots[slot].contents ++ data } inRange } : State).respond
        .ok 0x60 (.fillLength (t.slots[slot].contents.length + data.length))) := by
  refine (exec_of_takes rfl taken).trans ((dif_pos inRange).trans ?_)
  dsimp only
  split
  · rfl
  · split
    · rfl
    · rw [Config.slotLimit]
      split <;> rfl

/-- SEAL SLOT on a slot that there is (R154). -/
theorem exec_sealSlot {slot : Nat} {s t : State} (taken : s.takes (.sealSlot slot) t) (inRange : slot < 4) :
    (t.slots[slot].state ≠ .filling → exec (.sealSlot slot) s = .next (t.respond .wrongState 0x61 .empty)) ∧
    (t.slots[slot].state = .filling →
      exec (.sealSlot slot) s =
        .next (({ t with slots := t.slots.set slot { t.slots[slot] with state := .sealed (crc32 t.slots[slot].contents) } inRange } : State).respond .ok 0x61
          (.sealed (crc32 t.slots[slot].contents) t.slots[slot].contents.length))) := by
  have meaning := (exec_of_takes (c := .sealSlot slot) rfl taken).trans (dif_pos inRange)
  refine ⟨fun other => meaning.trans ?_, fun filling => meaning.trans ?_⟩
  · dsimp only
    cases state : t.slots[slot].state with
    | empty => rfl
    | filling => exact absurd state other
    | sealed crc => rfl
  · dsimp only
    rw [filling]
    rfl

theorem exec_freeSlot {slot : Nat} {s t : State} (taken : s.takes (.freeSlot slot) t) (inRange : slot < 4) :
    exec (.freeSlot slot) s = .next (
      if 0 < t.slots[slot].binds then t.respond .slotBound 0x62 .empty
      else ({ t with slots := t.slots.set slot { state := .empty, contents := [], binds := 0 } inRange } : State).respond .ok 0x62 .empty) := by
  refine (exec_of_takes rfl taken).trans ((dif_pos inRange).trans ?_)
  split <;> rfl

/-- Settles O56: each command by its refusals, its effect and its answer; the check value by running the CRC. -/
theorem slotCommands : Obligations.SlotCommands := by
  refine ⟨fun slot data s t taken => ⟨fun out => ?_, fun inRange => ⟨fun length => ?_, fun low high isSealed => ?_, fun low high state => ⟨fun above => ?_, fun fits => ?_⟩⟩⟩,
    fun slot s t taken => ⟨fun out => ?_, fun inRange => exec_sealSlot taken inRange⟩,
    fun slot s t taken => ⟨fun out => ?_, fun inRange => ⟨fun bound => ?_, fun unbound => ?_⟩⟩,
    fun slot s t taken => ⟨fun out => ?_, fun inRange => (exec_of_takes rfl taken).trans (dif_pos inRange)⟩, by decide +kernel⟩
  · exact (exec_of_takes rfl taken).trans (dif_neg (by omega))
  · rw [exec_loadSlot taken inRange, if_pos length]
  · rw [exec_loadSlot taken inRange, if_neg (by omega), if_pos isSealed]
  · rw [exec_loadSlot taken inRange, if_neg (by omega), if_neg (by simp [isSealed_eq_false state]), if_pos above]
  · rw [exec_loadSlot taken inRange, if_neg (by omega), if_neg (by simp [isSealed_eq_false state]), if_neg (by omega)]
  · exact (exec_of_takes rfl taken).trans (dif_neg (by omega))
  · exact (exec_of_takes rfl taken).trans (dif_neg (by omega))
  · rw [exec_freeSlot taken inRange, if_pos bound]
  · rw [exec_freeSlot taken inRange, if_neg (by omega)]
  · exact (exec_of_takes rfl taken).trans (dif_neg (by omega))

/-! ### The sectors of a profile -/

/-- The sectors of one run (R159). -/
theorem run_sizes (base size count : Nat) : ((List.range count).map (fun i => (base + i * size, size))).map Prod.snd = List.replicate count size := by
  refine List.ext_getElem (by simp) fun i _ _ => ?_
  simp

theorem sectorsFrom_sizes (base : Nat) (runs : List SectorRun) :
    (sectorsFrom base runs).map Prod.snd = runs.flatMap (fun r => List.replicate r.count r.size) := by
  induction runs generalizing base with
  | nil => rfl
  | cons r runs ih => rw [sectorsFrom, List.map_append, run_sizes, ih, List.flatMap_cons]

/-- A sector begins where the ones before it end (R159). -/
theorem sectorsFrom_start {base : Nat} {runs : List SectorRun} {k : Nat} {q : Nat × Nat} (h : (sectorsFrom base runs)[k]? = some q) :
    q.1 = base + (((sectorsFrom base runs).take k).map Prod.snd).sum := by
  induction runs generalizing base k with
  | nil => simp [sectorsFrom] at h
  | cons r runs ih =>
    rw [sectorsFrom] at h ⊢
    generalize run : (List.range r.count).map (fun i => (base + i * r.size, r.size)) = first at h ⊢
    have firstLength : first.length = r.count := by simp [← run]
    have firstSizes : first.map Prod.snd = List.replicate r.count r.size := by rw [← run, run_sizes]
    by_cases inside : k < r.count
    · rw [List.getElem?_append_left (by omega), ← run, List.getElem?_map, List.getElem?_range inside] at h
      rw [List.take_append_of_le_length (by omega), List.map_take, firstSizes, List.take_replicate, Nat.min_eq_left (by omega), List.sum_replicate, smul_eq_mul,
        ← Option.some.inj h]
    · rw [List.getElem?_append_right (by omega), firstLength] at h
      have later := ih h
      rw [List.take_append, List.take_of_length_le (by omega), List.map_append, List.sum_append, firstSizes, List.sum_replicate, smul_eq_mul, firstLength]
      have product := Nat.mul_comm r.size r.count
      omega

theorem sectors_eq (p : Profile) {f : FlashPart} (h : p.flash = some f) : p.sectors = sectorsFrom p.base f.sectors := by
  rw [Profile.sectors, h]

/-! ### SET PROFILE -/

theorem laneClass_ofCode (n : Nat) : LaneClass.ofCode n = match n with | 0 => some .romOnly | 1 => some .flash | 2 => some .ram | _ => none := by
  match n with
  | 0 => rfl
  | 1 => rfl
  | 2 => rfl
  | _ + 3 => rfl

theorem pollMethod_ofCode (n : Nat) : PollMethod.ofCode n = match n with | 0 => some .toggle | 1 => some .data | 2 => some .readyLine | _ => none := by
  match n with
  | 0 => rfl
  | 1 => rfl
  | 2 => rfl
  | _ + 3 => rfl

theorem laneClass_of_bad {n : Nat} (h : 2 < n) : LaneClass.ofCode n = none := by
  obtain ⟨k, rfl⟩ : ∃ k, n = k + 3 := ⟨n - 3, by omega⟩
  rfl

theorem pollMethod_of_bad {n : Nat} (h : 2 < n) : PollMethod.ofCode n = none := by
  obtain ⟨k, rfl⟩ : ∃ k, n = k + 3 := ⟨n - 3, by omega⟩
  rfl

/-- Class FLASH has code 1 (R188). -/
theorem laneClass_flash {n : Nat} {cls : LaneClass} (code : LaneClass.ofCode n = some cls) : cls = .flash ↔ n = 1 := by
  match n, code with
  | 0, code => rw [← Option.some.inj code]; decide
  | 1, code => rw [← Option.some.inj code]; decide
  | 2, code => rw [← Option.some.inj code]; decide

theorem mem_laneSizes (n : Nat) : laneSizes.contains n = true ↔ ∃ k, k ≤ 10 ∧ n = 1024 * 2 ^ k := by
  rw [laneSizes, List.contains_iff_mem, List.mem_map]
  simp only [List.mem_range, Nat.lt_succ_iff, eq_comm (a := n)]

theorem mem_sectorSizes (n : Nat) : sectorSizes.contains n = true ↔ ∃ k, k ≤ 12 ∧ n = 256 * 2 ^ k := by
  rw [sectorSizes, List.contains_iff_mem, List.mem_map]
  simp only [List.mem_range, Nat.lt_succ_iff, eq_comm (a := n)]

/-- A power of two from 256 upward that is at most 1 MiB is a sector size. -/
theorem mem_sectorSizes_of_le {n : Nat} (power : ∃ k, n = 256 * 2 ^ k) (limit : n ≤ 1048576) : sectorSizes.contains n = true := by
  obtain ⟨k, rfl⟩ := power
  refine (mem_sectorSizes _).2 ⟨k, ?_, rfl⟩
  by_contra above
  have : 2 ^ 13 ≤ 2 ^ k := Nat.pow_le_pow_right (by omega) (by omega)
  omega

/-- The base and size of a lane that R160 admits. -/
theorem rangeOk_iff (base size : Nat) :
    rangeOk base size = true ↔ base % 256 = 0 ∧ base ≤ 0xFFF00 ∧ (∃ k, k ≤ 10 ∧ size = 1024 * 2 ^ k) ∧ base + size ≤ 0x100000 := by
  simp only [rangeOk, Bool.and_eq_true, decide_eq_true_eq, mem_laneSizes, and_assoc]
  exact Iff.rfl

/-- What R160 and R161 refuse in the FLASH fields. -/
def FlashBad (f : ProfileFields) : Prop :=
  4 < f.unlock.length ∨ 6 < f.sectorErase.length ∨ 6 < f.laneErase.length ∨
  (∃ q ∈ f.program :: f.resetPair :: (f.unlock ++ f.sectorErase ++ f.laneErase), f.size ≤ q.offset) ∨ 2 < f.pollMethod ∨ 7 < f.pollBit ∨
  f.programTimeout = 0 ∨ 65535 < f.programTimeout ∨ f.sectorTimeout = 0 ∨ 65535 < f.sectorTimeout ∨ f.laneTimeout = 0 ∨ 65535 < f.laneTimeout ∨
  f.sectors.length = 0 ∨ 8 < f.sectors.length ∨ (∃ r ∈ f.sectors, (¬∃ k, r.size = 256 * 2 ^ k) ∨ r.count = 0) ∨
  (f.sectors.map (fun r => r.size * r.count)).sum ≠ f.size

theorem timeoutOk_iff (n : Nat) : timeoutOk n = true ↔ 1 ≤ n ∧ n ≤ 65535 := by
  simp only [timeoutOk, Bool.and_eq_true, decide_eq_true_eq]

theorem sectorsOk_iff (size : Nat) (runs : List SectorRun) :
    sectorsOk size runs = true ↔ 1 ≤ runs.length ∧ runs.length ≤ 8 ∧ (∀ r ∈ runs, sectorSizes.contains r.size = true ∧ 1 ≤ r.count) ∧
      (runs.map (fun r => r.size * r.count)).sum = size := by
  simp only [sectorsOk, Bool.and_eq_true, decide_eq_true_eq, List.all_eq_true, and_assoc]

theorem offsetsOk_iff (pairs : List Pair) (size : Nat) : pairs.all (fun q => decide (q.offset < size)) = true ↔ ¬∃ q ∈ pairs, size ≤ q.offset := by
  simp only [List.all_eq_true, decide_eq_true_eq, not_exists, not_and, Nat.not_le]

theorem flashPart_of_bad {f : ProfileFields} (bad : FlashBad f) : flashPart f = none := by
  rw [flashPart]
  cases method : PollMethod.ofCode f.pollMethod with
  | none => rfl
  | some m =>
    refine if_neg fun ⟨unlock, sectorErase, laneErase, offsets, pollBit, program, sector, lane, sectors⟩ => ?_
    obtain ⟨some', atMost, runs, sum⟩ := (sectorsOk_iff _ _).1 sectors
    have program := (timeoutOk_iff _).1 program
    have sector := (timeoutOk_iff _).1 sector
    have lane := (timeoutOk_iff _).1 lane
    rcases bad with h | h | h | h | h | h | h | h | h | h | h | h | h | h | ⟨r, mem, h | h⟩ | h
    case inr.inr.inr.inl => exact (offsetsOk_iff _ _).1 offsets h
    case inr.inr.inr.inr.inl =>
      rw [pollMethod_of_bad h] at method
      nomatch method
    case inr.inr.inr.inr.inr.inr.inr.inr.inr.inr.inr.inr.inr.inr.inl.inl =>
      obtain ⟨k, -, size⟩ := (mem_sectorSizes _).1 (runs r mem).1
      exact h ⟨k, size⟩
    case inr.inr.inr.inr.inr.inr.inr.inr.inr.inr.inr.inr.inr.inr.inl.inr =>
      have := (runs r mem).2
      omega
    all_goals omega

/-- A run is at most as long as its lane. -/
theorem run_le_sum {runs : List SectorRun} {r : SectorRun} (mem : r ∈ runs) (count : 1 ≤ r.count) :
    r.size ≤ (runs.map (fun r => r.size * r.count)).sum :=
  (Nat.le_mul_of_pos_right _ count).trans (List.single_le_sum (by simp) _ (List.mem_map_of_mem mem))

theorem flashPart_of_ok {f : ProfileFields} {method : PollMethod} (ok : ¬FlashBad f) (size : f.size ≤ 1048576) (code : PollMethod.ofCode f.pollMethod = some method) :
    flashPart f = some { unlock := f.unlock, program := f.program, sectorErase := f.sectorErase, sectorCommand := f.sectorCommand, laneErase := f.laneErase,
                         resetPair := f.resetPair, pollMethod := method, pollBit := f.pollBit, programTimeout := f.programTimeout,
                         sectorTimeout := f.sectorTimeout, laneTimeout := f.laneTimeout, sectors := f.sectors } := by
  simp only [FlashBad, not_or, not_exists, not_and, Nat.not_lt, not_not, ne_eq] at ok
  obtain ⟨unlock, sectorErase, laneErase, offsets, -, pollBit, program, program', sector, sector', lane, lane', some', atMost, runs, sum⟩ := ok
  rw [flashPart, code]
  refine if_pos ⟨unlock, sectorErase, laneErase, (offsetsOk_iff _ _).2 fun ⟨q, mem, above⟩ => offsets q mem above, pollBit,
    (timeoutOk_iff _).2 ⟨by omega, program'⟩, (timeoutOk_iff _).2 ⟨by omega, sector'⟩, (timeoutOk_iff _).2 ⟨by omega, lane'⟩,
    (sectorsOk_iff _ _).2 ⟨by omega, atMost, fun r mem => ?_, sum⟩⟩
  obtain ⟨power, count⟩ := runs r mem
  have positive : 1 ≤ r.count := by omega
  exact ⟨mem_sectorSizes_of_le (by simpa using power) (by have := run_le_sum mem positive; omega), positive⟩

/-- What R160 and R161 refuse in a profile. -/
def ProfileBad (f : ProfileFields) : Prop :=
  2 < f.cls ∨ f.base % 256 ≠ 0 ∨ 0xFFF00 < f.base ∨ (¬∃ k, k ≤ 10 ∧ f.size = 1024 * 2 ^ k) ∨ 0x100000 < f.base + f.size ∨ (f.cls = 1 ∧ FlashBad f)

/-- The profile that SET PROFILE stores, by its class (R162). -/
def profileOf (cls : LaneClass) (method : PollMethod) (f : ProfileFields) : Profile :=
  { cls := cls, base := f.base, size := f.size, erased := f.erased,
    flash := if cls = .flash then some
        { unlock := f.unlock, program := f.program, sectorErase := f.sectorErase, sectorCommand := f.sectorCommand, laneErase := f.laneErase,
          resetPair := f.resetPair, pollMethod := method, pollBit := f.pollBit, programTimeout := f.programTimeout,
          sectorTimeout := f.sectorTimeout, laneTimeout := f.laneTimeout, sectors := f.sectors }
      else none }

theorem profileRecord_of_bad {f : ProfileFields} (bad : ProfileBad f) : profileRecord f = none := by
  rw [profileRecord]
  cases code : LaneClass.ofCode f.cls with
  | none => rfl
  | some cls =>
    dsimp only
    by_cases range : rangeOk f.base f.size = false
    · exact if_pos range
    · obtain ⟨base, top, size, limit⟩ := (rangeOk_iff _ _).1 (by simpa using range)
      rw [if_neg range]
      have flash : f.cls = 1 ∧ FlashBad f := by
        rcases bad with h | h | h | h | h | h
        · rw [laneClass_of_bad h] at code
          nomatch code
        · exact absurd base h
        · omega
        · exact absurd size h
        · omega
        · exact h
      rw [(laneClass_flash code).2 flash.1]
      dsimp only
      rw [flashPart_of_bad flash.2]
      rfl

theorem profileRecord_of_ok {f : ProfileFields} {cls : LaneClass} {method : PollMethod} (ok : ¬ProfileBad f) (code : LaneClass.ofCode f.cls = some cls)
    (methodCode : cls = .flash → PollMethod.ofCode f.pollMethod = some method) : profileRecord f = some (profileOf cls method f) := by
  simp only [ProfileBad, not_or, Nat.not_lt, not_not, ne_eq] at ok
  obtain ⟨-, base, top, size, limit, flash⟩ := ok
  have range : ¬rangeOk f.base f.size = false := by
    rw [(rangeOk_iff _ _).2 ⟨base, top, size, limit⟩]
    exact Bool.noConfusion
  rw [profileRecord, code]
  dsimp only
  rw [if_neg range]
  cases cls with
  | flash =>
    dsimp only
    rw [flashPart_of_ok (fun bad => flash ⟨(laneClass_flash code).1 rfl, bad⟩) (by omega) (methodCode rfl)]
    rfl
  | romOnly => rfl
  | ram => rfl

theorem laneNamed_iff (lane : Nat) (s : State) : s.laneNamed lane = true ↔ ∃ j ∈ s.engine.jobs, j.unfinished = true ∧ j.lane.val = lane := by
  simp only [State.laneNamed, List.any_eq_true, Bool.and_eq_true, decide_eq_true_eq]

/-- SET PROFILE on a lane that there is, by the profile that its fields give (R160 to R162, R164). -/
theorem exec_setProfile {lane : Nat} {f : ProfileFields} {s t : State} (taken : s.takes (.setProfile lane f) t) (inRange : lane < 4) :
    (profileRecord f = none → exec (.setProfile lane f) s = .next (t.respond .badValue 0x68 .empty)) ∧
    (∀ p, profileRecord f = some p → exec (.setProfile lane f) s = .next (
      if t.laneNamed lane then t.respond .engineActive 0x68 .empty
      else ({ t with lanes := t.lanes.set lane { profile := some p, owed := decide (p.cls = .flash) } inRange } : State).respond .ok 0x68 .empty)) := by
  have meaning := (exec_of_takes (c := .setProfile lane f) rfl taken).trans (dif_pos inRange)
  refine ⟨fun none' => meaning.trans ?_, fun p some' => meaning.trans ?_⟩
  · rw [none']
    rfl
  · rw [some']
    dsimp only
    split <;> rfl

theorem exec_setProfile_outOfRange {lane : Nat} {f : ProfileFields} {s t : State} (taken : s.takes (.setProfile lane f) t) (out : ¬lane < 4) :
    exec (.setProfile lane f) s = .next (t.respond .badValue 0x68 .empty) :=
  (exec_of_takes rfl taken).trans (dif_neg out)

/-- Fields that R160 and R161 allow give a profile. -/
theorem exists_profileRecord {f : ProfileFields} (ok : ¬ProfileBad f) : ∃ p, profileRecord f = some p := by
  have cls : ∃ cls, LaneClass.ofCode f.cls = some cls := by
    have : f.cls ≤ 2 := Nat.not_lt.1 fun above => ok (.inl above)
    match f.cls, this with
    | 0, _ => exact ⟨_, rfl⟩
    | 1, _ => exact ⟨_, rfl⟩
    | 2, _ => exact ⟨_, rfl⟩
  obtain ⟨cls, code⟩ := cls
  have method : ∃ method, cls = .flash → PollMethod.ofCode f.pollMethod = some method := by
    cases methodCode : PollMethod.ofCode f.pollMethod with
    | some method => exact ⟨method, fun _ => rfl⟩
    | none =>
      refine ⟨.toggle, fun flash => absurd (.inr (.inr (.inr (.inr (.inr ⟨(laneClass_flash code).1 flash, ?_⟩))))) ok⟩
      have above : 2 < f.pollMethod := by
        by_contra low
        match f.pollMethod, methodCode, low with
        | 0, h, _ => nomatch h
        | 1, h, _ => nomatch h
        | 2, h, _ => nomatch h
        | k + 3, _, low => exact low (by omega)
      exact .inr (.inr (.inr (.inr (.inl above))))
  obtain ⟨method, methodCode⟩ := method
  exact ⟨_, profileRecord_of_ok ok code methodCode⟩

theorem exec_clearProfile {lane : Nat} {s t : State} (taken : s.takes (.clearProfile lane) t) (inRange : lane < 4) :
    exec (.clearProfile lane) s = .next (
      if t.laneNamed lane then t.respond .engineActive 0x6A .empty
      else ({ t with lanes := t.lanes.set lane { profile := none, owed := false } inRange } : State).respond .ok 0x6A .empty) := by
  refine (exec_of_takes rfl taken).trans ((dif_pos inRange).trans ?_)
  split <;> rfl

/-- Settles O57: the sectors by induction on the runs, the commands by their refusals and effects. -/
theorem profileCommands : Obligations.ProfileCommands := by
  refine ⟨fun p => ⟨fun none' => by rw [Profile.sectors, none'], fun f flash => ?_⟩, laneClass_ofCode, pollMethod_ofCode,
    fun lane f s t taken => ⟨fun bad => ?_, fun ok named => ?_, fun inRange cls method ok unnamed code methodCode => ?_⟩,
    fun lane s t taken => ⟨fun out => (exec_of_takes rfl taken).trans (dif_neg (by omega)), fun inRange => (exec_of_takes rfl taken).trans (dif_pos inRange)⟩,
    fun lane s t taken => ⟨fun out => (exec_of_takes rfl taken).trans (dif_neg (by omega)), fun inRange => ⟨fun named => ?_, fun unnamed => ?_⟩⟩⟩
  · rw [sectors_eq p flash]
    exact ⟨sectorsFrom_sizes _ _, fun k q at_ => sectorsFrom_start at_⟩
  · by_cases inRange : lane < 4
    · exact (exec_setProfile taken inRange).1 (profileRecord_of_bad (bad.resolve_left (by omega)))
    · exact exec_setProfile_outOfRange taken inRange
  · have inRange : lane < 4 := by
      by_contra out
      exact ok (.inl (by omega))
    obtain ⟨p, record⟩ := exists_profileRecord (mt Or.inr ok)
    rw [(exec_setProfile taken inRange).2 p record, if_pos ((laneNamed_iff _ _).2 named)]
  · rw [(exec_setProfile taken inRange).2 _ (profileRecord_of_ok (mt Or.inr ok) code methodCode), if_neg (mt (laneNamed_iff _ _).1 unnamed)]
    rfl
  · rw [exec_clearProfile taken inRange, if_pos ((laneNamed_iff _ _).2 named)]
  · rw [exec_clearProfile taken inRange, if_neg (mt (laneNamed_iff _ _).1 unnamed)]

/-! ### The grant rule -/

theorem busKept_iff (s : State) :
    s.busKept = true ↔ (s.run.hold = .running ∨ s.run.hold = .holdArmed) ∧ s.run.rehearsal = false ∧ s.port.powered = true ∧ s.port.waitWired = false := by
  simp only [State.busKept, Bool.and_eq_true, decide_eq_true_eq, Bool.not_eq_true', and_assoc]

/-- With the bus free, the supply present and no reset, the bus kept goes to the target alone (R141); else the choice of R139 is made. -/
theorem arbitrate_of_free {s : State} (free : s.bus.owner = .free) (powered : s.port.powered = true) (prst : s.port.prst = false) :
    s.arbitrate = if s.busKept then (if s.bus.target then { s with bus := s.bus.grantTarget false } else s) else { s with bus := s.bus.choose } := by
  rw [State.arbitrate, if_neg (by simp [free, powered, prst])]

/-- Settles O53: the branches of the choice in their order. -/
theorem arbiterGrantsByRule : Obligations.ArbiterGrantsByRule := by
  refine fun s => ⟨busKept_iff s, fun barred => if_pos barred, fun free powered prst => ⟨fun kept target => ?_, fun kept none' => ?_, fun open' => ?_⟩⟩
  · rw [arbitrate_of_free free powered prst, if_pos kept, if_pos target]
    rfl
  · rw [arbitrate_of_free free powered prst, if_pos kept, if_neg (by simp [none'])]
  · have choice := (arbitrate_of_free free powered prst).trans (if_neg (by simp [open']))
    refine ⟨fun aged => ?_, fun w young aged => ?_, fun young youngEngine => ⟨fun target => ?_, fun n target bench => ?_, fun r target bench engine => ?_,
      fun target bench engine => ?_⟩⟩
    · rw [choice, Bus.choose, if_pos aged]
      rfl
    · rw [choice, Bus.choose, if_neg young, aged]
      rfl
    · rw [choice, Bus.choose, if_neg young]
      cases engine : s.bus.engine with
      | none =>
        dsimp only
        rw [if_pos target, Bus.grantTarget, engine]
        rfl
      | some r =>
        dsimp only
        rw [if_neg (youngEngine r engine), if_pos target, Bus.grantTarget, engine]
        rfl
    · rw [choice, Bus.choose, if_neg young]
      cases engine : s.bus.engine with
      | none =>
        dsimp only
        rw [if_neg (by simp [target]), if_pos (by simp [bench]), Bus.grantBench, engine]
      | some r =>
        dsimp only
        rw [if_neg (youngEngine r engine), if_neg (by simp [target]), if_pos (by simp [bench]), Bus.grantBench, engine]
    · rw [choice, Bus.choose, if_neg young, engine]
      dsimp only
      rw [if_neg (youngEngine r engine), if_neg (by simp [target]), if_neg (by simp [bench])]
      rfl
    · rw [choice, Bus.choose, if_neg young, engine]
      dsimp only
      rw [if_neg (by simp [target]), if_neg (by simp [bench])]

/-! ### The line survey -/

theorem mayLineSurvey_iff (s : State) :
    s.mayLineSurvey = true ↔ s.run.hold = .resetHeld ∨ (s.run.rehearsal = true ∧ (s.run.hold = .running ∨ s.run.hold = .holdArmed)) := by
  simp only [State.mayLineSurvey, Bool.or_eq_true, Bool.and_eq_true, decide_eq_true_eq]

/-- SURVEY LINES: its refusals in order, then one ENGINE request (R147). -/
theorem exec_surveyLines {s t : State} (taken : s.takes .surveyLines t) :
    exec .surveyLines s = .next (
      if t.bus.survey then t.respond .wrongState 0x52 .empty
      else if t.mayLineSurvey = false then t.respond .wrongState 0x52 .empty
      else if t.activeJob.isSome then t.respond .engineActive 0x52 .empty
      else (State.settle { t with bus := { t.bus with survey := true, engine := some { aging := 0, work := .lineSurvey } } }).respond .ok 0x52 .empty) := by
  refine (exec_of_takes rfl taken).trans ?_
  split
  · rfl
  · split
    · rfl
    · split <;> rfl

theorem exec_clearLineMap {s t : State} (taken : s.takes .clearLineMap t) :
    exec .clearLineMap s = .next (
      if t.bus.survey then t.respond .wrongState 0x54 .empty
      else ({ t with bus := { t.bus with lineMap := Vector.replicate 28 .untested } } : State).respond .ok 0x54 .empty) := by
  refine (exec_of_takes rfl taken).trans ?_
  split <;> rfl

/-- The judgement of a line from its readings (R149). -/
theorem judgeLine_spec (high low : List (BitVec 28)) (l : Fin 28) :
    (levelRead high l l = false → judgeLine high low l = .stuckLow) ∧
    (levelRead high l l = true → levelRead low l l = true → judgeLine high low l = .stuckHigh) ∧
    (∀ m, levelRead high l l = true → levelRead low l l = false → m ≠ l → levelRead high m l = true → levelRead low m l = false →
      (∀ k, k < m → k ≠ l → ¬(levelRead high k l = true ∧ levelRead low k l = false)) → judgeLine high low l = .bridged m) ∧
    (levelRead high l l = true → levelRead low l l = false → (∀ m, m ≠ l → ¬(levelRead high m l = true ∧ levelRead low m l = false)) →
      judgeLine high low l = .good) := by
  refine ⟨fun stuck => if_pos stuck, fun own stuck => ?_, fun m own free other follows follows' lowest => ?_, fun own free alone => ?_⟩
  · rw [judgeLine, if_neg (by simp [own]), if_pos stuck]
  · have found : (List.finRange 28).find? (fun m => decide (m ≠ l) && levelRead high m l && !levelRead low m l) = some m := by
      refine List.find?_eq_some_iff_getElem.2 ⟨by simp [other, follows, follows'], m.val, by simp, by simp, fun j below => ?_⟩
      have none' := lowest ⟨j, by omega⟩ below
      have same : (List.finRange 28)[j]'(by simp; omega) = ⟨j, by omega⟩ := by simp
      rw [same]
      by_cases self : (⟨j, by omega⟩ : Fin 28) = l
      · simp [self]
      · have := none' self
        simp only [not_and, Bool.not_eq_false] at this
        cases reads : levelRead high ⟨j, by omega⟩ l <;> simp [this, reads]
    rw [judgeLine, if_neg (by simp [own]), if_neg (by simp [free]), found]
  · have none' : (List.finRange 28).find? (fun m => decide (m ≠ l) && levelRead high m l && !levelRead low m l) = none := by
      refine List.find?_eq_none.2 fun m _ => ?_
      simp only [Bool.and_eq_true, decide_eq_true_eq, Bool.not_eq_true', not_and, Bool.not_eq_false]
      exact fun ⟨other, follows⟩ => by simpa [follows] using alone m other
    rw [judgeLine, if_neg (by simp [own]), if_neg (by simp [free]), none']

/-- Settles O55: the commands by their refusals and effects, the map by the judgement of each line. -/
theorem lineSurveyAndMap : Obligations.LineSurveyAndMap := by
  refine ⟨fun s t taken => ⟨fun barred => ?_, fun idle admitted active => ?_, fun idle admitted none' => ?_⟩,
    fun s t taken => (exec_of_takes rfl taken).trans rfl, fun s t taken => ⟨fun runs => ?_, fun idle => ?_⟩,
    fun high low s => ⟨fun owner prst => ⟨Vector.ofFn (judgeLine high low), if_pos ⟨owner, prst⟩, fun l => ?_⟩, fun other => if_neg ?_⟩⟩
  · rw [exec_surveyLines taken]
    by_cases runs : t.bus.survey = true
    · exact congrArg _ (if_pos runs)
    · rw [if_neg runs, if_pos]
      exact Bool.eq_false_of_not_eq_true (mt (mayLineSurvey_iff t).1 (barred.resolve_left runs))
  · rw [exec_surveyLines taken, if_neg (by simp [idle]), if_neg (by simp [(mayLineSurvey_iff t).2 admitted]), if_pos active]
  · rw [exec_surveyLines taken, if_neg (by simp [idle]), if_neg (by simp [(mayLineSurvey_iff t).2 admitted]), if_neg (by simp [none'])]
  · rw [exec_clearLineMap taken, if_pos runs]
  · rw [exec_clearLineMap taken, if_neg (by simp [idle])]
  · have entry : (Vector.ofFn (judgeLine high low))[l] = judgeLine high low l := by simp
    rw [entry]
    exact judgeLine_spec high low l
  · rintro ⟨owner, prst⟩
    exact other.elim (fun h => h owner) (fun h => Bool.false_ne_true (prst.symm.trans h))

end Sys2Proof.SlotRows
end

section
/-! PROOFS. What the operations of the part leave of the bench link: the receive queue, the mask, the rate, and every flag that is pending (R186, R189). -/

namespace Sys2Proof.LinkKeeping

open Sys2Proof Sys2Proof.Machine Sys2Proof.BenchLink Sys2Proof.JobTable

/-- The receive queue, the mask and the rate stand, and a pending flag stays pending. -/
structure LinkKept (s t : State) : Prop where
  queue : t.link.queue = s.link.queue
  mask : t.link.mask = s.link.mask
  rate : t.link.rate = s.link.rate
  notices : ∀ n : Notice, s.noticed n = true → t.noticed n = true

theorem linkKept_of_link {s t : State} (h : t.link = s.link) : LinkKept s t where
  queue := congrArg Link.queue h
  mask := congrArg Link.mask h
  rate := congrArg Link.rate h
  notices := fun n pending => by rwa [State.noticed, h]

theorem linkKept_refl (s : State) : LinkKept s s := linkKept_of_link rfl

theorem LinkKept.trans {s t u : State} (h : LinkKept s t) (k : LinkKept t u) : LinkKept s u where
  queue := k.queue.trans h.queue
  mask := k.mask.trans h.mask
  rate := k.rate.trans h.rate
  notices := fun n pending => k.notices n (h.notices n pending)

/-- What keeps the link of a state keeps that of one with the same link. -/
theorem LinkKept.before {s t u : State} (k : LinkKept u t) (h : u.link = s.link) : LinkKept s t := (linkKept_of_link h).trans k

theorem linkKept_latch (n : Notice) (s : State) : LinkKept s (s.latch n) where
  queue := rfl
  mask := rfl
  rate := rfl
  notices := fun _ pending => noticed_latch_of_noticed pending n

theorem linkKept_respond (x : Status) (k : Byte) (a : Answer) (s : State) : LinkKept s (s.respond x k a) where
  queue := rfl
  mask := rfl
  rate := rfl
  notices := fun _ pending => pending

theorem linkKept_occupy (a : Activity) (s : State) : LinkKept s (s.occupy a) where
  queue := rfl
  mask := rfl
  rate := rfl
  notices := fun _ pending => pending

/-! ### The Trace Store -/

theorem linkKept_stopCapture (s : State) : LinkKept s s.stopCapture := .before (linkKept_latch ..) rfl

theorem linkKept_markTrace (s : State) : LinkKept s s.markTrace := by
  unfold State.markTrace
  split
  · exact .before (linkKept_latch ..) rfl
  · exact linkKept_refl s

theorem linkKept_countTail (s : State) : LinkKept s s.countTail := by
  unfold State.countTail
  dsimp only
  split
  · split
    · exact .before (linkKept_stopCapture _) rfl
    · exact linkKept_of_link rfl
  · exact linkKept_refl s

theorem linkKept_offer (b : RecordBody) (sent : Bool) (stamp : Stamp) (s : State) : LinkKept s (s.offer b sent stamp) := by
  unfold State.offer
  split
  · exact ((linkKept_markTrace _).trans (linkKept_countTail _)).before rfl
  · split
    · exact linkKept_stopCapture s
    · exact linkKept_refl s

theorem linkKept_mark (b : RecordBody) (s : State) : LinkKept s (s.mark b) := linkKept_offer ..

theorem linkKept_traceStop (s : State) : LinkKept s s.traceStop := by
  unfold State.traceStop
  split
  · split
    · exact linkKept_stopCapture s
    · exact linkKept_of_link rfl
  · exact linkKept_refl s

/-! ### A cycle cut off -/

theorem linkKept_recordCycle (c : Cycle) (abandoned : Bool) (s : State) : LinkKept s (s.recordCycle c abandoned).1 := by
  unfold State.recordCycle
  dsimp only
  split
  · exact (linkKept_offer ..).trans (linkKept_traceStop _)
  · exact linkKept_offer ..

theorem linkKept_answerInjected (c : Cycle) (abandoned : Bool) (d : Delivery) (s : State) : LinkKept s (s.answerInjected c abandoned d) := by
  unfold State.answerInjected
  repeat' split
  all_goals first
    | exact linkKept_respond ..
    | exact linkKept_refl s

theorem linkKept_abandonCycle (s : State) : LinkKept s s.abandonCycle := by
  unfold State.abandonCycle
  split
  · exact linkKept_refl s
  · split
    · exact linkKept_refl s
    · exact (linkKept_recordCycle ..).trans (.before (linkKept_answerInjected ..) rfl)

theorem linkKept_endHold (cause : EndCause) (s : State) : LinkKept s (s.endHold cause) := by
  unfold State.endHold
  dsimp only
  split
  · exact (linkKept_mark ..).trans (linkKept_of_link rfl)
  · exact linkKept_of_link rfl

theorem linkKept_cutOff (cause : EndCause) (dest : HoldState) (marker : RecordBody) (s : State) : LinkKept s (s.cutOff cause dest marker) := by
  unfold State.cutOff
  dsimp only
  refine LinkKept.trans ?_ ((linkKept_abandonCycle _).trans (linkKept_mark ..))
  split
  · exact (linkKept_endHold ..).trans (linkKept_of_link rfl)
  · exact linkKept_of_link rfl

/-! ### The engine -/

theorem linkKept_endJob (j : Job) (c : Completion) (s : State) : LinkKept s (s.endJob j c) := by
  refine LinkKept.trans ?_ (linkKept_latch .jobEnded _)
  unfold State.unbind
  split <;> exact linkKept_of_link rfl

theorem linkKept_cancelFold (l : List Job) (s : State) : LinkKept s (l.foldl (fun t j => t.cancel j) s) := by
  induction l generalizing s with
  | nil => exact linkKept_refl s
  | cons j l ih => exact (linkKept_endJob j _ s).trans (ih _)

theorem linkKept_cancelAll (s : State) : LinkKept s s.cancelAll := linkKept_cancelFold ..

theorem linkKept_finishAbort (j : Job) (a : Active) (s : State) : LinkKept s (s.finishAbort j a) :=
  ((linkKept_endJob ..).trans (linkKept_cancelAll _)).trans (linkKept_respond ..)

theorem linkKept_work {j : Job} {s t : State} (work : Work j s t) : LinkKept s t := by
  induction work with
  | rests s => exact linkKept_refl s
  | asks a l s => exact linkKept_of_link rfl
  | awaits a s => exact linkKept_of_link rfl
  | ends c s => exact linkKept_endJob ..
  | aborts a s => exact linkKept_finishAbort ..
  | @owes lane b s _ _ ih => exact (linkKept_of_link rfl : LinkKept s (s.setOwed lane b)).trans ih

theorem linkKept_finishTransfer (tr : Transfer) (s : State) : LinkKept s (s.finishTransfer tr) := by
  unfold State.finishTransfer
  split <;> exact linkKept_respond ..

theorem linkKept_cutTransfer (cut : TransferByte → Bool) (s : State) : LinkKept s (s.cutTransfer cut) := by
  unfold State.cutTransfer
  dsimp only
  repeat' split
  all_goals first
    | with_reducible exact linkKept_refl s
    | with_reducible exact linkKept_occupy ..
    | exact LinkKept.trans (t := { s with bus := { s.bus with bench := none } }) (linkKept_of_link rfl) (linkKept_finishTransfer ..)

theorem linkKept_startJob (j : Job) (s : State) : LinkKept s (s.startJob j) := by
  obtain ⟨u, rfl | ⟨cut, rfl⟩, work⟩ := startJob_course j s
  · exact (linkKept_work work).before rfl
  · exact ((linkKept_cutTransfer cut _).trans (linkKept_work work)).before rfl

theorem linkKept_judgeOnce (s : State) : LinkKept s s.judgeOnce := by
  unfold State.judgeOnce
  repeat' split
  · exact linkKept_refl s
  · exact linkKept_refl s
  · exact linkKept_startJob ..
  · exact linkKept_of_link rfl

theorem linkKept_judgeTimes (n : Nat) (s : State) : LinkKept s (s.judgeTimes n) := by
  induction n generalizing s with
  | zero => exact linkKept_refl s
  | succ n ih => exact (linkKept_judgeOnce s).trans (ih _)

theorem linkKept_settleAbort (s : State) : LinkKept s s.settleAbort := by
  unfold State.settleAbort
  repeat' split
  · exact linkKept_refl s
  · exact .before (linkKept_finishAbort ..) rfl
  · exact linkKept_refl s
  · exact linkKept_refl s

theorem linkKept_arbitrate (s : State) : LinkKept s s.arbitrate := by
  unfold State.arbitrate
  repeat' split
  all_goals exact linkKept_of_link rfl

/-- What follows every change of the conditions that the engine and the arbiter watch. -/
theorem linkKept_settle (s : State) : LinkKept s s.settle :=
  ((linkKept_judgeTimes ..).trans (linkKept_settleAbort _)).trans (linkKept_arbitrate _)

/-! ### The limits -/

theorem linkKept_passUntil (start : Stamp) (n : Nat) (s : State) : LinkKept s (s.passUntil start n) := by
  unfold State.passUntil
  split <;> exact linkKept_of_link rfl

theorem linkKept_expireHold (t : HoldTimer) (s : State) : LinkKept s (s.expireHold t) :=
  (((linkKept_passUntil ..).trans (linkKept_cutOff ..)).trans (linkKept_latch ..)).trans (linkKept_settle _)

theorem linkKept_expireDue (s : State) : LinkKept s s.expireDue := by
  unfold State.expireDue
  split
  · split
    · exact linkKept_expireHold ..
    · exact linkKept_refl s
  · exact linkKept_refl s

theorem linkKept_pollExpire (s : State) : LinkKept s s.pollExpire := by
  unfold State.pollExpire
  split
  · split
    · exact .before (linkKept_settle _) rfl
    · exact linkKept_refl s
  · exact linkKept_refl s

/-- The end of a reception changes the queue alone. -/
theorem endReception_link (f : Frame) (s : State) : s.endReception f = { s with link := { s.link with queue := (s.endReception f).link.queue } } := by
  unfold State.endReception
  split <;> rfl

theorem noticed_endReception (f : Frame) (s : State) (n : Notice) : (s.endReception f).noticed n = s.noticed n := by
  rw [endReception_link]
  rfl

/-- A frame that has become late: no time passes, and the queue alone changes (R185; log 4). -/
theorem dropDue_eq (s : State) : s.dropDue = { s with link := { s.link with queue := s.dropDue.link.queue } } := by
  unfold State.dropDue
  split
  · next due =>
    unfold State.dropLate
    cases reception : s.link.reception with
    | none => rfl
    | some f =>
      have reached : Config.frameTime ≤ s.elapsed f.1 := by simpa [State.frameDue, reception] using due
      dsimp only
      rw [passUntil_of_reached reached]
      exact endReception_link ..
  · rfl

theorem noticed_dropDue (s : State) (n : Notice) : s.dropDue.noticed n = s.noticed n := by
  rw [dropDue_eq]
  rfl

theorem noticed_takeDue {s : State} {n : Notice} (pending : s.noticed n = true) : s.takeDue.noticed n = true := by
  rw [State.takeDue, noticed_dropDue]
  exact (linkKept_pollExpire _).notices n ((linkKept_expireDue s).notices n pending)

/-- A hold that is expired as its limit has been reached: no time passes (R109; log 4). -/
theorem expireDue_of_due {s : State} {timer : HoldTimer} (given : s.run.timer = some timer) (due : s.holdDue = true) :
    s.expireDue = ((s.cutOff .expiry .resetHeld (.targetReset .expiry)).latch .holdExpired).settle := by
  have reached : timer.limit * 1000 ≤ s.elapsed timer.start := by
    have := (Bool.and_eq_true_iff.1 due).2
    simpa [given] using this
  rw [State.expireDue, given]
  dsimp only
  rw [if_pos due, State.expireHold, passUntil_of_reached reached]

theorem holdDue_iff (s : State) :
    s.holdDue = true ↔ s.run.hold = .holding ∧ ∃ timer, s.run.timer = some timer ∧ timer.limit * 1000 ≤ s.elapsed timer.start := by
  cases given : s.run.timer <;> simp [State.holdDue, given]

end Sys2Proof.LinkKeeping
end

section
/-! PROOFS. The bench link: frames that arrive, wait, are taken and answered, the link rate, and what the part does with no command waiting (chapter 11). -/

namespace Sys2Proof.LinkRows

open Sys2Proof Sys2Proof.Machine Sys2Proof.Resets Sys2Proof.BenchLink Sys2Proof.LinkKeeping Sys2Proof.RunSound

/-! ### Bytes on the wire -/

theorem leBytes_getD (n k i : Nat) (h : i < k) : (leBytes k n).getD i 0 = BitVec.ofNat 8 (n / 256 ^ i) := by
  induction k generalizing n i with
  | zero => exact absurd h (Nat.not_lt_zero i)
  | succ k ih =>
    cases i with
    | zero => simp [leBytes]
    | succ i => rw [leBytes, List.getD_cons_succ, ih (n / 256) i (by omega), Nat.div_div_eq_div_mul, Nat.pow_succ']

/-- The bytes that a check byte covers, and itself, come to 0 (R185). -/
theorem sum_checkByte (body : List Byte) : (body ++ [checkByte body]).foldl (· + ·) 0 = 0#8 := by
  rw [List.foldl_append, checkByte]
  exact add_neg_cancel _

/-- The check byte is right where the sum comes to 0 (R185). -/
theorem checkRight_iff (code : Byte) (payload : List Byte) (check : Byte) :
    checkRight code payload check = true ↔ (leBytes 2 payload.length ++ [code] ++ payload ++ [check]).foldl (· + ·) 0 = 0#8 := by
  have total := List.foldl_append (f := (· + ·)) (b := (0 : Byte)) (l := leBytes 2 payload.length ++ [code] ++ payload) (l' := [check])
  rw [checkRight, decide_eq_true_eq, checkByte, neg_eq_iff_add_eq_zero, total]
  exact Iff.rfl

theorem statuses_code (status : Status) :
    [Status.ok, .frameError, .unknownCommand, .badLength, .badValue, .badAlign, .wrongState, .noRoom, .queueFull, .notFound, .slotNotReady, .slotBound, .noProfile,
      .engineActive, .laneBusy, .targetRunning, .unpowered, .noClaim, .notHolding, .cycleHeld, .windowsLive, .overlayBusy][status.code]? = some status := by
  cases status <;> rfl

/-- The codes that have a reader are those of the command table (11.5). -/
theorem command_isSome : ∀ code : Byte, (Reader.command code).isSome = decide (code ∈ Config.commandCodes) := by decide +kernel

/-! ### The frame under reception -/

/-- The newest frame of the queue alone can be under reception (R186). -/
theorem reception_eq_some {l : Link} {since : Stamp} {code : Option Byte} :
    l.reception = some (since, code) ↔ ∃ earlier, l.queue = earlier ++ [.receiving since code] := by
  rw [← List.getLast?_eq_some_iff, Link.reception]
  split <;> simp_all

theorem receiving_iff {l : Link} : l.receiving = true ↔ ∃ earlier since code, l.queue = earlier ++ [.receiving since code] := by
  have newest : l.receiving = true ↔ ∃ since code, l.queue.getLast? = some (.receiving since code) := by
    unfold Link.receiving
    split <;> simp_all
  simp only [newest, List.getLast?_eq_some_iff]
  exact ⟨fun ⟨since, code, earlier, h⟩ => ⟨earlier, since, code, h⟩, fun ⟨earlier, since, code, h⟩ => ⟨since, code, earlier, h⟩⟩

theorem reception_of_not_receiving {l : Link} (h : l.receiving = false) : l.reception = none := by
  cases reception : l.reception with
  | none => rfl
  | some f =>
    obtain ⟨earlier, queue⟩ := reception_eq_some.1 reception
    exact absurd (receiving_iff.2 ⟨earlier, _, _, queue⟩) (by simp [h])

theorem reception_of_queue {l k : Link} (h : k.queue = l.queue) : k.reception = l.reception := by
  unfold Link.reception
  rw [h]

theorem receiving_of_reception {s : State} {earlier : List Frame} {since : Stamp} {code : Option Byte}
    (queue : s.link.queue = earlier ++ [.receiving since code]) : s.link.receiving = true := receiving_iff.2 ⟨earlier, since, code, queue⟩

/-- The frame under reception is replaced by what becomes of it. -/
theorem endReception_of_reception {s : State} {earlier : List Frame} {since : Stamp} {code : Option Byte}
    (queue : s.link.queue = earlier ++ [.receiving since code]) (f : Frame) :
    s.endReception f = { s with link := { s.link with queue := earlier ++ [f] } } := by
  rw [State.endReception, if_pos (receiving_of_reception queue), queue, List.dropLast_concat]

theorem endReception_of_not {s : State} (h : s.link.receiving = false) (f : Frame) : s.endReception f = s := by
  rw [State.endReception, h]
  rfl

theorem frameDue_iff (s : State) : s.frameDue = true ↔ ∃ earlier since code, s.link.queue = earlier ++ [.receiving since code] ∧ 50000 ≤ s.elapsed since := by
  rw [State.frameDue, Option.any_eq_true]
  constructor
  · rintro ⟨⟨since, code⟩, reception, late⟩
    obtain ⟨earlier, queue⟩ := reception_eq_some.1 reception
    exact ⟨earlier, since, code, queue, of_decide_eq_true late⟩
  · rintro ⟨earlier, since, code, queue, late⟩
    exact ⟨(since, code), reception_eq_some.2 ⟨earlier, queue⟩, decide_eq_true late⟩

theorem frameDue_of_reception_none {s : State} (h : s.link.reception = none) : s.frameDue = false := by rw [State.frameDue, h]; rfl

theorem dropDue_of_late {s : State} {earlier : List Frame} {since : Stamp} {code : Option Byte}
    (queue : s.link.queue = earlier ++ [.receiving since code]) (late : 50000 ≤ s.elapsed since) :
    s.dropDue = { s with link := { s.link with queue := earlier ++ [.discarded (code.getD 0)] } } := by
  rw [State.dropDue, if_pos ((frameDue_iff s).2 ⟨earlier, since, code, queue, late⟩), State.dropLate, reception_eq_some.2 ⟨earlier, queue⟩]
  dsimp only
  rw [passUntil_of_reached (n := Config.frameTime) late, Option.none_or, endReception_of_reception queue]

/-! ### What the limits leave -/

/-- Time passes to a limit, modulo 2^32 (R84; log 4). -/
theorem elapsed_passUntil (start : Stamp) (n : Nat) (s : State) : n % 4294967296 ≤ (s.passUntil start n).elapsed start := by
  unfold State.passUntil
  split
  · have moved : start + BitVec.ofNat 32 n - start = BitVec.ofNat 32 n := add_sub_cancel_left _ _
    simp only [State.elapsed, moved, BitVec.toNat_ofNat, Nat.reducePow]
    exact le_rfl
  · exact (Nat.mod_le ..).trans (by omega)

theorem passUntil_eq (start : Stamp) (n : Nat) (s : State) : s.passUntil start n = { s with timeBase := (s.passUntil start n).timeBase } := by
  unfold State.passUntil
  split <;> rfl

theorem expireDue_timeBase (s : State) : s.expireDue.timeBase = s.timeBase := by
  cases due : s.holdDue with
  | false => rw [expireDue_of_not due]
  | true =>
    obtain ⟨-, timer, given, -⟩ := (holdDue_iff s).1 due
    rw [expireDue_of_due given due, settle_timeBase, State.latch_timeBase]
    exact (cutOff_cycleKeeps ..).timeBase

theorem takeDue_timeBase (s : State) : s.takeDue.timeBase = s.timeBase := by
  rw [State.takeDue, dropDue_eq]
  exact (pollExpire_engineOnly s.expireDue).1.2.2.2.2.2.1.trans (expireDue_timeBase s)

/-- With no frame under reception the limits leave the queue as it is. -/
theorem takeDue_queue {s : State} (none' : s.link.reception = none) : s.takeDue.link.queue = s.link.queue := by
  have kept := (linkKept_expireDue s).trans (linkKept_pollExpire _)
  rw [State.takeDue, dropDue_of_not (frameDue_of_reception_none ((reception_of_queue kept.queue).trans none'))]
  exact kept.queue

/-! ### Frames that wait -/

/-- A frame joins the queue where it has room and no other is under reception; else it is ignored (R186; log 6). -/
theorem queueFrame_of_room {s : State} (room : s.link.queue.length < 4) (idle : s.link.receiving = false) (f : Frame) :
    s.queueFrame f = { s with link := { s.link with queue := s.link.queue ++ [f] } } := if_pos ⟨room, idle⟩

theorem queueFrame_of_not {s : State} (h : 4 ≤ s.link.queue.length ∨ s.link.receiving = true) (f : Frame) : s.queueFrame f = s := by
  refine if_neg ?_
  rintro ⟨room, idle⟩
  rcases h with full | receiving
  · exact absurd room (Nat.not_lt.2 full)
  · rw [idle] at receiving
    nomatch receiving

theorem exec_frameError (code : Byte) (s : State) :
    exec (.frameError code) s = s.onTaken (.frameError code) (fun t => .next (t.respond .frameError code .empty)) := rfl

theorem exec_unknownCommand_known {code : Byte} (known : code ∈ Config.commandCodes) (payload : List Byte) (s : State) :
    exec (.unknownCommand code payload) s = .next s :=
  if_pos ((command_isSome code).trans (decide_eq_true known))

theorem exec_unknownCommand {code : Byte} (unknown : code ∉ Config.commandCodes) (payload : List Byte) (s : State) :
    exec (.unknownCommand code payload) s =
      s.onTaken (.unknownCommand code payload) (fun t => .next (t.respond .unknownCommand code .empty)) := by
  refine if_neg ?_
  rw [command_isSome, decide_eq_false unknown]
  exact Bool.false_ne_true

/-- A row that is the taking of a frame. -/
def Taking (c : Instr) : Prop :=
  benchCommand c = true ∨ (∃ code, c = .frameError code) ∨ (∃ code payload, c = .unknownCommand code payload ∧ code ∉ Config.commandCodes)

/-- Its meaning is an action on the frame taken, the same one with the line free. -/
theorem exec_of_taking {c : Instr} (taking : Taking c) (s : State) :
    ∃ act, exec c s = s.onTaken c act ∧ exec c s.lineFree = s.lineFree.onTaken c act := by
  rcases taking with bench | ⟨code, rfl⟩ | ⟨code, payload, rfl, unknown⟩
  · cases c
    case unknownCommand code payload =>
      rw [not_benchCommand_unknownCommand] at bench
      nomatch bench
    case powerOn | prstAsserted | prstReleased | partReset | powerOnSurveyEnd | overlaySurveyEnd | lineSurveyEnd | cyclePresented | lostCycle
        | boardAccessEnd | boardResetSeen | boardResetReleased | supplyLost | supplyReturned | probeEdge | holdLimitExpiry | jobStart
        | readyLineAsserted | pollTimeout | lateFrame | overlongFrame | startByteNoRoom | frameError | linkRateChange | startByteReceived
        | checkByteReceived =>
      rw [not_benchCommand_of_code_zero rfl] at bench
      nomatch bench
    all_goals exact ⟨_, rfl, rfl⟩
  · exact ⟨_, rfl, rfl⟩
  · exact ⟨_, exec_unknownCommand unknown payload s, exec_unknownCommand unknown payload s.lineFree⟩

theorem busy_of_ne {a : Activity} (idle : a ≠ .idle) (sending : a ≠ .sending) : a.busy = true := by
  cases busy : a.busy with
  | true => rfl
  | false => exact ((Activity.busy_eq_false.1 busy).elim idle sending).elim

/-- A frame that the link cannot take yet waits, or is ignored. -/
theorem exec_of_waiting {c : Instr} (taking : Taking c) {s : State} (prst : s.port.prst = false)
    (waits : (s.link.activity ≠ .idle ∧ s.link.activity ≠ .sending) ∨ Instr.mustWait c s = true ∨
      (∃ f rest, s.link.queue = f :: rest ∧ f.spells ≠ .command c)) : exec c s = .next (s.queueFrame (Instr.frame c)) := by
  obtain ⟨act, meaning, -⟩ := exec_of_taking taking s
  rw [meaning]
  rcases waits with ⟨idle, sending⟩ | must | ⟨f, rest, queue, other⟩
  · exact State.onTaken_busy prst (.inl (busy_of_ne idle sending)) act
  · exact State.onTaken_busy prst (.inr must) act
  · exact State.onTaken_behind prst queue other act

/-- Settles O14: the bytes by their sums, the rows by what taking a frame does. -/
theorem framesQueueOrAreAnswered : Obligations.FramesQueueOrAreAnswered := by
  refine ⟨fun n k => ⟨leBytes_length k n, leBytes_getD n k⟩, fun r => ⟨_, rfl, sum_checkByte _⟩, fun c => ⟨_, rfl, sum_checkByte _⟩, statuses_code,
    fun status code a s => rfl, fun c s taking prst => ⟨fun sending free front => ?_, fun waits => ⟨fun room => ?_, fun full => ?_⟩⟩,
    fun code s t taken => (exec_of_takesFrame rfl rfl taken).trans rfl, fun code payload s t taken unknown => ?_,
    fun code payload s known => exec_unknownCommand_known known payload s⟩
  · obtain ⟨act, meaning, meaningFree⟩ := exec_of_taking taking s
    exact (meaning.trans (State.onTaken_sending prst sending free front act)).trans meaningFree.symm
  · rw [exec_of_waiting taking prst waits, queueFrame_of_room room.1 room.2]
  · rw [exec_of_waiting taking prst waits, queueFrame_of_not full]
  · exact (exec_unknownCommand unknown payload s).trans (State.onTaken_takesFrame taken rfl _)

/-! ### The receiver -/

theorem exec_startByteReceived {s : State} (prst : s.port.prst = false) (code : Option Byte) :
    exec (.startByteReceived code) s = .next (s.queueFrame (.receiving s.timeBase code)) := by
  change execStartByteReceived s code = _
  rw [execStartByteReceived, prst]
  rfl

theorem exec_startByteReceived_ignored {s : State} (h : s.port.prst = true ∨ 4 ≤ s.link.queue.length ∨ s.link.receiving = true) (code : Option Byte) :
    exec (.startByteReceived code) s = .next s := by
  cases prst : s.port.prst with
  | true => exact if_pos prst
  | false => rw [exec_startByteReceived prst, queueFrame_of_not (h.resolve_left (by simp [prst]))]

theorem exec_checkByteReceived (code : Byte) (payload : List Byte) (check : Byte) (s : State) :
    exec (.checkByteReceived code payload check) s =
      .next (if s.frameDue then s.dropDue else s.endReception (if checkRight code payload check then .whole code payload else .discarded code)) := rfl

/-- The frame under reception is not late before its 50 ms (R185). -/
theorem frameDue_of_early {s : State} {earlier : List Frame} {since : Stamp} {code : Option Byte}
    (queue : s.link.queue = earlier ++ [.receiving since code]) (early : s.elapsed since < 50000) : s.frameDue = false := by
  rw [State.frameDue, reception_eq_some.2 ⟨earlier, queue⟩]
  exact decide_eq_false (Nat.not_le.2 early)

theorem exec_checkByteReceived_early {s : State} {earlier : List Frame} {since : Stamp} {coming : Option Byte}
    (queue : s.link.queue = earlier ++ [.receiving since coming]) (early : s.elapsed since < 50000) (code : Byte) (payload : List Byte) (check : Byte) :
    exec (.checkByteReceived code payload check) s = .next { s with
      link := { s.link with queue := earlier ++ [if checkRight code payload check then .whole code payload else .discarded code] } } := by
  rw [exec_checkByteReceived, frameDue_of_early queue early, if_neg Bool.false_ne_true, endReception_of_reception queue]

/-- A late frame: time has passed to its limit, and it is discarded with its echo (R185; log 26). -/
theorem dropLate_of_reception {s : State} {earlier : List Frame} {since : Stamp} {coming : Option Byte}
    (queue : s.link.queue = earlier ++ [.receiving since coming]) (told : Option Byte) :
    s.dropLate told = { s with timeBase := (s.passUntil since 50000).timeBase,
                               link := { s.link with queue := earlier ++ [.discarded ((told.or coming).getD 0)] } } := by
  have passed : (s.passUntil since 50000).link.queue = earlier ++ [.receiving since coming] := by
    rw [passUntil_eq]
    exact queue
  rw [State.dropLate, reception_eq_some.2 ⟨earlier, queue⟩]
  dsimp only
  rw [show Config.frameTime = 50000 from rfl, endReception_of_reception passed, passUntil_eq]

theorem dropLate_of_not {s : State} (h : s.link.receiving = false) (told : Option Byte) : s.dropLate told = s := by
  rw [State.dropLate, reception_of_not_receiving h]

/-- A discarded frame at the queue's end leaves no frame under reception. -/
theorem reception_of_discarded {l : Link} {earlier : List Frame} {echo : Byte} (h : l.queue = earlier ++ [.discarded echo]) : l.reception = none := by
  rw [Link.reception, h, List.getLast?_concat]

/-- Settles O15: each row of the receiver on the frame under reception, or on none. -/
theorem framesArriveAndEnd : Obligations.FramesArriveAndEnd := by
  refine fun s => ⟨fun prst room idle code => ?_, exec_startByteReceived_ignored, rfl,
    fun earlier since coming queue => ⟨fun code payload check early => ⟨fun right => ?_, fun wrong => ?_⟩, fun code payload check late => ?_, ?_, fun code => ?_⟩,
    fun idle => ⟨fun code payload check => ?_, ?_, fun code => ?_, fun hold poll code => ?_⟩⟩
  · rw [exec_startByteReceived prst, queueFrame_of_room room idle]
  · rw [exec_checkByteReceived_early queue early, if_pos ((checkRight_iff ..).2 right)]
  · rw [exec_checkByteReceived_early queue early, if_neg (mt (checkRight_iff ..).1 wrong)]
  · rw [exec_checkByteReceived, if_pos ((frameDue_iff s).2 ⟨earlier, since, coming, queue, late⟩), dropDue_of_late queue late]
  · exact congrArg Host.Outcome.next (endReception_of_reception queue _)
  · have dropped := dropLate_of_reception queue code
    have none' : (s.dropLate code).link.reception = none := reception_of_discarded (by rw [dropped])
    refine ⟨s.dropLate code, ?_, ?_, rfl, takeDue_queue none', takeDue_timeBase _, fun hold poll => ?_⟩
    · rw [dropped]
      exact elapsed_passUntil since 50000 s
    · rw [dropped]
    · exact congrArg Host.Outcome.next (takeDue_of_none hold poll (frameDue_of_reception_none none'))
  · rw [exec_checkByteReceived, frameDue_of_reception_none (reception_of_not_receiving idle), if_neg Bool.false_ne_true, endReception_of_not idle]
  · exact congrArg Host.Outcome.next (endReception_of_not idle _)
  · exact congrArg (fun t => Host.Outcome.next (State.takeDue t)) (dropLate_of_not idle code)
  · refine (congrArg (fun t => Host.Outcome.next (State.takeDue t)) (dropLate_of_not idle code)).trans (congrArg Host.Outcome.next ?_)
    exact takeDue_of_none hold poll (frameDue_of_reception_none (reception_of_not_receiving idle))

/-! ### SET LINK RATE, RESET PART -/

/-- SET LINK RATE with a rate that there is (R184). -/
theorem exec_setLinkRate {rate : Nat} {s t : State} (taken : s.takes (.setLinkRate rate) t) (r : Fin 4) (code : rate = r.val) :
    exec (.setLinkRate rate) s = .next (if t.link.rate = r then t.respond .ok 0x04 .empty else (t.respond .ok 0x04 .empty).occupy (.rateChange r)) := by
  subst code
  refine (exec_of_takes rfl taken).trans ((dif_pos r.isLt).trans ?_)
  split <;> rfl

theorem exec_linkRateChange {s : State} {r : Fin 4} (activity : s.link.activity = .rateChange r) (code : Option Byte) :
    exec (.linkRateChange code) s =
      .next (State.endReception (.discarded (code.getD 0)) { s with link := { s.link with rate := r, activity := .idle } }) := by
  change execLinkRateChange code s = _
  rw [execLinkRateChange, activity]

theorem exec_linkRateChange_none {s : State} (h : ∀ r, s.link.activity ≠ .rateChange r) (code : Option Byte) : exec (.linkRateChange code) s = .next s := by
  change execLinkRateChange code s = _
  unfold execLinkRateChange
  split
  · next r activity => exact absurd activity (h r)
  all_goals rfl

/-- Settles O16: the command by its checks, the change of the rate by what becomes of the frame under reception. -/
theorem linkRateAndResetPart : Obligations.LinkRateAndResetPart := by
  refine ⟨fun rate s t taken => ⟨fun above => ?_, fun r code same => ?_, fun r code other => ?_⟩,
    fun code s => ⟨fun r activity => ⟨fun earlier since coming queue => ?_, fun idle => ?_⟩, fun other => exec_linkRateChange_none other code⟩,
    fun s t taken => (exec_of_takes rfl taken).trans rfl⟩
  · exact (exec_of_takes rfl taken).trans (dif_neg (by omega))
  · rw [exec_setLinkRate taken r code, if_pos same]
  · rw [exec_setLinkRate taken r code, if_neg other]
  · rw [exec_linkRateChange activity]
    exact congrArg Host.Outcome.next (endReception_of_reception (s := { s with link := { s.link with rate := r, activity := .idle } }) queue _)
  · rw [exec_linkRateChange activity]
    exact congrArg Host.Outcome.next (endReception_of_not (s := { s with link := { s.link with rate := r, activity := .idle } }) idle _)

/-! ### With no command waiting -/

theorem step_idle {s : State} (noneWaits : s.pending = []) : step s = s.idle := by rw [step, noneWaits]

theorem idle_of_prst {s : State} (prst : s.port.prst = true) : s.idle = .next s := if_pos prst

/-- Out of reset, a link that has no byte of its own to make goes on by itself. -/
theorem idle_of_noOwnByte {s : State} (prst : s.port.prst = false) (none' : s.nextOwnByte = none) : s.idle = s.stepLink := by
  rw [State.idle, prst, none']
  rfl

theorem nextOwnByte_of_activity {s : State} (h : ∀ tr, s.link.activity ≠ .transfer tr) : s.nextOwnByte = none := by
  unfold State.nextOwnByte
  split
  · next tr activity => exact absurd activity (h tr)
  all_goals rfl

theorem nextOwnByte_of_bound {s : State} (h : ∀ tr b rest, s.link.activity = .transfer tr → tr.todo = b :: rest → b.boardBound = true) :
    s.nextOwnByte = none := by
  cases next : s.nextOwnByte with
  | none => rfl
  | some p =>
    obtain ⟨b, rest, tr⟩ := p
    obtain ⟨activity, todo, own⟩ := nextOwnByte_eq_some.1 next
    exact absurd (h tr b rest activity todo) (by simp [own])

/-- Bytes made touch overlay memory, the bus and the link alone. -/
theorem runTransfer_only (bytes : List TransferByte) (tr : Transfer) (s : State) :
    s.runTransfer bytes tr = { s with overlay := (s.runTransfer bytes tr).overlay, bus := (s.runTransfer bytes tr).bus, link := (s.runTransfer bytes tr).link } := by
  induction bytes generalizing tr s with
  | nil =>
    unfold State.runTransfer State.finishTransfer
    split <;> rfl
  | cons b rest ih =>
    unfold State.runTransfer
    split
    · rfl
    · split
      · rfl
      · have rest' := ih (tr.made' b (s.transferRead b)) (s.transferWrite b)
        rw [transferWrite_eq] at rest' ⊢
        exact rest'

/-- The byte of a step of its own alone writes overlay memory, where no other byte is made with it. -/
theorem makeOwnByte_overlay {b : TransferByte} {rest : List TransferByte} {tr : Transfer} (alone : rest = [] ∨ tr.bytewise = true) (s : State) :
    (s.makeOwnByte b rest tr).overlay = (s.transferWrite b).overlay := by
  unfold State.makeOwnByte
  cases rest with
  | nil =>
    unfold State.runTransfer State.finishTransfer
    split <;> rfl
  | cons next rest =>
    have bytewise : (tr.made' b (s.transferRead b)).bytewise = true := alone.resolve_left (by simp)
    unfold State.runTransfer
    by_cases bound : next.boardBound = true
    · rw [if_pos bound]
      rfl
    · rw [if_neg bound, if_pos bytewise]
      rfl

/-- The free link takes its next frame or lets a microsecond pass. -/
theorem takeFrame_of_command {s : State} {f : Frame} {rest : List Frame} {c : Instr} (queue : s.link.queue = f :: rest) (spells : f.spells = .command c) :
    s.takeFrame = if Instr.mustWait c s then .next s.passTime else exec c s := by
  rw [State.takeFrame, queue]
  dsimp only
  rw [spells]

theorem takeFrame_of_badLength {s : State} {f : Frame} {rest : List Frame} {code : Byte} (queue : s.link.queue = f :: rest)
    (spells : f.spells = .badLength code) (survey : s.overlay.survey ≠ .powerOn) :
    s.takeFrame = .next (({ s with link := { s.link with queue := rest } } : State).respond .badLength code .empty) := by
  rw [State.takeFrame, queue]
  dsimp only
  rw [spells]
  exact congrArg Host.Outcome.next (if_neg fun barred => survey barred.1)

theorem takeFrame_of_nothing {s : State} (h : s.link.queue = [] ∨ (∃ since code rest, s.link.queue = .receiving since code :: rest) ∨
    (∃ f rest c, s.link.queue = f :: rest ∧ f.spells = .command c ∧ Instr.mustWait c s = true)) : s.takeFrame = .next s.tick.takeDue := by
  rcases h with queue | ⟨since, code, rest, queue⟩ | ⟨f, rest, c, queue, spells, must⟩
  · rw [State.takeFrame, queue]
    rfl
  · rw [State.takeFrame, queue]
    rfl
  · rw [takeFrame_of_command queue spells, if_pos must]
    rfl

/-- The link that takes no frame lets a microsecond pass. -/
theorem stepLink_of_waiting {s : State} (notSending : s.link.activity ≠ .sending)
    (waits : s.link.activity ≠ .idle ∨ s.link.queue = [] ∨ (∃ since code rest, s.link.queue = .receiving since code :: rest) ∨
      (∃ f rest c, s.link.queue = f :: rest ∧ f.spells = .command c ∧ Instr.mustWait c s = true)) : s.stepLink = .next s.tick.takeDue := by
  by_cases idle : s.link.activity = .idle
  · rw [stepLink_of_idle idle]
    exact takeFrame_of_nothing (waits.resolve_left (not_not.2 idle))
  · exact stepLink_of_busy (busy_of_ne idle notSending)

/-- The limit of a READY_LINE poll (R172). -/
theorem pollDue_of_readyLine {s : State} {j : Job} {a : Active} {p : Profile} {f : FlashPart} {start : Stamp}
    (polling : s.polling = some (j, a, p, f, start, .readyLine)) :
    (s.pollDue = true ↔ pollLimit j.op f ≤ s.elapsed start) ∧ (s.pollDue = true → s.pollExpire = (s.timeOut j a p f).settle) := by
  refine ⟨?_, fun due => ?_⟩
  · rw [State.pollDue, polling]
    exact decide_eq_true_iff
  · rw [State.pollExpire, polling]
    exact if_pos due

/-- Settles O2: what the part does by itself, by the activity of its link; then the limits, one by one. -/
theorem emptyQueueTakesFrameOrTime : Obligations.EmptyQueueTakesFrameOrTime := by
  refine ⟨fun s noneWaits => ?_, fun s => ⟨rfl, rfl, holdDue_iff s, fun due => ?_, expireDue_of_not, fun j a p f start polling => pollDue_of_readyLine polling,
    pollExpire_of_not, frameDue_iff s, fun earlier since code queue late => dropDue_of_late queue late, dropDue_of_not⟩⟩
  · rw [step_idle noneWaits]
    refine ⟨idle_of_prst, fun prst activity f rest queue => ?_, fun tr b rest prst activity todo own mapped => ?_, fun prst activity => ?_,
      fun prst notSending waits bound => ?_⟩
    · have free := (idle_of_noOwnByte prst (nextOwnByte_of_activity (by simp [activity]))).trans (stepLink_of_idle activity)
      refine ⟨fun c spells must => ?_, fun code spells survey => free.trans (takeFrame_of_badLength queue spells survey)⟩
      rw [free, takeFrame_of_command queue spells, if_neg (by simp [must])]
    · refine ⟨_, (step_idle noneWaits).symm.trans (OverlayRows.step_makesOwnByte noneWaits prst activity todo own mapped), ?_⟩
      have only := runTransfer_only rest (tr.made' b (s.transferRead b)) (s.transferWrite b)
      rw [← State.makeOwnByte, transferWrite_eq] at only
      refine ⟨?_, ?_, ?_, ?_, fun alone => ⟨fun none' => ?_, fun d l write location => ?_⟩⟩
      · rw [settle_timeBase, only]
      · rw [settle_port, only]
      · rw [settle_run, only]
      · rw [settle_trace, only]
      · rw [settle_overlay, makeOwnByte_overlay alone, transferWrite_of_none none']
      · rw [settle_overlay, makeOwnByte_overlay alone, transferWrite_of_some write location]
    · have free := (idle_of_noOwnByte prst (nextOwnByte_of_activity (by simp [activity]))).trans (stepLink_of_sending activity)
      refine ⟨free, fun hold poll frame => free.trans (congrArg Host.Outcome.next (takeDue_of_none hold poll frame))⟩
    · have passes := (idle_of_noOwnByte prst (nextOwnByte_of_bound bound)).trans (stepLink_of_waiting notSending waits)
      exact ⟨passes, _, passes, takeDue_timeBase _, takeDue_of_none⟩
  · obtain ⟨-, timer, given, -⟩ := (holdDue_iff s).1 due
    exact expireDue_of_due given due

end Sys2Proof.LinkRows
end

section
/-! PROOFS. Claims raised, HALT, SET FLOOR, and the release of the target: RESUME, REHEARSE, END REHEARSAL (chapter 6). -/

namespace Sys2Proof.ClaimRows

open Sys2Proof Sys2Proof.Machine Sys2Proof.Resets Sys2Proof.BenchLink Sys2Proof.RunSound Sys2Proof.LinkKeeping

/-! ### What a cycle leaves of the link -/

theorem linkKept_enterClaim (r : Raise) (s : State) : LinkKept s (s.enterClaim r) := .before (linkKept_latch ..) rfl

theorem linkKept_armOrMiss (s : State) : LinkKept s s.armOrMiss := by
  unfold State.armOrMiss
  split
  · exact linkKept_of_link rfl
  · exact linkKept_latch ..

theorem linkKept_actOnClaim (source : Source) (s : State) : LinkKept s (s.actOnClaim source) := by
  unfold State.actOnClaim
  repeat' split
  all_goals first
    | with_reducible exact linkKept_refl s
    | with_reducible exact linkKept_armOrMiss s
    | exact linkKept_of_link rfl

theorem linkKept_traceStart (s : State) : LinkKept s s.traceStart := by
  unfold State.traceStart
  split <;> exact linkKept_of_link rfl

theorem linkKept_fireAtDelivery (i : Fin 4) (a : Actions) (address : Nat) (e : Evaluation) (s : State) :
    LinkKept s (fireAtDelivery i a address (e, s)).2 := by
  unfold fireAtDelivery
  cases a.hold with
  | none =>
    dsimp only
    split
    · exact linkKept_latch ..
    · exact linkKept_refl s
  | some level =>
    dsimp only
    split
    · exact ((linkKept_enterClaim ..).trans (linkKept_actOnClaim ..)).trans (linkKept_latch ..)
    · exact (linkKept_enterClaim ..).trans (linkKept_actOnClaim ..)

theorem linkKept_deliverUnit (data : Byte) (address : Nat) (p : Evaluation × State) (i : Fin 4) : LinkKept p.2 (deliverUnit data address p i).2 := by
  unfold deliverUnit
  dsimp only
  repeat' split
  · exact .before (linkKept_fireAtDelivery ..) rfl
  · exact linkKept_of_link rfl
  · exact linkKept_of_link rfl
  · exact linkKept_refl _

theorem linkKept_readDataEvaluate (data : Byte) (address : Nat) (s : State) : LinkKept s (readDataEvaluate data address s).2 := by
  have units : ∀ (l : List (Fin 4)) (p : Evaluation × State), LinkKept p.2 (l.foldl (deliverUnit data address) p).2 := by
    intro l
    induction l with
    | nil => exact fun p => linkKept_refl _
    | cons i l ih => exact fun p => (linkKept_deliverUnit data address p i).trans (ih _)
  unfold readDataEvaluate
  dsimp only
  refine (units [0, 1, 2, 3] ({ matched := 0, fired := 0, raised := [], start := false, stop := false }, s)).trans ?_
  repeat' split
  · exact (linkKept_traceStart _).trans (linkKept_traceStop _)
  · exact linkKept_traceStop _
  · exact linkKept_traceStart _
  · exact linkKept_refl _

theorem linkKept_completeCycle (c : Cycle) (data : Byte) (s : State) : LinkKept s (s.completeCycle c data) := by
  have drives : ∀ (k : Cycle) (u : State), LinkKept u (u.driveData k data).clearCycle := by
    intro k u
    unfold State.driveData
    split <;> exact linkKept_of_link rfl
  unfold State.completeCycle
  dsimp only
  generalize (if c.isWrite then c else { c with readData := some data }) = k
  refine (linkKept_recordCycle k false s).trans ((drives k (s.recordCycle k false).1).trans ?_)
  split
  · exact linkKept_answerInjected ..
  · exact (linkKept_readDataEvaluate ..).trans (linkKept_answerInjected ..)

theorem linkKept_performAtBoard (c : Cycle) (s : State) : LinkKept s (s.performAtBoard c) := by
  have asked : LinkKept s (({ s with port := { s.port with inFlight := some { c with phase := .performing } } } : State).requestTarget.arbitrate) :=
    .before (linkKept_arbitrate _) rfl
  unfold State.performAtBoard
  dsimp only
  split
  · exact asked
  · refine asked.trans ?_
    unfold State.stretchCycle
    split
    · exact linkKept_refl _
    · split <;> exact linkKept_of_link rfl

theorem linkKept_performCycle (c : Cycle) (s : State) : LinkKept s (s.performCycle c) := by
  unfold State.performCycle
  dsimp only
  split
  all_goals first
    | with_reducible exact linkKept_performAtBoard ..
    | with_reducible exact linkKept_completeCycle ..
    | exact .before (linkKept_completeCycle ..) rfl
    | exact .before (linkKept_performAtBoard ..) rfl

theorem linkKept_proceedHeld (s : State) : LinkKept s s.proceedHeld := by
  unfold State.proceedHeld
  split
  · exact linkKept_performCycle ..
  · exact linkKept_refl s

theorem linkKept_endHoldByFloor (s : State) : LinkKept s s.endHoldByFloor :=
  (linkKept_endHold .floor s).trans (.before (linkKept_proceedHeld _) rfl)

/-- A raise latches CLAIM, and it stays pending (R95, R189). -/
theorem noticed_raiseClaim (r : Raise) (s : State) : (s.raiseClaim r).noticed .claim = true := by
  have entered : (s.enterClaim r).noticed .claim = true := noticed_latch_self ..
  unfold State.raiseClaim
  dsimp only
  split
  · exact (linkKept_endHoldByFloor _).notices _ entered
  · exact (linkKept_actOnClaim ..).notices _ entered

/-! ### The claims after a raise -/

/-- A claim put into a list in order: itself, and those of the other sources. -/
theorem mem_putClaim_iff {c k : Claim} {l : List Claim} (order : l.Pairwise (fun a b => a.source.code < b.source.code)) (mem : k ∈ putClaim c l) :
    k = c ∨ (k ∈ l ∧ k.source ≠ c.source) := by
  by_cases same : k.source = c.source
  · exact .inl (claim_unique (putClaim_sorted order c) (mem_putClaim_self c l) mem same)
  · exact (mem_putClaim mem).imp id fun old => ⟨old, same⟩

theorem claimOf_source {r : RunControl} {source : Source} {k : Claim} (h : r.claimOf source = some k) : k.source = source := by
  simpa using List.find?_some h

theorem mem_of_claimOf {r : RunControl} {source : Source} {k : Claim} (h : r.claimOf source = some k) : k ∈ r.claims := List.mem_of_find?_eq_some h

/-- The claim of the source whose claim has been put. -/
theorem find_putClaim_self {c : Claim} {source : Source} (h : c.source = source) (l : List Claim) :
    (putClaim c l).find? (fun k => decide (k.source = source)) = some c := by
  rw [find_putClaim, if_pos h.symm]

theorem claimsAfter_of_none {r : Raise} {s : State} (h : s.run.claimOf r.source = none) :
    s.claimsAfter r = putClaim (r.fresh s.timeBase) s.run.claims := by
  rw [State.claimsAfter, h]

/-- The exception of R104: a repeat that would leave no holding claim over a write-class job. -/
def Fenced (r : Raise) (k : Claim) (s : State) : Prop :=
  s.run.hold = .holding ∧ s.writeActive = true ∧ (putClaim (r.again k) s.run.claims).any (Claim.holding s.run.floor) = false

theorem claimsAfter_of_again {r : Raise} {s : State} {k : Claim} (h : s.run.claimOf r.source = some k) (free : ¬Fenced r k s) :
    s.claimsAfter r = putClaim (r.again k) s.run.claims := by
  rw [State.claimsAfter, h]
  exact if_neg free

theorem claimsAfter_of_fenced {r : Raise} {s : State} {k : Claim} (h : s.run.claimOf r.source = some k) (fenced : Fenced r k s) :
    s.claimsAfter r = putClaim { k with repeats := min 255 (k.repeats + 1), address := r.address } s.run.claims := by
  rw [State.claimsAfter, h]
  exact if_pos fenced

theorem claimOf_enterClaim_again {r : Raise} {s : State} {k : Claim} (h : s.run.claimOf r.source = some k) (free : ¬Fenced r k s) :
    (s.enterClaim r).run.claimOf r.source = some (r.again k) := by
  rw [RunControl.claimOf, enterClaim_claims, claimsAfter_of_again h free]
  exact find_putClaim_self (c := r.again k) rfl _

theorem claimOf_enterClaim_fresh {r : Raise} {s : State} (h : s.run.claimOf r.source = none) :
    (s.enterClaim r).run.claimOf r.source = some (r.fresh s.timeBase) := by
  rw [RunControl.claimOf, enterClaim_claims, claimsAfter_of_none h]
  exact find_putClaim_self (c := r.fresh s.timeBase) rfl _

theorem claimOf_enterClaim_fenced {r : Raise} {s : State} {k : Claim} (h : s.run.claimOf r.source = some k) (fenced : Fenced r k s) :
    (s.enterClaim r).run.claimOf r.source = some { k with repeats := min 255 (k.repeats + 1), address := r.address } := by
  rw [RunControl.claimOf, enterClaim_claims, claimsAfter_of_fenced h fenced]
  exact find_putClaim_self (c := { k with repeats := min 255 (k.repeats + 1), address := r.address }) (claimOf_source (k := k) h) _

/-- A claim that holds frees the repeat of R104's exception. -/
theorem not_fenced_of_mem {r : Raise} {k c : Claim} {s : State} (mem : c ∈ putClaim (r.again k) s.run.claims) (holding : c.holding s.run.floor = true) :
    ¬Fenced r k s := by
  rintro ⟨-, -, none'⟩
  exact List.any_eq_false.1 none' c mem holding

/-- With no other holding claim a repeat that does not hold is fenced over a write-class job (R104). -/
theorem fenced_of_quiet {r : Raise} {k : Claim} {s : State} (formed : s.run.claimsFormed) (hold : s.run.hold = .holding) (write : s.writeActive = true)
    (again : (r.again k).holding s.run.floor = false) (others : ∀ c ∈ s.run.claims, c.source ≠ r.source → c.holding s.run.floor = false) :
    Fenced r k s := by
  refine ⟨hold, write, List.any_eq_false.2 fun c mem => ?_⟩
  rcases mem_putClaim_iff formed.1 mem with rfl | ⟨old, other⟩
  · exact Bool.eq_false_iff.1 again
  · exact Bool.eq_false_iff.1 (others c old other)

/-! ### Run control's reaction -/

theorem holdingPossible_iff (s : State) : s.holdingPossible = true ↔ s.run.rehearsal = true ∨ s.port.waitWired = true := Bool.or_eq_true_iff

theorem armOrMiss_of_possible {s : State} (h : s.holdingPossible = true) : s.armOrMiss = s.setHold .holdArmed := if_pos h

theorem armOrMiss_of_not {s : State} (h : s.holdingPossible = false) : s.armOrMiss = s.latch .holdMissed := if_neg (by simp [h])

theorem actOnClaim_running {s : State} (hold : s.run.hold = .running) (source : Source) :
    s.actOnClaim source = if (s.run.claimOf source).any (Claim.live s.run.floor) then s.armOrMiss else s := by
  rw [State.actOnClaim, hold]

theorem actOnClaim_holdArmed {s : State} (hold : s.run.hold = .holdArmed) (source : Source) :
    s.actOnClaim source = if s.run.anyLive then s else s.setHold .running := by
  rw [State.actOnClaim, hold]

theorem actOnClaim_other {s : State} (hold : s.run.hold = .holding ∨ s.run.hold = .resetHeld ∨ s.run.hold = .unpowered) (source : Source) :
    s.actOnClaim source = s := by
  rcases hold with hold | hold | hold <;> rw [State.actOnClaim, hold]

theorem raiseClaim_of_end {r : Raise} {s : State} (hold : s.run.hold = .holding) (ends : (s.enterClaim r).run.anyHolding = false) :
    s.raiseClaim r = (s.enterClaim r).endHoldByFloor := if_pos ⟨hold, ends⟩

theorem raiseClaim_of_stay {r : Raise} {s : State} (stays : s.run.hold ≠ .holding ∨ (s.enterClaim r).run.anyHolding = true) :
    s.raiseClaim r = (s.enterClaim r).actOnClaim r.source := by
  refine if_neg fun ⟨hold, ends⟩ => ?_
  rcases stays with other | holding
  · exact other hold
  · exact Bool.false_ne_true (ends.symm.trans holding)

theorem claim_any_iff {o : Option Claim} {p : Claim → Bool} : o.any p = true ↔ ∃ k, o = some k ∧ p k = true := Option.any_eq_true ..

/-- Settles O38: the claims by the list that a raise leaves, the hold state by the table of R98. -/
theorem raisedClaimIsEntered : Obligations.RaisedClaimIsEntered := by
  refine ⟨fun r s => ⟨rfl, noticed_latch_self .., fun source other => claimsAfter_other r s other, claimOf_enterClaim_fresh, fun k standing =>
      ⟨fun free => ?_, fun hold write again => ?_, fun hold write others => ?_, fun formed hold write again others => ?_⟩⟩,
    fun source s => ⟨fun hold live possible => ?_, fun hold live impossible => ?_, fun hold dead => ?_, fun hold live => ?_, fun hold dead => ?_,
      fun hold => actOnClaim_other hold source⟩,
    fun r s => ⟨raiseClaim_of_end, raiseClaim_of_stay⟩⟩
  · exact claimOf_enterClaim_again standing fun fenced => free ⟨fenced.1, fenced.2.1⟩
  · exact claimOf_enterClaim_again standing (not_fenced_of_mem (mem_putClaim_self ..) again)
  · obtain ⟨k2, mem, other, holding⟩ := others
    exact claimOf_enterClaim_again standing (not_fenced_of_mem (mem_putClaim_of_ne mem other) holding)
  · exact claimOf_enterClaim_fenced standing (fenced_of_quiet formed hold write again others)
  · rw [actOnClaim_running hold, if_pos (claim_any_iff.2 live), armOrMiss_of_possible ((holdingPossible_iff s).2 possible)]
    rfl
  · rw [actOnClaim_running hold, if_pos (claim_any_iff.2 live),
      armOrMiss_of_not (Bool.eq_false_of_not_eq_true (mt (holdingPossible_iff s).1 impossible))]
  · rw [actOnClaim_running hold, if_neg (mt claim_any_iff.1 dead)]
  · rw [actOnClaim_holdArmed hold, if_pos live]
  · rw [actOnClaim_holdArmed hold, if_neg (by simp [dead])]
    rfl

/-! ### HALT -/

/-- The claim of HALT after its raise, where R104's exception does not keep the standing one. -/
theorem halt_claim {level : Nat} {t : State} (free : t.run.hold ≠ .holding ∨ t.writeActive = false ∨ level < t.run.floor) :
    ∃ k, (t.enterClaim (haltRaise level)).run.claimOf .halt = some k ∧ k.level = some level ∧ k.step = none := by
  cases standing : t.run.claimOf .halt with
  | none => exact ⟨_, claimOf_enterClaim_fresh standing, rfl, rfl⟩
  | some k =>
    have unfenced : ¬Fenced (haltRaise level) k t := by
      rcases free with other | quiet | below
      · exact fun fenced => other fenced.1
      · exact fun fenced => Bool.false_ne_true (quiet.symm.trans fenced.2.1)
      · exact not_fenced_of_mem (mem_putClaim_self ..) (decide_eq_true below)
    exact ⟨_, claimOf_enterClaim_again standing unfenced, rfl, rfl⟩

/-- A claim of that level is live below the floor, and then a holding claim (R96). -/
theorem live_of_level {k : Claim} {level floor : Nat} (h : k.level = some level) : k.live floor = decide (level < floor) := by rw [Claim.live, h]; rfl

theorem holding_of_level {k : Claim} {level floor : Nat} (h : k.level = some level) (step : k.step = none) : k.holding floor = decide (level < floor) := by
  rw [Claim.holding, step]
  exact live_of_level h

/-- Below the floor, HALT's claim is live and holds. -/
theorem halt_below {level : Nat} {t : State} (below : level < t.run.floor) :
    (t.enterClaim (haltRaise level)).run.anyLive = true ∧ (t.enterClaim (haltRaise level)).run.anyHolding = true := by
  obtain ⟨k, claim, level', step⟩ := halt_claim (level := level) (t := t) (.inr (.inr below))
  have mem := mem_of_claimOf claim
  exact ⟨List.any_eq_true.2 ⟨k, mem, (live_of_level level').trans (decide_eq_true below)⟩,
    List.any_eq_true.2 ⟨k, mem, (holding_of_level level' step).trans (decide_eq_true below)⟩⟩

/-- A claim of another source stays in the list. -/
theorem mem_enterClaim_of_other {r : Raise} {t : State} {k : Claim} (mem : k ∈ t.run.claims) (other : k.source ≠ r.source) :
    k ∈ (t.enterClaim r).run.claims := by
  obtain ⟨c, source, put⟩ := claimsAfter_put r t
  rw [enterClaim_claims, put]
  exact mem_putClaim_of_ne mem (source ▸ other)

theorem any_live_of_other {level : Nat} {t : State} {k : Claim} (mem : k ∈ t.run.claims) (other : k.source ≠ .halt)
    (live : k.live t.run.floor = true) : (t.enterClaim (haltRaise level)).run.anyLive = true :=
  List.any_eq_true.2 ⟨k, mem_enterClaim_of_other mem other, live⟩

/-- At or above the floor HALT's claim is not live; without another live one none is. -/
theorem halt_quiet_live {level : Nat} {t : State} (formed : t.run.claimsFormed) (free : t.run.hold ≠ .holding) (above : t.run.floor ≤ level)
    (others : ∀ k ∈ t.run.claims, k.source ≠ .halt → k.live t.run.floor = false) : (t.enterClaim (haltRaise level)).run.anyLive = false := by
  obtain ⟨k, claim, level', -⟩ := halt_claim (level := level) (.inl free)
  refine List.any_eq_false.2 fun c mem => Bool.eq_false_iff.1 ?_
  by_cases source : c.source = .halt
  · have same : c = k :=
      claim_unique (claimsAfter_formed formed (haltRaise_formed level)).1 (mem_of_claimOf claim) mem (source.trans (claimOf_source claim).symm)
    rw [same, live_of_level level']
    exact decide_eq_false (Nat.not_lt.2 above)
  · obtain ⟨c', source', put⟩ := claimsAfter_put (haltRaise level) t
    rw [enterClaim_claims, put] at mem
    rcases mem_putClaim_iff formed.1 mem with rfl | ⟨old, -⟩
    · exact absurd source' source
    · exact others c old source

theorem halt_quiet_holding {level : Nat} {t : State} (formed : t.run.claimsFormed) (free : t.writeActive = false) (above : t.run.floor ≤ level)
    (others : ∀ k ∈ t.run.claims, k.source ≠ .halt → k.holding t.run.floor = false) : (t.enterClaim (haltRaise level)).run.anyHolding = false := by
  obtain ⟨k, claim, level', step⟩ := halt_claim (level := level) (.inr (.inl free))
  refine List.any_eq_false.2 fun c mem => Bool.eq_false_iff.1 ?_
  by_cases source : c.source = .halt
  · have same : c = k :=
      claim_unique (claimsAfter_formed formed (haltRaise_formed level)).1 (mem_of_claimOf claim) mem (source.trans (claimOf_source claim).symm)
    rw [same, holding_of_level level' step]
    exact decide_eq_false (Nat.not_lt.2 above)
  · obtain ⟨c', source', put⟩ := claimsAfter_put (haltRaise level) t
    rw [enterClaim_claims, put] at mem
    rcases mem_putClaim_iff formed.1 mem with rfl | ⟨old, -⟩
    · exact absurd source' source
    · exact others c old source

/-- The hold stays, and with it the held cycle. -/
theorem halt_stays {level : Nat} {t : State} (hold : t.run.hold = .holding) (holding : (t.enterClaim (haltRaise level)).run.anyHolding = true) :
    t.raiseClaim (haltRaise level) = t.enterClaim (haltRaise level) :=
  (raiseClaim_of_stay (.inr holding)).trans (actOnClaim_other (s := t.enterClaim (haltRaise level)) (.inl hold) _)

/-- HALT in RUNNING. -/
theorem halt_running {level : Nat} {t : State} (hold : t.run.hold = .running) :
    t.raiseClaim (haltRaise level) =
      if level < t.run.floor then (t.enterClaim (haltRaise level)).armOrMiss else t.enterClaim (haltRaise level) := by
  obtain ⟨k, claim, level', -⟩ := halt_claim (level := level) (t := t) (.inl (by simp [hold]))
  have liveIff : ((t.enterClaim (haltRaise level)).run.claimOf (haltRaise level).source).any (Claim.live t.run.floor) = decide (level < t.run.floor) := by
    rw [show (haltRaise level).source = .halt from rfl, claim]
    exact live_of_level level'
  rw [raiseClaim_of_stay (.inl (by simp [hold])), actOnClaim_running (s := t.enterClaim (haltRaise level)) hold, enterClaim_floor, liveIff]
  simp only [decide_eq_true_eq]

theorem halt_armed {level : Nat} {t : State} (hold : t.run.hold = .holdArmed) :
    (t.raiseClaim (haltRaise level)).run.hold = if (t.enterClaim (haltRaise level)).run.anyLive then .holdArmed else .running := by
  rw [raiseClaim_of_stay (.inl (by simp [hold])), actOnClaim_holdArmed (s := t.enterClaim (haltRaise level)) hold]
  split
  · exact hold
  · rfl

/-- Over a write-class job the standing claim keeps its level (R104). -/
theorem halt_fenced {level : Nat} {t : State} (formed : t.run.claimsFormed) (hold : t.run.hold = .holding) (above : t.run.floor ≤ level)
    (others : ∀ k ∈ t.run.claims, k.source ≠ .halt → k.holding t.run.floor = false) {k : Claim} (write : t.writeActive = true)
    (standing : t.run.claimOf .halt = some k) (holding : k.holding t.run.floor = true) :
    t.raiseClaim (haltRaise level) = t.enterClaim (haltRaise level) ∧
    (t.enterClaim (haltRaise level)).run.claimOf .halt = some { k with repeats := min 255 (k.repeats + 1), address := none } := by
  have again : ((haltRaise level).again k).holding t.run.floor = false :=
    (holding_of_level (k := (haltRaise level).again k) rfl rfl).trans (decide_eq_false (Nat.not_lt.2 above))
  have claim := claimOf_enterClaim_fenced standing (fenced_of_quiet formed hold write again others)
  exact ⟨halt_stays hold (List.any_eq_true.2 ⟨_, mem_of_claimOf claim, holding⟩), claim⟩

/-- Settles O39: HALT's raise by the hold state that it finds and the claim's level against the floor. -/
theorem haltRaisesClaim : Obligations.HaltRaisesClaim := by
  refine fun level s t taken => ⟨fun above => (exec_of_takes rfl taken).trans (if_pos above), fun inRange mapped =>
    ⟨(t.raiseClaim (haltRaise level)).settle, (exec_halt inRange taken).trans (if_pos mapped), rfl,
      (linkKept_settle _).notices _ (noticed_raiseClaim ..), ?_⟩⟩
  rw [settle_run, settle_port]
  refine ⟨fun hold below possible => ?_, fun hold below rehearsal wired => ?_, fun hold above => ?_, fun hold below => ?_, fun hold below => ?_,
    fun hold above others formed => ?_, fun hold other => ?_, fun hold other => ?_, fun hold above others formed => ⟨fun quiet => ?_, fun k write standing holding => ?_⟩,
    fun hold => ?_, fun hold => ?_⟩
  · rw [halt_running hold, if_pos below, armOrMiss_of_possible (s := t.enterClaim (haltRaise level)) ((holdingPossible_iff _).2 possible)]
    rfl
  · have impossible : (t.enterClaim (haltRaise level)).holdingPossible = false :=
      Bool.eq_false_of_not_eq_true fun possible => by
        have := (holdingPossible_iff _).1 possible
        simp [rehearsal, wired] at this
    have raised : t.raiseClaim (haltRaise level) = (t.enterClaim (haltRaise level)).latch .holdMissed := by
      rw [halt_running hold, if_pos below, armOrMiss_of_not impossible]
    rw [raised]
    exact ⟨hold, (linkKept_settle _).notices _ (noticed_latch_self ..)⟩
  · rw [halt_running hold, if_neg (Nat.not_lt.2 above)]
    exact hold
  · rw [halt_armed hold, if_pos (halt_below below).1]
  · rw [halt_stays hold (halt_below below).2]
    exact ⟨hold, rfl⟩
  · rw [halt_armed hold, if_neg (Bool.eq_false_iff.1 (halt_quiet_live formed (by simp [hold]) above others))]
  · obtain ⟨k, mem, source, live⟩ := other
    rw [halt_armed hold, if_pos (any_live_of_other mem source live)]
  · obtain ⟨k, mem, source, holding⟩ := other
    rw [halt_stays hold (List.any_eq_true.2 ⟨k, mem_enterClaim_of_other mem source, holding⟩)]
    exact ⟨hold, rfl⟩
  · exact congrArg State.settle (raiseClaim_of_end hold (halt_quiet_holding formed quiet above others))
  · obtain ⟨raised, claim⟩ := halt_fenced formed hold above others write standing holding
    rw [raised]
    exact ⟨hold, rfl, claim⟩
  · rw [raiseClaim_of_stay (.inl (by simp [hold])), actOnClaim_other (s := t.enterClaim (haltRaise level)) (.inr (.inl hold))]
    exact hold
  · rw [raiseClaim_of_stay (.inl (by simp [hold])), actOnClaim_other (s := t.enterClaim (haltRaise level)) (.inr (.inr hold))]
    exact hold

/-! ### SET FLOOR -/

/-- SET FLOOR where no hold ends (R102). -/
theorem exec_setFloor_of_stay {floor : Nat} {s t : State} (inRange : floor ≤ 8) (taken : s.takes (.setFloor floor) t)
    (stays : t.run.hold ≠ .holding ∨ (t.withFloor floor).run.anyHolding = true) :
    exec (.setFloor floor) s = .next ((t.floorTaken floor).settle.respond .ok 0x31 (.floor none)) := by
  refine (exec_of_takes rfl taken).trans ?_
  rw [if_neg (by omega), if_neg]
  · rfl
  · rintro ⟨hold, ends⟩
    rcases stays with other | holding
    · exact other hold
    · exact Bool.false_ne_true (ends.symm.trans holding)

theorem becomesLive_iff (r : RunControl) (floor : Nat) :
    r.becomesLive floor = true ↔ ∃ k ∈ r.claims, k.live floor = true ∧ k.live r.floor = false := by
  simp only [RunControl.becomesLive, List.any_eq_true, Bool.and_eq_true, Bool.not_eq_true']

theorem floorTaken_running {t : State} (hold : t.run.hold = .running) (floor : Nat) :
    t.floorTaken floor = if t.run.becomesLive floor then (t.withFloor floor).armOrMiss else t.withFloor floor := by
  rw [State.floorTaken, hold]

theorem floorTaken_holdArmed {t : State} (hold : t.run.hold = .holdArmed) (floor : Nat) :
    t.floorTaken floor = if (t.withFloor floor).run.anyLive then t.withFloor floor else (t.withFloor floor).setHold .running := by
  rw [State.floorTaken, hold]

theorem floorTaken_other {t : State} (hold : t.run.hold = .holding ∨ t.run.hold = .resetHeld ∨ t.run.hold = .unpowered) (floor : Nat) :
    t.floorTaken floor = t.withFloor floor := by
  rcases hold with hold | hold | hold <;> rw [State.floorTaken, hold]

theorem injectedHeld_eq_false {t : State} (h : ∀ c, t.port.inFlight = some c → c.injected = false) : t.injectedHeld = false := by
  cases inFlight : t.port.inFlight with
  | none => simp [State.injectedHeld, inFlight]
  | some c => simp [State.injectedHeld, inFlight, h c inFlight]

/-- Settles O41: the refusals, then the floor by the hold state that it finds. -/
theorem floorJudgesClaims : Obligations.FloorJudgesClaims := by
  refine fun floor s t taken => ⟨fun above => (exec_of_takes rfl taken).trans (if_pos above), fun inRange => ⟨fun quiet => ?_, fun hold dead => ?_,
    fun hold becomes => ⟨fun possible => ?_, fun rehearsal wired => ?_⟩, fun hold ends => ⟨fun write => ?_, fun write mapped targets => ?_,
      fun c write mapped inFlight injected => ?_⟩⟩⟩
  · rcases quiet with hold | hold | ⟨hold, holding⟩ | ⟨hold, live⟩ | ⟨hold, none'⟩
    · rw [exec_setFloor_of_stay inRange taken (.inl (by simp [hold])), floorTaken_other (.inr (.inl hold))]
      rfl
    · rw [exec_setFloor_of_stay inRange taken (.inl (by simp [hold])), floorTaken_other (.inr (.inr hold))]
      rfl
    · rw [exec_setFloor_of_stay inRange taken (.inr holding), floorTaken_other (.inl hold)]
      rfl
    · rw [exec_setFloor_of_stay inRange taken (.inl (by simp [hold])), floorTaken_holdArmed hold]
      exact congrArg (fun u => Host.Outcome.next ((State.settle u).respond .ok 0x31 (.floor none))) (if_pos live)
    · have stays : ¬t.run.becomesLive floor = true := by
        rw [becomesLive_iff]
        rintro ⟨k, mem, live, dead⟩
        exact Bool.false_ne_true (dead.symm.trans (none' k mem live))
      rw [exec_setFloor_of_stay inRange taken (.inl (by simp [hold])), floorTaken_running hold, if_neg stays]
      rfl
  · rw [exec_setFloor_of_stay inRange taken (.inl (by simp [hold])), floorTaken_holdArmed hold]
    exact congrArg (fun u => Host.Outcome.next ((State.settle u).respond .ok 0x31 (.floor none)))
      (if_neg (Bool.eq_false_iff.1 (show (t.withFloor floor).run.anyLive = false from dead)))
  · rw [exec_setFloor_of_stay inRange taken (.inl (by simp [hold])), floorTaken_running hold, if_pos ((becomesLive_iff _ _).2 becomes),
      armOrMiss_of_possible (s := t.withFloor floor) ((holdingPossible_iff _).2 possible)]
    rfl
  · have impossible : (t.withFloor floor).holdingPossible = false := by simp [State.holdingPossible, State.withFloor, rehearsal, wired]
    rw [exec_setFloor_of_stay inRange taken (.inl (by simp [hold])), floorTaken_running hold, if_pos ((becomesLive_iff _ _).2 becomes),
      armOrMiss_of_not impossible]
    rfl
  · refine (exec_of_takes rfl taken).trans ?_
    rw [if_neg (by omega), if_pos ⟨hold, ends⟩, if_pos write]
    rfl
  · rw [exec_setFloor_of_end inRange taken hold ends write, if_pos mapped, if_neg (by simp [injectedHeld_eq_false targets])]
    rfl
  · rw [exec_setFloor_of_end inRange taken hold ends write, if_pos mapped, if_pos (by simp [State.injectedHeld, inFlight, injected])]
    rfl

/-! ### The target reset output and the net -/

theorem targetReset_iff (s : State) :
    s.targetReset = true ↔ s.port.powered = true ∧
      (s.run.hold = .resetHeld ∨ s.run.rehearsal = true ∨ s.overlay.survey = .powerOn ∨ (s.port.prst = true ∧ s.bus.owner = .free)) := by
  simp only [State.targetReset, Bool.and_eq_true, Bool.or_eq_true, decide_eq_true_eq, or_assoc]

theorem netAsserted_iff (s : State) : s.netAsserted = true ↔ s.port.boardReset = true ∨ s.targetReset = true := Bool.or_eq_true_iff

theorem senseNet_of_released {s : State} (powered : s.port.powered = true) (net : s.netAsserted = false) :
    s.senseNet = { s with port := { s.port with resetSense := true } } := if_pos (by simp [powered, net])

theorem senseNet_of_not {s : State} (h : s.port.powered = false ∨ s.netAsserted = true) : s.senseNet = s := by
  refine if_neg ?_
  rcases h with absent | asserted
  · simp [absent]
  · simp [asserted]

/-- Where the 420 does not drive the net, the net is sensed where the board does not drive it either (R20; log 16). -/
theorem senseNet_eq {s : State} (released : s.targetReset = false) :
    s.senseNet = { s with port := { s.port with resetSense := s.port.resetSense || (s.port.powered && !s.port.boardReset) } } := by
  have net : s.netAsserted = s.port.boardReset := by rw [State.netAsserted, released, Bool.or_false]
  rw [State.senseNet, net]
  split
  · next sensed => rw [sensed, Bool.or_true]
  · next other => rw [Bool.eq_false_of_not_eq_true other, Bool.or_false]

/-- A target that is out of reset: the part out of reset, no rehearsal, and a hold state other than RESET_HELD. -/
theorem targetReset_eq_false {s : State} (hold : s.run.hold ≠ .resetHeld) (rehearsal : s.run.rehearsal = false) (survey : s.overlay.survey ≠ .powerOn)
    (prst : s.port.prst = false) : s.targetReset = false := by
  refine Bool.eq_false_of_not_eq_true fun asserted => ?_
  rcases ((targetReset_iff s).1 asserted).2 with h | h | h | ⟨h, -⟩
  · exact hold h
  · exact Bool.false_ne_true (rehearsal.symm.trans h)
  · exact survey h
  · exact Bool.false_ne_true (prst.symm.trans h)

/-- A target in reset: the output follows the supply. -/
theorem targetReset_eq_powered {s : State} (h : s.run.hold = .resetHeld ∨ s.run.rehearsal = true) : s.targetReset = s.port.powered := by
  refine Bool.eq_iff_iff.2 ((targetReset_iff s).trans (and_iff_left ?_))
  exact h.imp id .inl

/-- The part is out of reset where a command is taken, and the power-on survey is over. -/
theorem prst_of_takes {c : Instr} {s t : State} (taken : s.takes c t) : t.port.prst = false ∧ t.overlay.survey ≠ .powerOn := by
  obtain ⟨⟨prst, -, -, ⟨-, rfl⟩ | ⟨_, _, -, -, rfl⟩⟩, survey⟩ := taken <;> exact ⟨prst, survey⟩

/-! ### RESUME, REHEARSE, END REHEARSAL -/

theorem takeUpClaims_of_none {s : State} (h : s.run.anyLive = false) : s.takeUpClaims = s.setHold .running := if_neg (Bool.eq_false_iff.1 h)

theorem takeUpClaims_of_live {s : State} (h : s.run.anyLive = true) : s.takeUpClaims = (s.setHold .running).armOrMiss := if_pos h

/-- RESUME taken: the claims are taken up, and the net may be sensed (R111). -/
theorem exec_resume {s t : State} (taken : s.takes .resume t) (quiet : t.writeActive = false) (hold : t.run.hold = .resetHeld) (rehearsal : t.run.rehearsal = false) :
    exec .resume s = .next (t.takeUpClaims.senseNet.settle.respond .ok 0x35 (.hold t.takeUpClaims.senseNet.run.hold)) := by
  refine (exec_of_takes rfl taken).trans ?_
  rw [if_neg (by simp [quiet]), if_pos ⟨hold, rehearsal⟩]
  dsimp only
  rw [settle_run]
  rfl

/-- The claims taken up leave the target out of reset. -/
theorem takeUpClaims_released {c : Instr} {s t : State} (taken : s.takes c t) (rehearsal : t.run.rehearsal = false) : t.takeUpClaims.targetReset = false := by
  obtain ⟨prst, survey⟩ := prst_of_takes taken
  unfold State.takeUpClaims
  dsimp only
  unfold State.armOrMiss
  repeat' split
  all_goals exact targetReset_eq_false (by simp [State.setHold]) rehearsal survey prst

/-- The three ways in which RESUME takes up the claims. -/
theorem exec_resume_sensed {s t : State} (taken : s.takes .resume t) (quiet : t.writeActive = false) (hold : t.run.hold = .resetHeld)
    (rehearsal : t.run.rehearsal = false) {u : State} (up : t.takeUpClaims = u) :
    exec .resume s = .next ((State.settle { u with port := { u.port with resetSense := u.port.resetSense || (u.port.powered && !u.port.boardReset) } }).respond .ok 0x35
      (.hold u.run.hold)) := by
  rw [exec_resume taken quiet hold rehearsal, senseNet_eq (takeUpClaims_released taken rehearsal), up]

theorem exec_rehearse {s t : State} (taken : s.takes .rehearse t) (quiet : t.writeActive = false) (hold : t.run.hold = .resetHeld) :
    exec .rehearse s =
      .next ((State.settle { t with run := { t.run with rehearsal := true, hold := if t.run.anyLive then .holdArmed else .running } }).respond .ok 0x36 .empty) := by
  refine (exec_of_takes rfl taken).trans ?_
  rw [if_neg (by simp [quiet]), if_pos hold]
  refine congrArg (fun u => Host.Outcome.next ((State.settle u).respond .ok 0x36 .empty)) ?_
  cases live : t.run.anyLive with
  | false => exact takeUpClaims_of_none (s := t.withRehearsal true) live
  | true => exact (takeUpClaims_of_live (s := t.withRehearsal true) live).trans (armOrMiss_of_possible rfl)

theorem exec_endRehearsal {s t : State} (taken : s.takes .endRehearsal t) (rehearsal : t.run.rehearsal = true) (hold : t.run.hold ≠ .holding) :
    exec .endRehearsal s =
      .next ((State.settle { t with run := { t.run with rehearsal := false, claims := [], hold := .resetHeld } }).respond .ok 0x38 .empty) := by
  refine (exec_of_takes rfl taken).trans ?_
  rw [if_neg (by simp [rehearsal]), if_neg hold]
  rfl

/-- The output after a command whose action settles. -/
theorem targetReset_answered (x : Status) (k : Byte) (a : Answer) {s : State} (prst : s.port.prst = false) :
    (s.settle.respond x k a).targetReset = s.targetReset := by
  simp [State.targetReset, prst]

/-- Settles O45: the net by the part's own drive and the board's, the commands by their refusals and what they take up. -/
theorem resumeAndRehearse : Obligations.ResumeAndRehearse := by
  refine ⟨fun s => ⟨targetReset_iff s, netAsserted_iff s, senseNet_of_released, senseNet_of_not⟩,
    fun s t taken => ⟨fun write => ?_, fun quiet other => ?_, fun quiet hold rehearsal => ⟨?_, fun dead => ?_, fun live wired => ?_, fun live unwired => ?_⟩⟩,
    fun s t taken => ⟨fun write => ?_, fun quiet other => ?_, fun quiet hold => ⟨⟨_, exec_rehearse taken quiet hold, ?_⟩, exec_rehearse taken quiet hold⟩⟩,
    fun s t taken => ⟨fun none' => ?_, fun rehearsal hold => ?_, fun rehearsal hold =>
      ⟨⟨_, exec_endRehearsal taken rehearsal hold, ?_⟩, exec_endRehearsal taken rehearsal hold⟩⟩⟩
  · exact (exec_of_takes rfl taken).trans (if_pos write)
  · refine (exec_of_takes rfl taken).trans ?_
    rw [if_neg (by simp [quiet]), if_neg other]
    rfl
  · refine ⟨_, exec_resume taken quiet hold rehearsal, ?_⟩
    have released := takeUpClaims_released taken rehearsal
    have prst : t.takeUpClaims.port = t.port := (takeUpClaims_aside t).1
    rw [senseNet_eq released, targetReset_answered _ _ _ (by rw [prst]; exact (prst_of_takes taken).1)]
    exact released
  · exact exec_resume_sensed (u := t.setHold .running) taken quiet hold rehearsal (takeUpClaims_of_none dead)
  · exact exec_resume_sensed (u := t.setHold .holdArmed) taken quiet hold rehearsal
      ((takeUpClaims_of_live live).trans (armOrMiss_of_possible ((holdingPossible_iff _).2 (.inr wired))))
  · exact exec_resume_sensed (u := (t.setHold .running).latch .holdMissed) taken quiet hold rehearsal
      ((takeUpClaims_of_live live).trans (armOrMiss_of_not (by simp [State.holdingPossible, rehearsal, unwired, State.setHold])))
  · exact (exec_of_takes rfl taken).trans (if_pos write)
  · refine (exec_of_takes rfl taken).trans ?_
    rw [if_neg (by simp [quiet]), if_neg other]
    rfl
  · exact (targetReset_answered _ _ _ (by exact (prst_of_takes taken).1)).trans (targetReset_eq_powered (.inr rfl))
  · exact (exec_of_takes rfl taken).trans (if_pos none')
  · refine (exec_of_takes rfl taken).trans ?_
    rw [if_neg (by simp [rehearsal]), if_pos hold]
    rfl
  · exact (targetReset_answered _ _ _ (by exact (prst_of_takes taken).1)).trans (targetReset_eq_powered (.inl rfl))

end Sys2Proof.ClaimRows
end

section
/-! PROOFS. The course of a cycle: its record, its completion, its abandonment, its performance, and the hold decision (chapters 1, 2 and 6). -/

namespace Sys2Proof.CycleRows

open Sys2Proof Sys2Proof.Machine Sys2Proof.Resets Sys2Proof.BenchLink Sys2Proof.RunSound Sys2Proof.LinkKeeping Sys2Proof.SlotRows Sys2Proof.ClaimRows

/-! ### A record handed over reads the Trace Store and the notices alone -/

/-- The two states have one Trace Store and one link. -/
def SameStore (s t : State) : Prop := t.trace = s.trace ∧ t.link = s.link

theorem sameStore_stopCapture {s t : State} (h : SameStore s t) : SameStore s.stopCapture t.stopCapture := by
  obtain ⟨trace, link⟩ := h
  simp only [SameStore, State.stopCapture, State.latch, trace, link, and_self]

theorem sameStore_markTrace {s t : State} (h : SameStore s t) : SameStore s.markTrace t.markTrace := by
  obtain ⟨trace, link⟩ := h
  unfold State.markTrace
  rw [trace]
  split
  · exact ⟨rfl, by simp only [State.latch, link]⟩
  · exact ⟨trace, link⟩

theorem sameStore_countTail {s t : State} (h : SameStore s t) : SameStore s.countTail t.countTail := by
  obtain ⟨trace, link⟩ := h
  unfold State.countTail
  dsimp only
  rw [trace]
  split
  · split
    · exact sameStore_stopCapture ⟨rfl, link⟩
    · exact ⟨rfl, link⟩
  · exact ⟨trace, link⟩

theorem sameStore_offer {s t : State} (h : SameStore s t) (b : RecordBody) (sent : Bool) (stamp : Stamp) :
    SameStore (s.offer b sent stamp) (t.offer b sent stamp) := by
  have ⟨trace, link⟩ := h
  unfold State.offer State.appendRecord
  dsimp only
  rw [trace]
  split
  · exact sameStore_countTail (sameStore_markTrace ⟨rfl, link⟩)
  · split
    · exact sameStore_stopCapture h
    · exact h

theorem sameStore_traceStop {s t : State} (h : SameStore s t) : SameStore s.traceStop t.traceStop := by
  have ⟨trace, link⟩ := h
  unfold State.traceStop
  rw [trace]
  split
  · split
    · exact sameStore_stopCapture h
    · exact ⟨rfl, link⟩
  · exact h

/-- Handing over a record commutes with what touches neither the Trace Store nor the link. -/
theorem offer_eq {s t : State} (trace : t.trace = s.trace) (link : t.link = s.link) (b : RecordBody) (sent : Bool) (stamp : Stamp) :
    t.offer b sent stamp = { t with trace := (s.offer b sent stamp).trace, link := (s.offer b sent stamp).link } := by
  obtain ⟨trace', link'⟩ := sameStore_offer ⟨trace, link⟩ b sent stamp
  have only : t.offer b sent stamp = { t with trace := (t.offer b sent stamp).trace, link := { t.link with pending := (t.offer b sent stamp).link.pending } } :=
    offer_traceOnly b sent stamp t
  have linked : (t.offer b sent stamp).link = { t.link with pending := (t.offer b sent stamp).link.pending } := congrArg State.link only
  rw [← trace', ← link', linked]
  exact only

/-- The store after a record does not depend on the notices. -/
theorem offer_trace {s t : State} (trace : t.trace = s.trace) (b : RecordBody) (sent : Bool) (stamp : Stamp) :
    (t.offer b sent stamp).trace = (s.offer b sent stamp).trace := by
  have other : (t.offer b sent stamp).trace = (({ t with link := s.link } : State).offer b sent stamp).trace := by
    simp only [State.offer, State.appendRecord, State.markTrace, State.countTail, State.stopCapture, State.latch]
    split
    · split <;> split <;> first
        | rfl
        | (split <;> rfl)
    · split <;> rfl
  exact other.trans (sameStore_offer (t := { t with link := s.link }) ⟨trace, rfl⟩ b sent stamp).1

/-! ### The record of a cycle and its handing over -/

/-- The record of a cycle, with the byte of a read (R14, R18). -/
def recordWith (c : Cycle) (abandoned : Bool) (data : Byte) : CycleRecord :=
  { address := c.address, lane := c.lane, data := if c.kind = .write then c.writeData.getD 0 else data, window := c.window, route := c.route, kind := c.kind,
    held := c.held, substituted := c.substituted, stretched := c.stretched, contention := c.contention, abandoned := abandoned, injected := c.injected,
    matched := c.matched, fired := c.fired }

theorem isWrite_iff (c : Cycle) : c.isWrite = true ↔ c.kind = .write := decide_eq_true_iff

theorem isWrite_eq_false {c : Cycle} (h : c.kind ≠ .write) : c.isWrite = false := decide_eq_false h

theorem record_abandoned (c : Cycle) : c.record true = recordWith c true 0 := by
  simp only [Cycle.record, recordWith, isWrite_iff, if_true]

/-- The cycle as its completion records it: a read carries the delivered byte (R14). -/
def withRead (c : Cycle) (data : Byte) : Cycle := if c.isWrite then c else { c with readData := some data }

theorem record_withRead (c : Cycle) (data : Byte) : (withRead c data).record false = recordWith c false data := by
  by_cases write : c.kind = .write
  · rw [withRead, if_pos ((isWrite_iff c).2 write)]
    simp only [Cycle.record, recordWith, (isWrite_iff c).2 write, write, if_true]
  · rw [withRead, if_neg (mt (isWrite_iff c).1 write)]
    simp only [Cycle.record, recordWith, Cycle.isWrite, write, decide_false, Bool.false_eq_true, if_false, Option.getD_some]

/-- The state after a cycle's record and a waiting TRACE_STOP (R14, R18, R76). -/
def recorded (c : Cycle) (r : CycleRecord) (s : State) : State :=
  if c.stopAfter then (s.offer (.cycle r) (c.capture && c.gate) s.timeBase).traceStop else s.offer (.cycle r) (c.capture && c.gate) s.timeBase

/-- The number that the record took (R127). -/
def numberOf (c : Cycle) (r : CycleRecord) (s : State) : Option (BitVec 32) :=
  if s.trace.appends (c.capture && c.gate) (.cycle r) then some s.trace.next else none

theorem recordCycle_eq (c : Cycle) (abandoned : Bool) (s : State) :
    s.recordCycle c abandoned = (recorded c (c.record abandoned) s, numberOf c (c.record abandoned) s) := rfl

theorem recorded_traceOnly (c : Cycle) (r : CycleRecord) (s : State) : s.traceOnly (recorded c r s) := by
  unfold recorded
  split
  · exact State.traceOnly_trans (offer_traceOnly ..) (traceStop_traceOnly _)
  · exact offer_traceOnly ..

@[simp] theorem recorded_port (c : Cycle) (r : CycleRecord) (s : State) : (recorded c r s).port = s.port := by rw [recorded_traceOnly c r s]
@[simp] theorem recorded_bus (c : Cycle) (r : CycleRecord) (s : State) : (recorded c r s).bus = s.bus := by rw [recorded_traceOnly c r s]
@[simp] theorem recorded_run (c : Cycle) (r : CycleRecord) (s : State) : (recorded c r s).run = s.run := by rw [recorded_traceOnly c r s]
@[simp] theorem recorded_watch (c : Cycle) (r : CycleRecord) (s : State) : (recorded c r s).watch = s.watch := by rw [recorded_traceOnly c r s]
@[simp] theorem recorded_activity (c : Cycle) (r : CycleRecord) (s : State) : (recorded c r s).link.activity = s.link.activity := by
  rw [recorded_traceOnly c r s]

theorem recorded_of_noStop {c : Cycle} (h : c.stopAfter = false) (r : CycleRecord) (s : State) :
    recorded c r s = s.offer (.cycle r) (c.capture && c.gate) s.timeBase := if_neg (Bool.eq_false_iff.1 h)

theorem sameStore_recorded {s t : State} (h : SameStore s t) (time : t.timeBase = s.timeBase) (c : Cycle) (r : CycleRecord) :
    SameStore (recorded c r s) (recorded c r t) := by
  unfold recorded
  rw [time]
  split
  · exact sameStore_traceStop (sameStore_offer h ..)
  · exact sameStore_offer h ..

/-! ### The answer that waits for an injected cycle -/

theorem answerInjected_of_target {c : Cycle} (h : c.injected = false) (abandoned : Bool) (d : Delivery) (s : State) : s.answerInjected c abandoned d = s :=
  if_neg (Bool.eq_false_iff.1 h)

theorem answerInjected_of_inject {c : Cycle} {s : State} (h : c.injected = true) (activity : s.link.activity = .inject) (abandoned : Bool) (d : Delivery) :
    s.answerInjected c abandoned d =
      s.respond .ok 0x37 (.inject c.window c.route c.matched c.fired c.raised c.held abandoned s.run.hold (if abandoned then none else some d)) := by
  rw [State.answerInjected, if_pos h, activity]
  rfl

theorem answerInjected_of_release {c : Cycle} {s : State} (h : c.injected = true) (activity : s.link.activity = .release) (abandoned : Bool) (d : Delivery) :
    s.answerInjected c abandoned d = s.respond .ok 0x33 (.release s.run.hold (byUrgency s.run.claims) s.run.floor (some d)) := by
  rw [State.answerInjected, if_pos h, activity]

theorem answerInjected_of_floor {c : Cycle} {s : State} (h : c.injected = true) (activity : s.link.activity = .floor) (abandoned : Bool) (d : Delivery) :
    s.answerInjected c abandoned d = s.respond .ok 0x31 (.floor (some d)) := by
  rw [State.answerInjected, if_pos h, activity]

theorem answerInjected_of_other {c : Cycle} {s : State} (inject : s.link.activity ≠ .inject) (release : s.link.activity ≠ .release)
    (floor : s.link.activity ≠ .floor) (abandoned : Bool) (d : Delivery) : s.answerInjected c abandoned d = s := by
  unfold State.answerInjected
  split
  · cases activity : s.link.activity with
    | inject => exact absurd activity inject
    | release => exact absurd activity release
    | floor => exact absurd activity floor
    | _ => rfl
  · rfl

/-! ### Completion -/

/-- The cycle has gone, its record handed over, its byte driven to the target (R14; log 37). -/
def gone (c : Cycle) (data : Byte) (s : State) : State :=
  { recorded c (recordWith c false data) s with
    port := { s.port with inFlight := none, driven := if c.kind = .write ∨ c.injected = true then s.port.driven else some data } }

/-- Nothing gathered by read-data evaluation. -/
def noEvaluation : Evaluation := { matched := 0, fired := 0, raised := [], start := false, stop := false }

/-- Read-data evaluation of a read; a write has none (R15, R71). -/
def evaluated (c : Cycle) (data : Byte) (s : State) : Evaluation × State :=
  if c.kind = .write then (noEvaluation, gone c data s) else readDataEvaluate data c.address (gone c data s)

/-- What the answer reports of a completed cycle (R108). -/
def deliveryOf (c : Cycle) (data : Byte) (s : State) : Delivery :=
  { abandoned := false, byte := if c.kind = .write then none else some data, matched := (evaluated c data s).1.matched, fired := (evaluated c data s).1.fired,
    raised := (evaluated c data s).1.raised, seq := numberOf c (recordWith c false data) s }

theorem driven_eq (c : Cycle) (data : Byte) (s : State) :
    (((s.recordCycle (withRead c data) false).1.driveData (withRead c data) data).clearCycle = gone c data s) ∧
      (s.recordCycle (withRead c data) false).2 = numberOf c (recordWith c false data) s := by
  have same : recorded (withRead c data) (recordWith c false data) s = recorded c (recordWith c false data) s ∧
      numberOf (withRead c data) (recordWith c false data) s = numberOf c (recordWith c false data) s := by
    unfold withRead
    split <;> exact ⟨rfl, rfl⟩
  have drives : ((withRead c data).isWrite || (withRead c data).injected) = decide (c.kind = .write ∨ c.injected = true) := by
    unfold withRead
    split <;> simp [Cycle.isWrite]
  rw [recordCycle_eq, record_withRead]
  refine ⟨?_, same.2⟩
  dsimp only
  rw [same.1, State.driveData, drives]
  unfold gone
  simp only [decide_eq_true_eq]
  split
  · simp only [State.clearCycle, recorded_port]
  · simp only [State.clearCycle, recorded_port]

/-- The completion of a cycle in one equation (R14, R15, R108). -/
theorem completeCycle_eq (c : Cycle) (data : Byte) (s : State) :
    s.completeCycle c data = (evaluated c data s).2.answerInjected c false (deliveryOf c data s) := by
  obtain ⟨driven, number⟩ := driven_eq c data s
  have same : (if c.isWrite then c else { c with readData := some data }) = withRead c data := rfl
  unfold State.completeCycle
  simp only [same]
  rw [driven, number]
  by_cases write : c.kind = .write
  · have isWrite := (isWrite_iff c).2 write
    have same : withRead c data = c := if_pos isWrite
    simp only [same, isWrite, if_true, evaluated, deliveryOf, write]
    rfl
  · have same : withRead c data = { c with readData := some data } := if_neg (mt (isWrite_iff c).1 write)
    have isWrite : ({ c with readData := some data } : Cycle).isWrite = false := decide_eq_false write
    simp only [same, isWrite, evaluated, deliveryOf, write, if_false, Bool.false_eq_true]
    rfl

/-- The byte of a write's completion is no matter. -/
theorem completeCycle_write {c : Cycle} (h : c.kind = .write) (d e : Byte) (s : State) : s.completeCycle c d = s.completeCycle c e := by
  have same : gone c d s = gone c e s := by simp only [gone, recordWith, h, if_true, true_or]
  have number : numberOf c (recordWith c false d) s = numberOf c (recordWith c false e) s := by simp only [recordWith, h, if_true]
  simp only [completeCycle_eq, deliveryOf, evaluated, h, if_true, same, number]

theorem completeCycle_of_target {c : Cycle} (h : c.injected = false) (data : Byte) (s : State) : s.completeCycle c data = (evaluated c data s).2 :=
  (completeCycle_eq ..).trans (answerInjected_of_target h ..)

theorem deliverUnit_of_quiet {p : Evaluation × State} {i : Fin 4} (h : p.2.watch[i].pendingData = false) (data : Byte) (address : Nat) :
    deliverUnit data address p i = p := if_neg (Bool.eq_false_iff.1 h)

/-- With no pending decision read-data evaluation does nothing (R71). -/
theorem readDataEvaluate_of_quiet {s : State} (quiet : ∀ i : Fin 4, s.watch[i].pendingData = false) (data : Byte) (address : Nat) :
    readDataEvaluate data address s = (noEvaluation, s) := by
  have units : ∀ l : List (Fin 4), l.foldl (deliverUnit data address) (noEvaluation, s) = (noEvaluation, s) := by
    intro l
    induction l with
    | nil => rfl
    | cons i l ih => rw [List.foldl_cons, deliverUnit_of_quiet (quiet i), ih]
  have folded := units [0, 1, 2, 3]
  unfold readDataEvaluate
  rw [show ({ matched := 0, fired := 0, raised := [], start := false, stop := false } : Evaluation) = noEvaluation from rfl, folded]
  rfl

theorem evaluated_of_quiet {c : Cycle} {s : State} (h : c.kind = .write ∨ ∀ i : Fin 4, s.watch[i].pendingData = false) (data : Byte) :
    evaluated c data s = (noEvaluation, gone c data s) := by
  unfold evaluated
  split
  · rfl
  · next read =>
    refine readDataEvaluate_of_quiet (fun i => ?_) ..
    rw [show (gone c data s).watch = s.watch from recorded_watch ..]
    exact h.resolve_left read i

/-- A target cycle that no pending decision tests is gone as it completes. -/
theorem completeCycle_quiet {c : Cycle} {s : State} (target : c.injected = false) (h : c.kind = .write ∨ ∀ i : Fin 4, s.watch[i].pendingData = false)
    (data : Byte) : s.completeCycle c data = gone c data s := by
  rw [completeCycle_of_target target, evaluated_of_quiet h]

/-! ### Performance -/

/-- The state that asks for the bus with the cycle in performance (R9). -/
def asking (c : Cycle) (s : State) : State :=
  { s with port := { s.port with inFlight := some { c with phase := .performing } }, bus := { s.bus with target := true } }

theorem arbitrate_port (s : State) : s.arbitrate.port = s.port := by
  rcases arbitrate_cases s with same | ⟨b, eq, -⟩
  · rw [same]
  · rw [eq]

theorem arbitrate_run (s : State) : s.arbitrate.run = s.run := by
  rcases arbitrate_cases s with same | ⟨b, eq, -⟩
  · rw [same]
  · rw [eq]

theorem performAtBoard_eq (c : Cycle) (s : State) :
    s.performAtBoard c = if (asking c s).arbitrate.bus.owner = .target then (asking c s).arbitrate else (asking c s).arbitrate.stretchCycle := rfl

theorem stretchCycle_of_injected {c : Cycle} {s : State} (inFlight : s.port.inFlight = some c) (h : c.injected = true) : s.stretchCycle = s := by
  rw [State.stretchCycle, inFlight]
  exact if_pos h

theorem stretchCycle_of_target {c : Cycle} {s : State} (inFlight : s.port.inFlight = some c) (h : c.injected = false) :
    s.stretchCycle = { s with port := { s.port with inFlight := some { c with stretched := true, waiting := c.waiting || s.port.waitWired } } } := by
  rw [State.stretchCycle, inFlight]
  exact if_neg (Bool.eq_false_iff.1 h)

theorem asking_inFlight (c : Cycle) (s : State) : (asking c s).arbitrate.port.inFlight = some { c with phase := .performing } := by
  rw [arbitrate_port]
  rfl

/-- A cycle that is granted the bus, or that no target presented, is not stretched. -/
theorem performAtBoard_of_granted {c : Cycle} {s : State} (h : (asking c s).arbitrate.bus.owner = .target ∨ c.injected = true) :
    s.performAtBoard c = (asking c s).arbitrate := by
  rw [performAtBoard_eq]
  split
  · rfl
  · next other => exact stretchCycle_of_injected (asking_inFlight c s) (h.resolve_left other)

/-- A target cycle that waits for the bus is stretched (R16, R17). -/
theorem performAtBoard_of_waiting {c : Cycle} {s : State} (other : (asking c s).arbitrate.bus.owner ≠ .target) (target : c.injected = false) :
    s.performAtBoard c = { (asking c s).arbitrate with
      port := { s.port with inFlight := some { c with phase := .performing, stretched := true, waiting := c.waiting || s.port.waitWired } } } := by
  rw [performAtBoard_eq, if_neg other, stretchCycle_of_target (asking_inFlight c s) target, arbitrate_port]
  rfl

/-- With the bus owned the arbiter grants nothing. -/
theorem performAtBoard_of_owned {c : Cycle} {s : State} (owned : s.bus.owner ≠ .free) (other : s.bus.owner ≠ .target) (target : c.injected = false) :
    s.performAtBoard c = { s with
      bus := { s.bus with target := true }
      port := { s.port with inFlight := some { c with phase := .performing, stretched := true, waiting := c.waiting || s.port.waitWired } } } := by
  have same : (asking c s).arbitrate = asking c s := if_pos (.inl owned)
  rw [performAtBoard_of_waiting (by rw [same]; exact other) target, same]
  rfl

theorem performCycle_atBoard {c : Cycle} (h : c.route = .pass ∨ (c.route = .guard ∧ c.kind ≠ .write)) (s : State) : s.performCycle c = s.performAtBoard c := by
  unfold State.performCycle
  rcases h with route | ⟨route, kind⟩
  · rw [route]
  · rw [route, isWrite_eq_false kind]

theorem performCycle_float {c : Cycle} (h : c.route = .float) (s : State) : s.performCycle c = s.completeCycle c s.floatByte := by
  unfold State.performCycle
  rw [h]

theorem performCycle_dropped {c : Cycle} (h : c.route = .guard ∨ c.route = .float ∨ c.route = .overlayRo) (kind : c.kind = .write) (s : State) :
    s.performCycle c = s.completeCycle c 0 := by
  rcases h with route | route | route
  · rw [State.performCycle, route, (isWrite_iff c).2 kind]
  · rw [performCycle_float route, completeCycle_write kind]
  · rw [State.performCycle, route, (isWrite_iff c).2 kind]

theorem performCycle_overlayRead {c : Cycle} {l : Location} (h : c.route = .overlay ∨ c.route = .overlayRo ∨ c.route = .shadow) (location : c.location = some l)
    (kind : c.kind ≠ .write) (s : State) : s.performCycle c = s.completeCycle c (s.overlay.readByte l) := by
  unfold State.performCycle
  rw [isWrite_eq_false kind, location]
  rcases h with route | route | route <;> rw [route] <;> rfl

theorem performCycle_overlayWrite {c : Cycle} {l : Location} {d : Byte} (h : c.route = .overlay) (location : c.location = some l) (kind : c.kind = .write)
    (data : c.writeData = some d) (s : State) : s.performCycle c = State.completeCycle c 0 { s with overlay := s.overlay.writeByte l d } := by
  unfold State.performCycle
  rw [(isWrite_iff c).2 kind, location, data, h]
  rfl

theorem performCycle_shadowWrite {c : Cycle} {l : Location} {d : Byte} (h : c.route = .shadow) (location : c.location = some l) (kind : c.kind = .write)
    (data : c.writeData = some d) (s : State) : s.performCycle c = State.performAtBoard c { s with overlay := s.overlay.writeByte l d } := by
  unfold State.performCycle
  rw [(isWrite_iff c).2 kind, location, data, h]
  rfl

/-! ### A hold ends and its cycle goes on -/

/-- The hold state after a hold that the cycle survives (R102, R106). -/
def holdAfter (claims : List Claim) : HoldState := if claims.any (fun k => k.step.any (fun p => !p.satisfied)) then .holdArmed else .running

/-- The state as a hold has ended by this cause (R101). -/
def holdEnded (o : HoldOrigin) (cause : EndCause) (h : HoldState) (s : State) : State :=
  { s.offer (.holdEnd o cause) true s.timeBase with run := { s.run with hold := h, origin := none, timer := none } }

theorem endHold_setHold {o : HoldOrigin} {s : State} (origin : s.run.origin = some o) (cause : EndCause) (h : HoldState) :
    (s.endHold cause).setHold h = holdEnded o cause h s := by
  rw [endHold_of_origin origin]
  rfl

theorem endHold_afterHold {o : HoldOrigin} {s : State} (origin : s.run.origin = some o) (cause : EndCause) :
    (s.endHold cause).afterHold = holdEnded o cause (holdAfter s.run.claims) s := by
  have claims : (s.endHold cause).run.stepWaits = s.run.claims.any (fun k => k.step.any (fun p => !p.satisfied)) := by
    rw [endHold_run]
    rfl
  rw [State.afterHold, claims]
  exact endHold_setHold origin ..

theorem holdEnded_port (o : HoldOrigin) (cause : EndCause) (h : HoldState) (s : State) : (holdEnded o cause h s).port = s.port := offer_port ..

theorem holdEnded_bus (o : HoldOrigin) (cause : EndCause) (h : HoldState) (s : State) : (holdEnded o cause h s).bus = s.bus := offer_bus ..

theorem holdEnded_watch (o : HoldOrigin) (cause : EndCause) (h : HoldState) (s : State) : (holdEnded o cause h s).watch = s.watch := offer_watch ..

theorem holdEnded_timeBase (o : HoldOrigin) (cause : EndCause) (h : HoldState) (s : State) : (holdEnded o cause h s).timeBase = s.timeBase := offer_timeBase ..

theorem holdEnded_floatByte (o : HoldOrigin) (cause : EndCause) (h : HoldState) (s : State) : (holdEnded o cause h s).floatByte = s.floatByte :=
  offer_floatByte ..

theorem proceedHeld_of_some {c : Cycle} {s : State} (h : s.port.inFlight = some c) : s.proceedHeld = s.performCycle c := by rw [State.proceedHeld, h]

theorem endHoldByFloor_eq {c : Cycle} {o : HoldOrigin} {s : State} (inFlight : s.port.inFlight = some c) (origin : s.run.origin = some o) :
    s.endHoldByFloor = (holdEnded o .floor (holdAfter s.run.claims) s).performCycle c := by
  rw [State.endHoldByFloor, endHold_afterHold origin, proceedHeld_of_some (by rw [holdEnded_port]; exact inFlight)]

theorem wait_of_none {s : State} (h : s.port.inFlight = none) : s.wait = false := by simp [State.wait, h]

/-- Settles O42: the hold's end, and the performance by the route. -/
theorem holdEndsBeforeCycleGoesOn : Obligations.HoldEndsBeforeCycleGoesOn := by
  refine ⟨fun c o s inFlight origin => ⟨endHoldByFloor_eq inFlight origin, fun target route read quiet => ?_, fun target route owned other => ?_⟩,
    fun c s => ⟨performAtBoard_of_granted, performAtBoard_of_waiting⟩,
    fun c s => ⟨fun h => performCycle_atBoard h s, fun route _ => performCycle_float route s, fun h kind => performCycle_dropped h kind s,
      fun l h location kind => performCycle_overlayRead h location kind s, fun l d location kind data =>
        ⟨fun route => performCycle_overlayWrite route location kind data s, fun route => performCycle_shadowWrite route location kind data s⟩⟩⟩
  · have ends : s.endHoldByFloor = gone c s.floatByte (holdEnded o .floor (holdAfter s.run.claims) s) := by
      rw [endHoldByFloor_eq inFlight origin, performCycle_float route, holdEnded_floatByte,
        completeCycle_quiet target (.inr fun i => by rw [holdEnded_watch]; exact quiet i)]
    refine ⟨ends.trans ?_, ?_⟩
    · unfold gone recorded recordWith
      simp only [holdEnded_port, holdEnded_timeBase, route, read, target, Bool.false_eq_true, or_self, if_false]
      rfl
    · rw [ends]
      exact wait_of_none rfl
  · have ends : s.endHoldByFloor = _ := (endHoldByFloor_eq inFlight origin).trans ((performCycle_atBoard (.inl route) _).trans
      (performAtBoard_of_owned (by rw [holdEnded_bus]; exact owned) (by rw [holdEnded_bus]; exact other) target))
    rw [ends, holdEnded_port, holdEnded_bus]
    refine ⟨rfl, ?_⟩
    simp only [State.wait, State.highImpedance, Option.any_some]

end Sys2Proof.CycleRows
end

section
/-! PROOFS. RELEASE, RESET TARGET, the hold-limit expiry, and board reset: what they do to run control and to the cycle in flight (chapter 6, R20, R112). -/

namespace Sys2Proof.ReleaseRows

open Sys2Proof Sys2Proof.Machine Sys2Proof.Resets Sys2Proof.BenchLink Sys2Proof.RunSound Sys2Proof.LinkKeeping Sys2Proof.LinkRows Sys2Proof.ClaimRows
  Sys2Proof.CycleRows

/-! ### The fields of RELEASE -/

theorem source_ofCode_of_bad {n : Nat} (h : 10 < n) : Source.ofCode n = none := List.getElem?_eq_none (Nat.succ_le_of_lt h)

theorem exists_source {n : Nat} (h : n ≤ 10) : ∃ src, Source.ofCode n = some src ∧ src.code = n := by
  interval_cases n <;> exact ⟨_, rfl, rfl⟩

theorem releaseTarget_of_bad {source : Nat} (above : 10 < source) (notAll : source ≠ 255) : releaseTarget source = none := by
  rw [releaseTarget, if_neg notAll, source_ofCode_of_bad above]
  rfl

/-- What a RELEASE names: the claims it leaves, and whether it finds one (R105, R106). -/
theorem exists_releaseTarget {source : Nat} (ok : ¬(10 < source ∧ source ≠ 255)) : ∃ target, releaseTarget source = some target ∧ ∀ claims : List Claim,
    target.remaining claims = (if source = 255 then [] else claims.filter (fun k => decide (k.source.code ≠ source))) ∧
    (target.found claims = false ↔ if source = 255 then claims = [] else ∀ k ∈ claims, k.source.code ≠ source) := by
  by_cases all : source = 255
  · refine ⟨.all, if_pos all, fun claims => ⟨(if_pos all).symm, ?_⟩⟩
    rw [if_pos all]
    cases claims <;> simp [ReleaseTarget.found]
  · obtain ⟨src, named, code⟩ := exists_source (n := source) (by omega)
    have same : ∀ k : Claim, k.source = src ↔ k.source.code = source := fun k =>
      ⟨fun h => h ▸ code, fun h => Source.code_inj (h.trans code.symm)⟩
    refine ⟨.one src, by rw [releaseTarget, if_neg all, named]; rfl, fun claims => ⟨?_, ?_⟩⟩
    · rw [if_neg all]
      simp only [ReleaseTarget.remaining, ne_eq, same]
    · rw [if_neg all]
      simp only [ReleaseTarget.found, List.any_eq_false, decide_eq_true_eq, same, ne_eq]

theorem releaseMode_of_bad {mode : Nat} {byte : Option Byte} {stepKind : Option Nat}
    (bad : 2 < mode ∨ (mode = 1 ∧ byte = none) ∨ (mode = 2 ∧ stepKind ≠ some 0 ∧ stepKind ≠ some 1)) : releaseMode mode byte stepKind = none := by
  rcases bad with above | ⟨rfl, rfl⟩ | ⟨rfl, notAny, notFetch⟩
  · obtain ⟨n, rfl⟩ := Nat.exists_eq_add_of_lt above
    rw [show 2 + n + 1 = n + 3 by omega]
    rfl
  · rfl
  · match stepKind with
    | none => rfl
    | some 0 => exact absurd rfl notAny
    | some 1 => exact absurd rfl notFetch
    | some (n + 2) => rfl

theorem exists_releaseMode {mode : Nat} {byte : Option Byte} {stepKind : Option Nat}
    (ok : ¬(2 < mode ∨ (mode = 1 ∧ byte = none) ∨ (mode = 2 ∧ stepKind ≠ some 0 ∧ stepKind ≠ some 1))) :
    ∃ m, releaseMode mode byte stepKind = some m ∧ (m = .proceed ↔ mode = 0) ∧ (m = .step .fetch ↔ mode = 2 ∧ stepKind = some 1) := by
  match mode with
  | 0 => exact ⟨.proceed, rfl, by simp, by simp⟩
  | 1 =>
    match byte with
    | none => exact absurd (.inr (.inl ⟨rfl, rfl⟩)) ok
    | some d => exact ⟨.substitute d, rfl, by simp, by simp⟩
  | 2 =>
    match stepKind with
    | none => exact absurd (.inr (.inr ⟨rfl, by simp⟩)) ok
    | some 0 => exact ⟨.step .any, rfl, by simp, by simp⟩
    | some 1 => exact ⟨.step .fetch, rfl, by simp, by simp⟩
    | some (n + 2) => exact absurd (.inr (.inr ⟨rfl, by simp⟩)) ok
  | n + 3 => exact absurd (.inl (by omega)) ok

theorem exec_release {source mode : Nat} {byte : Option Byte} {stepKind : Option Nat} {s t : State} (taken : s.takes (.release source mode byte stepKind) t)
    {target : ReleaseTarget} {m : ReleaseMode} (named : releaseTarget source = some target) (given : releaseMode mode byte stepKind = some m) :
    exec (.release source mode byte stepKind) s = t.releaseTaken (.release source mode byte stepKind) target m := by
  refine (exec_of_takes rfl taken).trans ?_
  rw [named, given]

/-- The answer of a RELEASE that waits for no cycle (R107). -/
def releaseAnswer (s : State) : Result := .next (s.respond .ok 0x33 (.release s.run.hold (byUrgency s.run.claims) s.run.floor none))

/-- RELEASE past its first checks (R105, R106). -/
theorem exec_release_taken {source mode : Nat} {byte : Option Byte} {stepKind : Option Nat} {s t u : State}
    (taken : s.takes (.release source mode byte stepKind) t) {target : ReleaseTarget} {m : ReleaseMode} (named : releaseTarget source = some target)
    (given : releaseMode mode byte stepKind = some m) (fetch : ¬(m = .step .fetch ∧ t.port.fetchWired = false ∧ t.run.rehearsal = false))
    (holds : ¬(m ≠ .proceed ∧ t.run.hold ≠ .holding)) (found : target.found t.run.claims = true) (removed : t.withClaims (target.remaining t.run.claims) = u) :
    exec (.release source mode byte stepKind) s =
      if t.run.hold = .holding ∧ u.run.anyHolding = false then
        if t.writeActive then .next (t.respond .engineActive 0x33 .empty)
        else if t.cycleMapped then
          if t.injectedHeld then .next ((u.occupy .release).releaseHold m).settle else releaseAnswer (u.releaseHold m).settle
        else .fault .noOverlayPage
      else releaseAnswer u.releaseQuietly.settle := by
  subst removed
  refine (exec_release taken named given).trans ((if_neg fetch).trans ((if_neg holds).trans ((if_neg ?_).trans rfl)))
  exact fun none' => Bool.false_ne_true (none'.symm.trans found)

theorem exec_release_of_bad {source mode : Nat} {byte : Option Byte} {stepKind : Option Nat} {s t : State} (taken : s.takes (.release source mode byte stepKind) t)
    (bad : releaseTarget source = none ∨ releaseMode mode byte stepKind = none) :
    exec (.release source mode byte stepKind) s = .next (t.respond .badValue 0x33 .empty) := by
  refine (exec_of_takes rfl taken).trans ?_
  rcases bad with none' | none'
  · rw [none']
    rfl
  · rw [none']
    cases releaseTarget source <;> rfl

/-! ### How a RELEASE ends a hold -/

theorem releaseQuietly_of_armed {s : State} (hold : s.run.hold = .holdArmed) : s.releaseQuietly = if s.run.anyLive then s else s.setHold .running := by
  rw [State.releaseQuietly]
  cases live : s.run.anyLive <;> simp [hold]

theorem releaseQuietly_of_not {s : State} (hold : s.run.hold ≠ .holdArmed) : s.releaseQuietly = s := if_neg fun h => hold h.1

theorem releaseHold_eq {c : Cycle} {o : HoldOrigin} {s : State} (inFlight : s.port.inFlight = some c) (origin : s.run.origin = some o) :
    s.releaseHold .proceed = (holdEnded o .release (holdAfter s.run.claims) s).performCycle c ∧
    (∀ d, s.releaseHold (.substitute d) = (holdEnded o .release (holdAfter s.run.claims) s).completeCycle { c with substituted := true } d) ∧
    (∀ kind, s.releaseHold (.step kind) =
      (((holdEnded o .release s.run.hold s).enterClaim (stepRaise kind (some c.address))).setHold .holdArmed).performCycle c) := by
  have still : ∀ h, (holdEnded o .release h s).port.inFlight = some c := fun h => (congrArg Port.inFlight (holdEnded_port ..)).trans inFlight
  refine ⟨?_, fun d => ?_, fun kind => ?_⟩
  · rw [State.releaseHold, endHold_afterHold origin]
    exact proceedHeld_of_some (still _)
  · rw [State.releaseHold, endHold_afterHold origin, State.substituteHeld, still]
  · have ends : s.endHold .release = holdEnded o .release s.run.hold s := endHold_of_origin origin _
    rw [State.releaseHold, ends, still]
    exact proceedHeld_of_some (still s.run.hold)

/-- A RELEASE past its first checks, by the hold state that it finds (R106, R107). -/
theorem release_course {result : Result} {t u : State} {m : ReleaseMode} (act : result =
      if t.run.hold = .holding ∧ u.run.anyHolding = false then
        if t.writeActive then .next (t.respond .engineActive 0x33 .empty)
        else if t.cycleMapped then
          if t.injectedHeld then .next ((u.occupy .release).releaseHold m).settle else releaseAnswer (u.releaseHold m).settle
        else .fault .noOverlayPage
      else releaseAnswer u.releaseQuietly.settle) (same : u.run.hold = t.run.hold) :
    (t.run.hold = .holding → u.run.anyHolding = false → t.writeActive = true → result = .next (t.respond .engineActive 0x33 .empty)) ∧
    (t.run.hold = .holding → u.run.anyHolding = true → result = releaseAnswer u.settle) ∧
    (t.run.hold = .holdArmed → result = releaseAnswer (if u.run.anyLive then u else u.setHold .running).settle) ∧
    (t.run.hold = .running ∨ t.run.hold = .resetHeld ∨ t.run.hold = .unpowered → result = releaseAnswer u.settle) ∧
    (t.run.hold = .holding → u.run.anyHolding = false → t.writeActive = false → t.cycleMapped = true →
      ((∀ c, t.port.inFlight = some c → c.injected = false) → result = releaseAnswer (u.releaseHold m).settle) ∧
      (∀ c, t.port.inFlight = some c → c.injected = true → result = .next ((u.occupy .release).releaseHold m).settle)) := by
  rw [act]
  refine ⟨fun hold ends write => ?_, fun hold stays => ?_, fun hold => ?_, fun hold => ?_, fun hold ends quiet mapped => ?_⟩
  · rw [if_pos ⟨hold, ends⟩, if_pos write]
  · rw [if_neg (fun h => Bool.false_ne_true (h.2.symm.trans stays)), releaseQuietly_of_not (fun h => nomatch hold.symm.trans (same.symm.trans h))]
  · rw [if_neg (fun h : t.run.hold = .holding ∧ u.run.anyHolding = false => nomatch hold.symm.trans h.1), releaseQuietly_of_armed (same.trans hold)]
  · have other : t.run.hold ≠ .holding ∧ t.run.hold ≠ .holdArmed := by rcases hold with h | h | h <;> simp [h]
    rw [if_neg (fun h => other.1 h.1), releaseQuietly_of_not (same ▸ other.2)]
  · rw [if_pos ⟨hold, ends⟩, if_neg (Bool.eq_false_iff.1 quiet), if_pos mapped]
    refine ⟨fun targets => if_neg (Bool.eq_false_iff.1 (injectedHeld_eq_false targets)), fun c inFlight injected => if_pos ?_⟩
    simp [State.injectedHeld, inFlight, injected]

/-- Settles O43: the checks in their order, and the hold state that RELEASE finds. -/
theorem releaseRemovesClaims : Obligations.ReleaseRemovesClaims := by
  refine ⟨?_, fun byte stepKind d => ⟨rfl, rfl, rfl, rfl⟩, fun c o s inFlight origin => releaseHold_eq inFlight origin⟩
  intro source mode byte stepKind s t taken reject badField badFetch notHolding left noClaim removed answer
  have named : ¬badField → ∃ target m, releaseTarget source = some target ∧ releaseMode mode byte stepKind = some m ∧
      target.remaining t.run.claims = left ∧ (target.found t.run.claims = false ↔ noClaim) ∧ (m = .proceed ↔ mode = 0) ∧
      (m = .step .fetch ↔ mode = 2 ∧ stepKind = some 1) := by
    intro ok
    obtain ⟨target, named, claims⟩ := exists_releaseTarget (source := source) fun bad => ok (.inl bad)
    obtain ⟨m, given, proceed, fetch⟩ := exists_releaseMode fun bad => ok (.inr bad)
    exact ⟨target, m, named, given, (claims _).1, (claims _).2, proceed, fetch⟩
  refine ⟨fun bad => ?_, fun ok fetch => ?_, fun ok notFetch holds => ?_, fun ok notFetch holds claim => ?_, fun ok notFetch holds claim => ?_⟩
  · rcases bad with source' | mode'
    · exact exec_release_of_bad taken (.inl (releaseTarget_of_bad source'.1 source'.2))
    · exact exec_release_of_bad taken (.inr (releaseMode_of_bad mode'))
  · obtain ⟨target, m, given', given, -, -, -, fetch'⟩ := named ok
    exact (exec_release taken given' given).trans (if_pos ⟨fetch'.2 ⟨fetch.1, fetch.2.1⟩, fetch.2.2⟩)
  · obtain ⟨target, m, given', given, -, -, proceed, fetch'⟩ := named ok
    refine (exec_release taken given' given).trans ((if_neg fun h => notFetch ⟨(fetch'.1 h.1).1, (fetch'.1 h.1).2, h.2⟩).trans ?_)
    exact if_pos ⟨fun h => holds.1 (proceed.1 h), holds.2⟩
  · obtain ⟨target, m, given', given, -, found, proceed, fetch'⟩ := named ok
    refine (exec_release taken given' given).trans ((if_neg fun h => notFetch ⟨(fetch'.1 h.1).1, (fetch'.1 h.1).2, h.2⟩).trans ?_)
    refine (if_neg fun h => holds ⟨fun zero => h.1 (proceed.2 zero), h.2⟩).trans ?_
    exact if_pos (found.2 claim)
  · obtain ⟨target, m, given', given, remaining, found, proceed, fetch'⟩ := named ok
    have course := release_course (exec_release_taken taken given' given (fun h => notFetch ⟨(fetch'.1 h.1).1, (fetch'.1 h.1).2, h.2⟩)
      (fun h => holds ⟨fun zero => h.1 (proceed.2 zero), h.2⟩) (Bool.eq_true_of_not_eq_false fun h => claim (found.1 h))
      (congrArg (fun l => t.withClaims l) remaining)) rfl
    have spelled : answer = releaseAnswer := rfl
    rw [spelled]
    obtain ⟨write, stays, armed, other, ends⟩ := course
    refine ⟨write, stays, armed, other, fun hold none' quiet mapped m' given'' => ?_⟩
    obtain rfl : m = m' := Option.some.inj (given.symm.trans given'')
    exact ends hold none' quiet mapped

/-! ### The abandonment of the cycle in flight -/

theorem dropDecisions_eq (units : Vector WatchUnit 4) : dropDecisions units = units.map (fun u => { u with pendingData := false }) := by
  refine Vector.ext fun i hi => ?_
  rw [Vector.getElem_map]
  interval_cases i <;> rfl

/-- The cycle has been abandoned: its record handed over, its request withdrawn, its pending decisions dropped (R18, R70). -/
def abandoned (c : Cycle) (s : State) : State :=
  { recorded c (recordWith c true 0) s with
    port := { s.port with inFlight := none }
    bus := { s.bus with target := false }
    watch := s.watch.map (fun u => { u with pendingData := false }) }

theorem abandonCycle_of_none {s : State} (h : s.port.inFlight = none) : s.abandonCycle = s := by rw [State.abandonCycle, h]

/-- A cycle that has begun performance stays (R18). -/
theorem abandonCycle_of_begun {c : Cycle} {s : State} (inFlight : s.port.inFlight = some c) (phase : c.phase = .performing) (target : s.bus.target = false) :
    s.abandonCycle = s := by
  rw [State.abandonCycle, inFlight]
  exact if_pos (by simp [State.performanceBegun, phase, target])

theorem abandonCycle_of_waiting {c : Cycle} {s : State} (inFlight : s.port.inFlight = some c) (waits : c.phase ≠ .performing ∨ s.bus.target = true) :
    s.abandonCycle = (abandoned c s).answerInjected c true
      { abandoned := true, byte := none, matched := 0, fired := 0, raised := [], seq := numberOf c (recordWith c true 0) s } := by
  have notBegun : ¬s.performanceBegun c = true := by
    rcases waits with phase | target
    · simp [State.performanceBegun, phase]
    · simp [State.performanceBegun, target]
  have gone : (State.clearCycle { recorded c (recordWith c true 0) s with
      bus := { (recorded c (recordWith c true 0) s).bus with target := false }
      watch := dropDecisions (recorded c (recordWith c true 0) s).watch }) = abandoned c s := by
    simp only [State.clearCycle, recorded_bus, recorded_watch, recorded_port, dropDecisions_eq]
    rfl
  rw [State.abandonCycle, inFlight]
  dsimp only
  rw [if_neg notBegun, recordCycle_eq, record_abandoned, gone]

theorem answerInjected_eq (c : Cycle) (a : Bool) (d : Delivery) (s : State) : s.answerInjected c a d = { s with link := (s.answerInjected c a d).link } := by
  unfold State.answerInjected State.answerInject
  repeat' split
  all_goals rfl

/-- What an abandonment leaves of the state. -/
theorem abandonCycle_aside (s : State) : s.abandonCycle.overlay = s.overlay ∧ s.abandonCycle.run = s.run ∧
    s.abandonCycle.port = { s.port with inFlight := s.abandonCycle.port.inFlight } := by
  have of_same : ∀ {t : State}, t = s → t.overlay = s.overlay ∧ t.run = s.run ∧ t.port = { s.port with inFlight := t.port.inFlight } := by
    rintro t rfl
    exact ⟨rfl, rfl, rfl⟩
  cases inFlight : s.port.inFlight with
  | none => exact of_same (abandonCycle_of_none inFlight)
  | some c =>
    by_cases begun : c.phase = .performing ∧ s.bus.target = false
    · exact of_same (abandonCycle_of_begun inFlight begun.1 begun.2)
    · have waits : c.phase ≠ .performing ∨ s.bus.target = true := by
        by_cases phase : c.phase = .performing
        · exact .inr (Bool.eq_true_of_not_eq_false fun target => begun ⟨phase, target⟩)
        · exact .inl phase
      rw [abandonCycle_of_waiting inFlight waits, answerInjected_eq]
      exact ⟨by rw [show (abandoned c s).overlay = (recorded c (recordWith c true 0) s).overlay from rfl, recorded_traceOnly], recorded_run .., rfl⟩

theorem abandonCycle_inFlight {s : State} (h : ∀ c, s.port.inFlight = some c → c.phase ≠ .performing ∨ s.bus.target = true) :
    s.abandonCycle.port.inFlight = none := by
  cases inFlight : s.port.inFlight with
  | none => rw [abandonCycle_of_none inFlight, inFlight]
  | some c =>
    rw [abandonCycle_of_waiting inFlight (h c inFlight), answerInjected_eq]
    rfl

/-! ### The cutting off -/

/-- Run control without a claim, a hold state later (R101). -/
def cleared (after : HoldState) (s : State) : State := { s with run := { s.run with hold := after, claims := [], rehearsal := false } }

theorem cutOff_of_not {s : State} (hold : s.run.hold ≠ .holding) (cause : EndCause) (after : HoldState) (marker : RecordBody) :
    s.cutOff cause after marker = (cleared after s).abandonCycle.offer marker true s.timeBase := by
  have eq : s.cutOff cause after marker = (cleared after s).abandonCycle.mark marker := by
    unfold State.cutOff
    rw [if_neg hold]
    rfl
  rw [eq, State.mark, (abandonCycle_cycleKeeps _).timeBase]
  rfl

theorem cutOff_of_holding {o : HoldOrigin} {s : State} (hold : s.run.hold = .holding) (origin : s.run.origin = some o) (cause : EndCause) (after : HoldState)
    (marker : RecordBody) : s.cutOff cause after marker =
      (cleared after (holdEnded o cause s.run.hold s)).abandonCycle.offer marker true
        s.timeBase := by
  have eq : s.cutOff cause after marker =
      (cleared after (holdEnded o cause s.run.hold s)).abandonCycle.mark marker := by
    unfold State.cutOff
    rw [if_pos hold, endHold_of_origin origin]
    rfl
  have time : (cleared after (holdEnded o cause s.run.hold s)).timeBase = s.timeBase := holdEnded_timeBase (h := s.run.hold) ..
  rw [eq, State.mark, (abandonCycle_cycleKeeps _).timeBase, time]

/-- The state that a cutting off abandons the cycle of. -/
def released (cause : EndCause) (s : State) : State := if s.run.hold = .holding then s.endHold cause else s

theorem cutOff_eq (cause : EndCause) (after : HoldState) (marker : RecordBody) (s : State) :
    s.cutOff cause after marker = (cleared after (released cause s)).abandonCycle.mark marker := rfl

theorem released_quiet (cause : EndCause) (s : State) : (released cause s).port = s.port ∧ (released cause s).bus = s.bus ∧
    (released cause s).overlay = s.overlay ∧ (released cause s).run = { s.run with
      origin := if s.run.hold = .holding then none else s.run.origin, timer := if s.run.hold = .holding then none else s.run.timer } := by
  unfold released
  split
  · refine ⟨?_, ?_, ?_, endHold_run ..⟩
    all_goals
      unfold State.endHold
      split
      · simp [State.mark]
      · rfl
  · exact ⟨rfl, rfl, rfl, rfl⟩

theorem cutOff_run (cause : EndCause) (after : HoldState) (marker : RecordBody) (s : State) : (s.cutOff cause after marker).run = { s.run with
    hold := after, claims := [], rehearsal := false
    origin := if s.run.hold = .holding then none else s.run.origin, timer := if s.run.hold = .holding then none else s.run.timer } := by
  rw [cutOff_eq, State.mark, offer_run, (abandonCycle_aside _).2.1]
  simp only [cleared, (released_quiet cause s).2.2.2]

theorem cutOff_overlay (cause : EndCause) (after : HoldState) (marker : RecordBody) (s : State) : (s.cutOff cause after marker).overlay = s.overlay := by
  rw [cutOff_eq, State.mark, offer_overlay, (abandonCycle_aside _).1]
  exact (released_quiet cause s).2.2.1

theorem cutOff_port (cause : EndCause) (after : HoldState) (marker : RecordBody) (s : State) :
    (s.cutOff cause after marker).port = { s.port with inFlight := (s.cutOff cause after marker).port.inFlight } := by
  have eq : (s.cutOff cause after marker).port = (cleared after (released cause s)).abandonCycle.port := by rw [cutOff_eq, State.mark, offer_port]
  have same : (cleared after (released cause s)).port = s.port := (released_quiet cause s).1
  rw [eq, (abandonCycle_aside _).2.2, same]

theorem cutOff_inFlight {s : State} (h : ∀ c, s.port.inFlight = some c → c.phase ≠ .performing ∨ s.bus.target = true) (cause : EndCause) (after : HoldState)
    (marker : RecordBody) : (s.cutOff cause after marker).port.inFlight = none := by
  rw [cutOff_eq, State.mark, offer_port]
  refine abandonCycle_inFlight fun c inFlight => ?_
  rw [show (cleared after (released cause s)).port = s.port from (released_quiet cause s).1] at inFlight
  rw [show (cleared after (released cause s)).bus = s.bus from (released_quiet cause s).2.1]
  exact h c inFlight

theorem cutOff_of_empty {s : State} (inFlight : s.port.inFlight = none) (hold : s.run.hold ≠ .holding) (cause : EndCause) (after : HoldState)
    (marker : RecordBody) : (s.cutOff cause after marker).watch = s.watch ∧
      (s.cutOff cause after marker).trace = (s.offer marker true s.timeBase).trace := by
  have cut : s.cutOff cause after marker = (cleared after s).offer marker true s.timeBase := by
    rw [cutOff_of_not hold, abandonCycle_of_none (s := cleared after s) inFlight]
  rw [cut, offer_watch]
  exact ⟨rfl, offer_trace (s := s) (t := cleared after s) rfl ..⟩

/-- The markers and the record of a held cycle that is cut off, in their order (R101). -/
theorem cutOff_trace_of_held {c : Cycle} {o : HoldOrigin} {s : State} (inFlight : s.port.inFlight = some c) (phase : c.phase = .held)
    (noStop : c.stopAfter = false) (hold : s.run.hold = .holding) (origin : s.run.origin = some o) (cause : EndCause) (after : HoldState) (marker : RecordBody) :
    (s.cutOff cause after marker).trace = (((s.offer (.holdEnd o cause) true s.timeBase).offer (.cycle (c.record true)) (c.capture && c.gate) s.timeBase).offer
      marker true s.timeBase).trace := by
  rw [cutOff_of_holding hold origin, record_abandoned]
  refine offer_trace ?_ ..
  have still : (cleared after (holdEnded o cause s.run.hold s)).port.inFlight = some c := (congrArg Port.inFlight (holdEnded_port (h := s.run.hold) ..)).trans inFlight
  rw [abandonCycle_of_waiting still (.inl (by simp [phase])), answerInjected_eq]
  refine (congrArg State.trace (recorded_of_noStop noStop ..)).trans ?_
  have time : (cleared after (holdEnded o cause s.run.hold s)).timeBase = s.timeBase := holdEnded_timeBase (h := s.run.hold) ..
  rw [time]
  exact offer_trace (s := s.offer (.holdEnd o cause) true s.timeBase) (t := cleared after (holdEnded o cause s.run.hold s)) rfl ..

/-! ### RESET TARGET and the hold limit -/

theorem exec_resetTarget {s t : State} (taken : s.takes .resetTarget t) (hold : t.run.hold ≠ .unpowered) :
    exec .resetTarget s = .next ((t.cutOff .benchReset .resetHeld (.targetReset .bench)).settle.respond .ok 0x34 .empty) :=
  (exec_of_takes rfl taken).trans (if_neg hold)

/-- With no hold running, what is taken as time passes touches the engine and the link alone (R109, R172, R186). -/
theorem takeDue_engineOnly {s : State} (hold : s.run.hold ≠ .holding) : s.engineOnly s.takeDue := by
  have none' : s.holdDue = false := by simp [State.holdDue, hold]
  rw [State.takeDue, expireDue_of_not none', dropDue_eq]
  exact pollExpire_engineOnly s

theorem exec_holdLimitExpiry {timer : HoldTimer} {s : State} (given : s.run.timer = some timer) (hold : s.run.hold = .holding) (prst : s.port.prst = false) :
    exec .holdLimitExpiry s = .next (s.expireHold timer).takeDue := by
  have meaning : exec .holdLimitExpiry s = execHoldLimitExpiry s := rfl
  rw [meaning, execHoldLimitExpiry, given]
  exact if_pos ⟨hold, prst⟩

theorem exec_holdLimitExpiry_of_not {s : State} (h : s.run.timer = none ∨ s.run.hold ≠ .holding ∨ s.port.prst = true) : exec .holdLimitExpiry s = .next s := by
  have meaning : exec .holdLimitExpiry s = execHoldLimitExpiry s := rfl
  rw [meaning, execHoldLimitExpiry]
  split
  · next timer given =>
    refine if_neg fun ⟨hold, prst⟩ => ?_
    rcases h with none' | other | held
    · exact nomatch given.symm.trans none'
    · exact other hold
    · exact Bool.false_ne_true (prst.symm.trans held)
  · rfl

theorem passUntil_aside (start : Stamp) (n : Nat) (s : State) :
    (s.passUntil start n).port = s.port ∧ (s.passUntil start n).run = s.run ∧ (s.passUntil start n).bus = s.bus ∧ (s.passUntil start n).trace = s.trace ∧
    (s.passUntil start n).windows = s.windows ∧ (s.passUntil start n).overlay = s.overlay ∧ (s.passUntil start n).probes = s.probes := by
  unfold State.passUntil
  split <;> exact ⟨rfl, rfl, rfl, rfl, rfl, rfl, rfl⟩

/-- The state as the limit is reached: the clock stands no earlier than the limit (log 4). -/
theorem elapsed_of_timeBase {s t : State} (h : t.timeBase = s.timeBase) (start : Stamp) : t.elapsed start = s.elapsed start := by
  simp only [State.elapsed, h]

/-- What the expiry of the hold limit leaves (R101, R109). -/
structure Expired (s : State) (reached : HoldTimer) (u : State) : Prop where
  hold : u.run.hold = .resetHeld
  claims : u.run.claims = []
  rehearsal : u.run.rehearsal = false
  origin : u.run.origin = if s.run.hold = .holding then none else s.run.origin
  timer : u.run.timer = if s.run.hold = .holding then none else s.run.timer
  port : u.port.powered = s.port.powered
  inFlight : (∀ c, s.port.inFlight = some c → c.phase ≠ .performing ∨ s.bus.target = true) → u.port.inFlight = none
  windows : u.windows = s.windows
  overlay : u.overlay = s.overlay
  probes : u.probes = s.probes
  timeBase : u.timeBase = (s.passUntil reached.start (reached.limit * 1000)).timeBase
  trace : u.trace = ((s.passUntil reached.start (reached.limit * 1000)).cutOff .expiry .resetHeld (.targetReset .expiry)).trace

theorem expired_aside (s : State) (timer : HoldTimer) : Expired s timer (s.expireHold timer).takeDue := by
  obtain ⟨port0, run0, bus0, -, windows0, overlay0, probes0⟩ := passUntil_aside timer.start (timer.limit * 1000) s
  have keeps := cutOff_cycleKeeps .expiry .resetHeld (.targetReset .expiry) (s.passUntil timer.start (timer.limit * 1000))
  have run := cutOff_run .expiry .resetHeld (.targetReset .expiry) (s.passUntil timer.start (timer.limit * 1000))
  have port := cutOff_port .expiry .resetHeld (.targetReset .expiry) (s.passUntil timer.start (timer.limit * 1000))
  have overlay := cutOff_overlay .expiry .resetHeld (.targetReset .expiry) (s.passUntil timer.start (timer.limit * 1000))
  have none' := cutOff_inFlight (s := s.passUntil timer.start (timer.limit * 1000)) (cause := .expiry) (after := .resetHeld) (marker := .targetReset .expiry)
  have settled : (s.expireHold timer).run = ((s.passUntil timer.start (timer.limit * 1000)).cutOff .expiry .resetHeld (.targetReset .expiry)).run := settle_run ..
  have hold : (s.expireHold timer).run.hold ≠ .holding := by rw [settled, run]; exact HoldState.noConfusion
  obtain ⟨⟨windows', -, overlay', -, probes', time', -, -⟩, port', run', trace'⟩ := takeDue_engineOnly hold
  have run := (run'.trans settled).trans run
  have port := port'.trans ((settle_port ..).trans port)
  exact {
    hold := by rw [run]
    claims := by rw [run]
    rehearsal := by rw [run]
    origin := by rw [run, run0]
    timer := by rw [run, run0]
    port := by rw [port, port0]
    inFlight := fun waits => by
      rw [port]
      exact none' (by rw [port0, bus0]; exact waits)
    windows := windows'.trans ((settle_windows ..).trans (keeps.windows.trans windows0))
    overlay := overlay'.trans ((settle_overlay ..).trans (overlay.trans overlay0))
    probes := probes'.trans ((settle_probes ..).trans (keeps.probes.trans probes0))
    timeBase := time'.trans ((settle_timeBase ..).trans keeps.timeBase)
    trace := trace'.trans (settle_trace ..) }

theorem expired_noticed (s : State) (timer : HoldTimer) : (s.expireHold timer).takeDue.noticed .holdExpired = true :=
  noticed_takeDue ((linkKept_settle _).notices _ (noticed_latch_self ..))

theorem expired_trace {c : Cycle} {o : HoldOrigin} {s : State} {timer : HoldTimer} (inFlight : s.port.inFlight = some c) (phase : c.phase = .held)
    (noStop : c.stopAfter = false) (hold : s.run.hold = .holding) (origin : s.run.origin = some o) :
    ((s.passUntil timer.start (timer.limit * 1000)).cutOff .expiry .resetHeld (.targetReset .expiry)).trace =
      (((s.offer (.holdEnd o .expiry) true (s.passUntil timer.start (timer.limit * 1000)).timeBase).offer (.cycle (c.record true)) (c.capture && c.gate)
        (s.passUntil timer.start (timer.limit * 1000)).timeBase).offer (.targetReset .expiry) true
          (s.passUntil timer.start (timer.limit * 1000)).timeBase).trace := by
  obtain ⟨port0, run0, -, trace0, -⟩ := passUntil_aside timer.start (timer.limit * 1000) s
  have cut := cutOff_trace_of_held (s := s.passUntil timer.start (timer.limit * 1000)) (by rw [port0]; exact inFlight) phase noStop
    (by rw [run0]; exact hold) (by rw [run0]; exact origin) .expiry .resetHeld (.targetReset .expiry)
  exact cut.trans (offer_trace (offer_trace (offer_trace trace0 ..) ..) ..)

/-- Settles O44: the abandonment, the cutting off, and the two rows that reset the target. -/
theorem targetResetCutsOff : Obligations.TargetResetCutsOff := by
  refine ⟨fun s => ⟨abandonCycle_of_none, fun c inFlight => ⟨abandonCycle_of_begun inFlight, fun waits => ?_⟩⟩,
    fun cause after marker s => ⟨fun hold => cutOff_of_not hold .., fun o hold origin => cutOff_of_holding hold origin ..⟩,
    fun s t taken => ⟨fun hold => (exec_of_takes rfl taken).trans (if_pos hold), fun hold =>
      ⟨_, exec_resetTarget taken hold, rfl, ?_, rfl, ?_⟩⟩,
    fun s => ⟨fun timer given hold prst => ⟨⟨s.passUntil timer.start (timer.limit * 1000), passUntil_eq .., elapsed_passUntil .., exec_holdLimitExpiry given hold prst⟩,
      _, exec_holdLimitExpiry given hold prst, ?_⟩, exec_holdLimitExpiry_of_not⟩⟩
  · have cut := abandonCycle_of_waiting inFlight waits
    have run : (abandoned c s).run = s.run := recorded_run ..
    have activity : (abandoned c s).link.activity = s.link.activity := recorded_activity ..
    refine ⟨fun target => cut.trans (answerInjected_of_target target ..), fun injected => ⟨fun inject => ?_, fun release => ?_, fun floor => ?_,
      fun inject release floor => ?_⟩⟩
    · rw [cut, answerInjected_of_inject injected (activity.trans inject), run]
      rfl
    · rw [cut, answerInjected_of_release injected (activity.trans release), run]
      rfl
    · rw [cut, answerInjected_of_floor injected (activity.trans floor)]
      rfl
    · rw [cut, answerInjected_of_other (by rwa [activity]) (by rwa [activity]) (by rwa [activity])]
      rfl
  · rw [targetReset_answered _ _ _ (by rw [cutOff_port]; exact (prst_of_takes taken).1), targetReset_eq_powered (.inl (by rw [cutOff_run])), cutOff_port]
  · simp only [State.respond_run, State.respond_windows, State.respond_overlay, State.respond_probes, State.respond_timeBase, State.respond_port, State.respond_trace,
      settle_run, settle_windows, settle_overlay, settle_probes, settle_timeBase, settle_port, settle_trace, cutOff_run, cutOff_overlay]
    have keeps := cutOff_cycleKeeps .benchReset .resetHeld (.targetReset .bench) t
    refine ⟨trivial, trivial, trivial, trivial, fun holding => ⟨if_pos holding, if_pos holding⟩, keeps.windows, trivial, keeps.probes, keeps.timeBase,
      fun c inFlight waits => cutOff_inFlight (fun k other => ?_) .., fun empty other => (cutOff_of_empty empty other ..).2,
      fun c o inFlight phase noStop holding origin => cutOff_trace_of_held inFlight phase noStop holding origin ..⟩
    obtain rfl : c = k := Option.some.inj (inFlight.symm.trans other)
    exact waits
  · have aside := expired_aside s timer
    refine ⟨?_, ?_, expired_noticed s timer, aside.hold, aside.claims, aside.rehearsal, ?_, ?_, aside.windows, aside.overlay, aside.probes, fun c o inFlight phase noStop origin => ?_⟩
    · rw [targetReset_eq_powered (.inl aside.hold), aside.port]
    · rw [elapsed_of_timeBase aside.timeBase]
      exact elapsed_passUntil ..
    · rw [aside.origin, if_pos hold]
    · rw [aside.timer, if_pos hold]
    · refine ⟨aside.inFlight fun k other => .inl ?_, ?_⟩
      · obtain rfl : c = k := Option.some.inj (inFlight.symm.trans other)
        simp [phase]
      · rw [aside.trace, aside.timeBase]
        exact expired_trace inFlight phase noStop hold origin

end Sys2Proof.ReleaseRows
end

section
/-! PROOFS. Board reset, the supply as the monitor judges it, and SET HOLD OPTIONS (R20, R21, R102, R112 to R114). -/

namespace Sys2Proof.SupplyRows

open Sys2Proof Sys2Proof.Machine Sys2Proof.Resets Sys2Proof.BenchLink Sys2Proof.RunSound Sys2Proof.LinkKeeping Sys2Proof.ClaimRows Sys2Proof.CycleRows
  Sys2Proof.ReleaseRows

/-! ### Board reset -/

theorem resetSeen_iff (s : State) :
    s.resetSeen = true ↔ s.port.prst = false ∧ s.port.powered = true ∧ s.port.resetSense = true ∧ s.netAsserted = false := by
  simp only [State.resetSeen, Bool.and_eq_true, Bool.not_eq_true', and_assoc]

theorem exec_boardResetSeen {s : State} (seen : s.resetSeen = true) : exec .boardResetSeen s = .next (s.setBoardReset true).boardResetTaken.settle := if_pos seen

theorem exec_boardResetSeen_of_not {s : State} (unseen : ¬s.resetSeen = true) : exec .boardResetSeen s = .next (s.setBoardReset true) := if_neg unseen

theorem exec_boardResetReleased {s : State} (prst : s.port.prst = false) : exec .boardResetReleased s = .next (s.setBoardReset false).senseNet :=
  congrArg Host.Outcome.next (if_neg (Bool.eq_false_iff.1 prst))

theorem exec_boardResetReleased_of_prst {s : State} (prst : s.port.prst = true) : exec .boardResetReleased s = .next (s.setBoardReset false) :=
  congrArg Host.Outcome.next (if_pos prst)

/-- Where the net was released the power-on survey is over. -/
theorem survey_of_released {s : State} (powered : s.port.powered = true) (net : s.netAsserted = false) : s.overlay.survey ≠ .powerOn := by
  intro survey
  have asserted : s.netAsserted = true := (netAsserted_iff s).2 (.inr ((targetReset_iff s).2 ⟨powered, .inr (.inr (.inl survey))⟩))
  exact Bool.false_ne_true (net.symm.trans asserted)

/-- The target reset output after a cutting off, the part out of reset and no survey on its way. -/
theorem targetReset_cut {s : State} (prst : s.port.prst = false) (powered : s.port.powered = true) (survey : s.overlay.survey ≠ .powerOn) (cause : EndCause)
    (after : HoldState) (marker : RecordBody) : (s.cutOff cause after marker).targetReset = decide (after = .resetHeld) := by
  have run := cutOff_run cause after marker s
  have port := cutOff_port cause after marker s
  by_cases held : after = .resetHeld
  · rw [targetReset_eq_powered (.inl (by rw [run]; exact held)), port]
    simp only [held, decide_true, powered]
  · rw [targetReset_eq_false (by rw [run]; exact held) (by rw [run]) (by rw [cutOff_overlay]; exact survey) (by rw [port]; exact prst)]
    exact (decide_eq_false held).symm

/-- Settles O48: a reset that is seen cuts off; any other change moves the level. -/
theorem boardResetSeenAndReleased : Obligations.BoardResetSeenAndReleased := by
  refine fun s => ⟨fun prst powered sense net => ⟨_, exec_boardResetSeen ((resetSeen_iff s).2 ⟨prst, powered, sense, net⟩), rfl, ?_⟩, fun h => ?_, fun h => ?_,
    fun prst powered released => ?_⟩
  · have run := cutOff_run .boardReset (if s.writeActive then .resetHeld else .running) (.targetReset .board) (s.setBoardReset true)
    have port := cutOff_port .boardReset (if s.writeActive then .resetHeld else .running) (.targetReset .board) (s.setBoardReset true)
    have overlay := cutOff_overlay .boardReset (if s.writeActive then .resetHeld else .running) (.targetReset .board) (s.setBoardReset true)
    have keeps := cutOff_cycleKeeps .boardReset (if s.writeActive then .resetHeld else .running) (.targetReset .board) (s.setBoardReset true)
    have store : ∀ b sent stamp, ((s.setBoardReset true).offer b sent stamp).trace = (s.offer b sent stamp).trace := offer_trace rfl
    have reset := targetReset_cut (s := s.setBoardReset true) prst powered (survey_of_released (s := s) powered net) .boardReset
      (if s.writeActive then .resetHeld else .running) (.targetReset .board)
    have unfolded : (s.setBoardReset true).boardResetTaken =
      ((s.setBoardReset true).cutOff .boardReset (if s.writeActive then .resetHeld else .running) (.targetReset .board)).latch .targetReset := rfl
    rw [unfolded]
    simp only [settle_run, settle_port, settle_windows, settle_floatByte, settle_overlay, settle_probes, settle_timeBase, settle_pending, settle_watch, settle_trace,
      State.latch_run, State.latch_port, State.latch_windows, State.latch_floatByte, State.latch_overlay, State.latch_probes, State.latch_timeBase,
      State.latch_pending, State.latch_watch, State.latch_trace]
    refine ⟨?_, by rw [port]; rfl, (linkKept_settle _).notices _ (noticed_latch_self ..), by rw [run], by rw [run], by rw [run], by rw [run]; rfl, fun holding => ?_,
      keeps.windows, keeps.floatByte, overlay, keeps.probes, keeps.timeBase, keeps.pending, fun c inFlight waits => ?_, fun empty other => ?_,
      fun c o inFlight phase noStop holding origin => ?_⟩
    · have settled : ∀ u : State, u.port.prst = false → (State.settle (u.latch .targetReset)).targetReset = u.targetReset := by
        intro u prst'
        simp [State.targetReset, prst']
      rw [settled _ (by rw [port]; exact prst), reset]
      cases s.writeActive <;> rfl
    · rw [run]
      exact ⟨if_pos holding, if_pos holding⟩
    · refine cutOff_inFlight (s := s.setBoardReset true) (fun k other => ?_) ..
      obtain rfl : c = k := Option.some.inj (inFlight.symm.trans other)
      exact waits
    · obtain ⟨watch, trace⟩ := cutOff_of_empty (s := s.setBoardReset true) empty other .boardReset (if s.writeActive then .resetHeld else .running) (.targetReset .board)
      exact ⟨watch, trace.trans (store ..)⟩
    · exact (cutOff_trace_of_held (s := s.setBoardReset true) inFlight phase noStop holding origin ..).trans
        (offer_trace (offer_trace (store ..) ..) ..)
  · refine exec_boardResetSeen_of_not fun seen => ?_
    obtain ⟨prst, powered, sense, net⟩ := (resetSeen_iff s).1 seen
    rcases h with h | h | h | h
    · exact Bool.false_ne_true (prst.symm.trans h)
    · exact Bool.false_ne_true (h.symm.trans powered)
    · exact Bool.false_ne_true (h.symm.trans sense)
    · exact Bool.false_ne_true (net.symm.trans h)
  · rcases h with prst | absent | asserted
    · exact exec_boardResetReleased_of_prst prst
    · by_cases prst : s.port.prst = true
      · exact exec_boardResetReleased_of_prst prst
      · rw [exec_boardResetReleased (Bool.eq_false_of_not_eq_true prst), senseNet_of_not (s := s.setBoardReset false) (.inl absent)]
        rfl
    · by_cases prst : s.port.prst = true
      · exact exec_boardResetReleased_of_prst prst
      · rw [exec_boardResetReleased (Bool.eq_false_of_not_eq_true prst), senseNet_of_not (s := s.setBoardReset false) (.inr ((netAsserted_iff _).2 (.inr asserted)))]
        rfl
  · rw [exec_boardResetReleased prst, senseNet_of_released (s := s.setBoardReset false) powered (Bool.or_eq_false_iff.2 ⟨rfl, released⟩)]
    rfl

/-! ### The supply as the monitor judges it -/

/-- The state as the loss of the supply has cut off the target (R113). -/
def cutAt (s : State) : State := State.cutOff .power .unpowered (.power true) { s with port := { s.port with powered := false } }

theorem engineBusLost_engineOnly (s : State) : s.engineOnly s.engineBusLost := engineOnly_of s ..

/-- What the loss does to the transfer, the engine and the lanes once the target is cut off (R142, R146, R150, R182). -/
def powerLost (u : State) : State :=
  { ((u.latch .power).cutTransfer TransferByte.boardBound).engineBusLost.jobPowerLost with
    lanes := ((u.latch .power).cutTransfer TransferByte.boardBound).engineBusLost.jobPowerLost.lanes.map LaneRecord.owe }

theorem powerLost_engineOnly (u : State) : u.engineOnly (powerLost u) :=
  engineOnly_trans (latch_engineOnly .power u) (engineOnly_trans (cutTransfer_engineOnly ..) (engineOnly_trans (engineBusLost_engineOnly _)
    (engineOnly_trans (jobPowerLost_engineOnly _) (engineOnly_of _ ..))))

theorem supplyLost_eq (s : State) : s.supplyLost = powerLost (cutAt s) := rfl

theorem supplyLost_engineOnly (s : State) : (cutAt s).engineOnly s.supplyLost := by
  rw [supplyLost_eq]
  exact powerLost_engineOnly _

/-- What no judgement of the supply and of the wiring changes of the options and the pins (R21, R102). -/
structure OptionsKept (s t : State) : Prop where
  port : t.port = { s.port with inFlight := t.port.inFlight, powered := t.port.powered, resetSense := t.port.resetSense }
  holdLimit : t.run.holdLimit = s.run.holdLimit
  powerUpHold : t.run.powerUpHold = s.run.powerUpHold
  threshold : t.run.threshold = s.run.threshold

theorem OptionsKept.trans {s t u : State} (h : OptionsKept s t) (k : OptionsKept t u) : OptionsKept s u where
  port := by
    have port := k.port
    rw [h.port] at port
    exact port
  holdLimit := k.holdLimit.trans h.holdLimit
  powerUpHold := k.powerUpHold.trans h.powerUpHold
  threshold := k.threshold.trans h.threshold

theorem OptionsKept.waitWired {s t : State} (h : OptionsKept s t) : t.port.waitWired = s.port.waitWired := by rw [h.port]

theorem optionsKept_refl (s : State) : OptionsKept s s := ⟨rfl, rfl, rfl, rfl⟩

theorem optionsKept_settle {s t : State} (h : OptionsKept s t) : OptionsKept s t.settle :=
  h.trans ⟨by rw [settle_port], by rw [settle_run], by rw [settle_run], by rw [settle_run]⟩

theorem optionsKept_supplyLost (s : State) : OptionsKept s s.supplyLost := by
  obtain ⟨-, port, run, -⟩ := supplyLost_engineOnly s
  have cutRun := cutOff_run .power .unpowered (.power true) { s with port := { s.port with powered := false } }
  have cutPort := cutOff_port .power .unpowered (.power true) { s with port := { s.port with powered := false } }
  have run := run.trans cutRun
  have port := port.trans cutPort
  exact ⟨by rw [port], by rw [run], by rw [run], by rw [run]⟩

theorem supplyLost_powered (s : State) : s.supplyLost.port.powered = false := by
  have cutPort := cutOff_port .power .unpowered (.power true) { s with port := { s.port with powered := false } }
  rw [((supplyLost_engineOnly s).2.1).trans cutPort]

theorem armOrMiss_options (s : State) : s.armOrMiss.run.holdLimit = s.run.holdLimit ∧ s.armOrMiss.run.powerUpHold = s.run.powerUpHold ∧
    s.armOrMiss.run.threshold = s.run.threshold := by
  unfold State.armOrMiss
  split <;> exact ⟨rfl, rfl, rfl⟩

theorem takeUpClaims_options (s : State) : s.takeUpClaims.run.holdLimit = s.run.holdLimit ∧ s.takeUpClaims.run.powerUpHold = s.run.powerUpHold ∧
    s.takeUpClaims.run.threshold = s.run.threshold := by
  unfold State.takeUpClaims
  dsimp only
  split
  · exact armOrMiss_options _
  · exact ⟨rfl, rfl, rfl⟩

/-- The state as the supply has returned and the claims are taken up (R114). -/
def returnedTo (s : State) : State :=
  if s.run.powerUpHold then State.setHold .resetHeld { s with port := { s.port with powered := true, resetSense := false } }
  else State.takeUpClaims { s with port := { s.port with powered := true, resetSense := false } }

theorem supplyReturned_eq (s : State) : s.supplyReturned = ((returnedTo s).mark (.power false)).latch .power := rfl

theorem returnedTo_port (s : State) : (returnedTo s).port = { s.port with powered := true, resetSense := false } := by
  unfold returnedTo
  split
  · rfl
  · exact (takeUpClaims_aside _).1

theorem returnedTo_options (s : State) : (returnedTo s).run.holdLimit = s.run.holdLimit ∧ (returnedTo s).run.powerUpHold = s.run.powerUpHold ∧
    (returnedTo s).run.threshold = s.run.threshold := by
  unfold returnedTo
  split
  · exact ⟨rfl, rfl, rfl⟩
  · exact takeUpClaims_options _

theorem supplyReturned_port (s : State) : s.supplyReturned.port = { s.port with powered := true, resetSense := false } :=
  (offer_port ..).trans (returnedTo_port s)

theorem optionsKept_supplyReturned (s : State) : OptionsKept s s.supplyReturned := by
  have run : s.supplyReturned.run = (returnedTo s).run := offer_run ..
  obtain ⟨holdLimit, powerUpHold, threshold⟩ := returnedTo_options s
  exact ⟨by rw [supplyReturned_port], by rw [run]; exact holdLimit, by rw [run]; exact powerUpHold, by rw [run]; exact threshold⟩

theorem supervise_of_lost {s : State} (powered : s.port.powered = true) (below : s.port.supply < Config.lossLevel s.run.threshold) :
    s.supervise = s.supplyLost.settle := by
  rw [State.supervise, if_pos powered, if_pos below]

theorem supervise_of_present {s : State} (powered : s.port.powered = true) (above : ¬s.port.supply < Config.lossLevel s.run.threshold) : s.supervise = s := by
  rw [State.supervise, if_pos powered, if_neg above]

theorem supervise_of_returned {s : State} (absent : s.port.powered = false) (above : Config.returnLevel s.run.threshold ≤ s.port.supply) :
    s.supervise = s.supplyReturned.settle := by
  rw [State.supervise, if_neg (Bool.eq_false_iff.1 absent), if_pos above]

theorem supervise_of_absent {s : State} (absent : s.port.powered = false) (below : ¬Config.returnLevel s.run.threshold ≤ s.port.supply) : s.supervise = s := by
  rw [State.supervise, if_neg (Bool.eq_false_iff.1 absent), if_neg below]

/-- The monitor's judgement keeps the options, and leaves the supply status by the level (R21). -/
theorem supervise_spec (s : State) : OptionsKept s s.supervise ∧ (s.supervise.port.powered = true ↔
    if s.port.powered = true then Config.lossLevel s.run.threshold ≤ s.port.supply else Config.returnLevel s.run.threshold ≤ s.port.supply) := by
  cases powered : s.port.powered with
  | true =>
    rw [if_pos rfl]
    by_cases below : s.port.supply < Config.lossLevel s.run.threshold
    · rw [supervise_of_lost powered below, settle_port, supplyLost_powered]
      exact ⟨optionsKept_settle (optionsKept_supplyLost s), iff_of_false Bool.false_ne_true (Nat.not_le.2 below)⟩
    · rw [supervise_of_present powered below]
      exact ⟨optionsKept_refl s, iff_of_true powered (Nat.not_lt.1 below)⟩
  | false =>
    rw [if_neg Bool.false_ne_true]
    by_cases above : Config.returnLevel s.run.threshold ≤ s.port.supply
    · rw [supervise_of_returned powered above, settle_port, supplyReturned_port]
      exact ⟨optionsKept_settle (optionsKept_supplyReturned s), iff_of_true rfl above⟩
    · rw [supervise_of_absent powered above]
      exact ⟨optionsKept_refl s, iff_of_false (Bool.eq_false_iff.1 powered) above⟩

/-- A row that tells the level at which the supply already stands has it judged anew. -/
theorem exec_supplyLost_same {s : State} (prst : s.port.prst = false) : exec (.supplyLost s.port.supply) s = .next s.supervise :=
  congrArg Host.Outcome.next (if_neg (Bool.eq_false_iff.1 prst))

/-! ### SET HOLD OPTIONS -/

theorem fetchStepWaits_iff (r : RunControl) : r.fetchStepWaits = true ↔ ∃ k ∈ r.claims, k.step = some { kind := .fetch, satisfied := false } := by
  have step : ∀ o : Option StepPart, o.any (fun p => !p.satisfied && decide (p.kind = .fetch)) = true ↔ o = some { kind := .fetch, satisfied := false } := by
    rintro (_ | ⟨kind, satisfied⟩)
    · simp
    · cases kind <;> cases satisfied <;> simp
  simp only [RunControl.fetchStepWaits, List.any_eq_true, step]

theorem optionsBarred_iff (f : HoldFields) (s : State) :
    s.optionsBarred f = true ↔ (s.run.hold = .holding ∧ f.waitWired ≠ s.port.waitWired) ∨
      (s.port.fetchWired = true ∧ f.fetchWired = false ∧ s.run.rehearsal = false ∧ ∃ k ∈ s.run.claims, k.step = some { kind := .fetch, satisfied := false }) := by
  rw [← fetchStepWaits_iff]
  simp only [State.optionsBarred, Bool.or_eq_true, Bool.and_eq_true, decide_eq_true_eq, bne_iff_ne, Bool.not_eq_true']
  tauto

theorem exec_setHoldOptions_barred {f : HoldFields} {s t : State} (taken : s.takes (.setHoldOptions f) t) {threshold : Fin 4} (code : f.threshold = threshold.val)
    (limit : f.holdLimit ≤ 60000) (barred : t.optionsBarred f = true) : exec (.setHoldOptions f) s = .next (t.respond .wrongState 0x30 .empty) :=
  have inRange : f.threshold < 4 ∧ f.holdLimit ≤ 60000 := ⟨code ▸ threshold.isLt, limit⟩
  by
    refine (exec_of_takes rfl taken).trans ?_
    rw [dif_pos inRange]
    exact if_pos barred

/-- The options are replaced, and what changed is judged anew (R102). -/
theorem exec_setHoldOptions {f : HoldFields} {s t : State} (taken : s.takes (.setHoldOptions f) t) {threshold : Fin 4} (code : f.threshold = threshold.val)
    (limit : f.holdLimit ≤ 60000) (free : ¬t.optionsBarred f = true) {wiring changed : Bool} (wires : (f.waitWired != t.port.waitWired) = wiring)
    (changes : decide (threshold ≠ t.run.threshold) = changed) {u : State} (result : (t.setOptions f threshold).optionsTaken wiring changed = u) :
    exec (.setHoldOptions f) s = .next (u.settle.respond .ok 0x30 .empty) := by
  subst result
  have same : decide (f.threshold ≠ t.run.threshold.val) = changed := by
    rw [← changes, code]
    exact decide_eq_decide.2 (not_congr (Fin.ext_iff).symm)
  have named : ∀ h : f.threshold < 4, (⟨f.threshold, h⟩ : Fin 4) = threshold := fun h => Fin.ext code
  have inRange : f.threshold < 4 ∧ f.holdLimit ≤ 60000 := ⟨code ▸ threshold.isLt, limit⟩
  refine (exec_of_takes rfl taken).trans ?_
  rw [dif_pos inRange, if_neg free, named, same, wires]
  rfl

theorem rewired_of_rehearsal {s : State} (h : s.run.rehearsal = true) : s.rewired = s := if_pos h

theorem rewired_of_wired {s : State} (rehearsal : s.run.rehearsal = false) (wired : s.port.waitWired = true) :
    s.rewired = if s.run.hold = .running ∧ s.run.anyLive = true then s.setHold .holdArmed else s := by
  rw [State.rewired, if_neg (Bool.eq_false_iff.1 rehearsal), if_pos wired]

theorem rewired_of_unwired {s : State} (rehearsal : s.run.rehearsal = false) (unwired : s.port.waitWired = false) :
    s.rewired = if s.run.hold = .holdArmed then (s.setHold .running).latch .holdMissed else s := by
  rw [State.rewired, if_neg (Bool.eq_false_iff.1 rehearsal), if_neg (Bool.eq_false_iff.1 unwired)]

theorem optionsKept_rewired (s : State) : OptionsKept s s.rewired := by
  unfold State.rewired
  repeat' split
  all_goals exact ⟨rfl, rfl, rfl, rfl⟩

theorem rewired_powered (s : State) : s.rewired.port = s.port := by
  unfold State.rewired
  repeat' split
  all_goals rfl

theorem rewired_threshold (s : State) : s.rewired.run.threshold = s.run.threshold := (optionsKept_rewired s).threshold

/-- Run control's answer to a changed wiring, the wiring being this (R102). -/
def rewiredTo (wired : Bool) (s : State) : State :=
  if s.run.rehearsal = true then s
  else if wired = true then (if s.run.hold = .running ∧ s.run.anyLive = true then s.setHold .holdArmed else s)
  else if s.run.hold = .holdArmed then (s.setHold .running).latch .holdMissed else s

theorem rewired_eq {wired : Bool} {s : State} (h : s.port.waitWired = wired) : s.rewired = rewiredTo wired s := by
  rw [← h]
  rfl

/-- Where the wiring and the threshold index both change, the one is judged before the other (log 14). -/
theorem optionsTaken_both {s : State} (prst : s.port.prst = false) :
    ∃ v w, exec (.supplyLost s.port.supply) (rewiredTo s.port.waitWired s.useFree) = .next v ∧ exec (.supplyLost s.port.supply) s.useFree = .next w ∧
      (s.optionsTaken true true = v ∨ s.optionsTaken true true = rewiredTo s.port.waitWired w) := by
  have first : s.useFree.rewired = rewiredTo s.port.waitWired s.useFree := rewired_eq rfl
  have second : s.useFree.supervise.rewired = rewiredTo s.port.waitWired s.useFree.supervise := rewired_eq (supervise_spec s.useFree).1.waitWired
  have port : s.useFree.rewired.port = s.port := rewired_powered _
  have row := exec_supplyLost_same (s := s.useFree.rewired) (by rw [port]; exact prst)
  rw [port] at row
  refine ⟨s.useFree.rewired.supervise, s.useFree.supervise, first ▸ row, exec_supplyLost_same (s := s.useFree) prst, ?_⟩
  rw [← second]
  unfold State.optionsTaken
  dsimp only
  split
  · exact .inl rfl
  · exact .inr rfl

/-- What follows a change of the threshold index: the options stay, and the supply status is that of the level (R21). -/
theorem optionsTaken_spec (wiring : Bool) (s : State) : OptionsKept s (s.optionsTaken wiring true) ∧ ((s.optionsTaken wiring true).port.powered = true ↔
    if s.port.powered = true then Config.lossLevel s.run.threshold ≤ s.port.supply else Config.returnLevel s.run.threshold ≤ s.port.supply) := by
  cases wiring with
  | false => exact supervise_spec s
  | true =>
    have drawn : OptionsKept s s.useFree := ⟨rfl, rfl, rfl, rfl⟩
    unfold State.optionsTaken
    dsimp only
    split
    · obtain ⟨kept, powered⟩ := supervise_spec s.useFree.rewired
      rw [rewired_powered, rewired_threshold] at powered
      exact ⟨(drawn.trans (optionsKept_rewired _)).trans kept, powered⟩
    · obtain ⟨kept, powered⟩ := supervise_spec s.useFree
      exact ⟨(drawn.trans kept).trans (optionsKept_rewired _), by rw [rewired_powered]; exact powered⟩

/-- Settles O40: the two refusals, then what changed of the wiring and of the threshold index. -/
theorem holdOptionsReplaced : Obligations.HoldOptionsReplaced := by
  refine fun f s t taken => ⟨fun bad => (exec_of_takes rfl taken).trans (dif_neg (by omega)), fun threshold code limit =>
    ⟨fun isBarred => exec_setHoldOptions_barred taken code limit ((optionsBarred_iff f t).2 isBarred), fun free same => ?_, fun free differs => ?_⟩⟩
  · have unbarred := mt (optionsBarred_iff f t).1 free
    have unchanged : decide (threshold ≠ t.run.threshold) = false := decide_eq_false (not_not.2 same)
    refine ⟨fun still => ?_, fun unwired wired rehearsal => ?_, fun wired unwired rehearsal => ?_⟩
    · by_cases wires : f.waitWired = t.port.waitWired
      · exact exec_setHoldOptions taken code limit unbarred (wiring := false) (by simp [wires]) unchanged (u := t.setOptions f threshold) rfl
      · exact exec_setHoldOptions taken code limit unbarred (wiring := true) (bne_iff_ne.2 wires) unchanged (u := t.setOptions f threshold)
          (rewired_of_rehearsal (s := t.setOptions f threshold) (still.resolve_left wires))
    · exact exec_setHoldOptions taken code limit unbarred (wiring := true) (by simp [unwired, wired]) unchanged
        (rewired_of_unwired (s := t.setOptions f threshold) rehearsal unwired)
    · exact exec_setHoldOptions taken code limit unbarred (wiring := true) (by simp [unwired, wired]) unchanged
        (rewired_of_wired (s := t.setOptions f threshold) rehearsal wired)
  · have unbarred := mt (optionsBarred_iff f t).1 free
    have changed : decide (threshold ≠ t.run.threshold) = true := decide_eq_true differs
    have prst : t.port.prst = false := (prst_of_takes taken).1
    refine ⟨fun wires => ?_, fun wires => ?_, ?_⟩
    · exact ⟨_, exec_supplyLost_same (s := t.setOptions f threshold) prst,
        exec_setHoldOptions taken code limit unbarred (wiring := false) (by simp [wires]) changed rfl⟩
    · obtain ⟨v, w, first, second, order⟩ := optionsTaken_both (s := t.setOptions f threshold) prst
      have act := fun u => exec_setHoldOptions taken code limit unbarred (wiring := true) (bne_iff_ne.2 wires) changed (u := u)
      exact ⟨v, w, first, second, order.imp (act v) (act (rewiredTo (t.setOptions f threshold).port.waitWired w))⟩
    · have act := exec_setHoldOptions taken code limit unbarred rfl changed rfl
      obtain ⟨kept, powered⟩ := optionsTaken_spec (f.waitWired != t.port.waitWired) (t.setOptions f threshold)
      refine ⟨_, act, rfl, ?_⟩
      simp only [State.respond_port, State.respond_run, settle_port, settle_run, kept.holdLimit, kept.powerUpHold, kept.threshold]
      have port := kept.port
      exact ⟨by rw [port]; rfl, by rw [port]; rfl, by rw [port]; rfl, rfl, rfl, rfl, powered⟩

end Sys2Proof.SupplyRows
end

section
/-! PROOFS. Presentation, the hold decision, and the beginning of a hold: cycles that no watch unit tests (R6, R7, R32, R98 to R100). -/

namespace Sys2Proof.PresentRows

open Sys2Proof Sys2Proof.Machine Sys2Proof.Resets Sys2Proof.BenchLink Sys2Proof.RunSound Sys2Proof.LinkKeeping Sys2Proof.WindowRows Sys2Proof.WatchRows
  Sys2Proof.SlotRows Sys2Proof.ClaimRows Sys2Proof.CycleRows Sys2Proof.ReleaseRows

/-! ### Presentation -/

/-- The state as contention has been noticed (R3). -/
def seen (c : Cycle) (s : State) : State := if c.contention then s.latch .contention else s

theorem seen_aside (c : Cycle) (s : State) : (seen c s).port = s.port ∧ (seen c s).run = s.run ∧ (seen c s).watch = s.watch ∧ (seen c s).bus = s.bus ∧
    (seen c s).overlay = s.overlay ∧ (seen c s).windows = s.windows ∧ (seen c s).trace = s.trace ∧ (seen c s).timeBase = s.timeBase ∧
    (seen c s).floatByte = s.floatByte ∧ s.sameTables (seen c s) := by
  unfold seen
  split <;> exact ⟨rfl, rfl, rfl, rfl, rfl, rfl, rfl, rfl, rfl, rfl, rfl, rfl, rfl, rfl, rfl, rfl, rfl⟩

theorem evaluateUnit_of_quiet {before : Vector WatchUnit 4} {i : Fin 4} (h : before[i].matching = false) (p : Cycle × State) : evaluateUnit before p i = p := by
  unfold evaluateUnit
  rw [verdict_of_not_matching h]

/-- With no unit matching, watch evaluation does nothing (R65, R69). -/
theorem watchEvaluate_of_quiet {s : State} (quiet : ∀ i : Fin 4, s.watch[i].matching = false) (c : Cycle) : watchEvaluate c s = (c, s) := by
  have units : ∀ l : List (Fin 4), l.foldl (evaluateUnit s.watch) (c, s) = (c, s) := by
    intro l
    induction l with
    | nil => rfl
    | cons i l ih => rw [List.foldl_cons, evaluateUnit_of_quiet (quiet i), ih]
  exact units [0, 1, 2, 3]

theorem guardWrite_of_not {c : Cycle} (h : ¬(c.route = .guard ∧ c.isWrite = true)) (level : Option Nat) (s : State) : guardWrite level c s = (c, s) := if_neg h

theorem guardWrite_of_noLevel {c : Cycle} (route : c.route = .guard) (write : c.kind = .write) (s : State) : guardWrite none c s = (c, s.latch .guard) :=
  if_pos ⟨route, (isWrite_iff c).2 write⟩

theorem guardWrite_of_level {c : Cycle} (route : c.route = .guard) (write : c.kind = .write) (level : Nat) (s : State) :
    guardWrite (some level) c s = ({ c with raised := c.raised ++ [Source.guard] }, (s.latch .guard).enterClaim (guardRaise level c)) :=
  if_pos ⟨route, (isWrite_iff c).2 write⟩

theorem presentCycle_eq (c : Cycle) (s : State) : s.presentCycle c =
    (watchEvaluate (guardWrite (resolve (seen c s).windows c.address c.lane).guardLevel c (seen c s)).1
      (guardWrite (resolve (seen c s).windows c.address c.lane).guardLevel c (seen c s)).2).2.holdDecision
    (watchEvaluate (guardWrite (resolve (seen c s).windows c.address c.lane).guardLevel c (seen c s)).1
      (guardWrite (resolve (seen c s).windows c.address c.lane).guardLevel c (seen c s)).2).1 := rfl

theorem seen_quiet {c : Cycle} {s : State} (quiet : ∀ i : Fin 4, s.watch[i].matching = false) (i : Fin 4) : (seen c s).watch[i].matching = false := by
  rw [(seen_aside c s).2.2.1]
  exact quiet i

/-- A cycle that no unit tests and that is no guarded write goes to its hold decision (R7). -/
theorem presentCycle_of_quiet {c : Cycle} {s : State} (quiet : ∀ i : Fin 4, s.watch[i].matching = false) (plain : ¬(c.route = .guard ∧ c.isWrite = true)) :
    s.presentCycle c = (seen c s).holdDecision c := by
  rw [presentCycle_eq, guardWrite_of_not plain, watchEvaluate_of_quiet (seen_quiet quiet)]

theorem presentCycle_guarded {c : Cycle} {s : State} (quiet : ∀ i : Fin 4, s.watch[i].matching = false) (route : c.route = .guard) (write : c.kind = .write)
    (noLevel : (resolve s.windows c.address c.lane).guardLevel = none) : s.presentCycle c = ((seen c s).latch .guard).holdDecision c := by
  have evaluates := watchEvaluate_of_quiet (s := (seen c s).latch .guard) (seen_quiet quiet) c
  rw [presentCycle_eq, (seen_aside c s).2.2.2.2.2.1, noLevel, guardWrite_of_noLevel route write]
  dsimp only
  rw [evaluates]

theorem presentCycle_claiming {c : Cycle} {s : State} {level : Nat} (quiet : ∀ i : Fin 4, s.watch[i].matching = false) (route : c.route = .guard)
    (write : c.kind = .write) (given : (resolve s.windows c.address c.lane).guardLevel = some level) :
    s.presentCycle c = (((seen c s).latch .guard).enterClaim (guardRaise level c)).holdDecision { c with raised := c.raised ++ [Source.guard] } := by
  have evaluates := watchEvaluate_of_quiet (s := ((seen c s).latch .guard).enterClaim (guardRaise level c)) (seen_quiet quiet)
    { c with raised := c.raised ++ [Source.guard] }
  rw [presentCycle_eq, (seen_aside c s).2.2.2.2.2.1, given, guardWrite_of_level route write]
  dsimp only
  rw [evaluates]

theorem mayPresent_iff (s : State) : s.mayPresent = true ↔ s.port.prst = false ∧ s.port.powered = true ∧ s.netAsserted = false ∧ s.port.inFlight = none := by
  simp only [State.mayPresent, Bool.and_eq_true, Bool.not_eq_true', Option.isNone_iff_eq_none, and_assoc]

theorem exec_cyclePresented_mapped {address : BitVec 20} {write : Option Byte} {fetch : Bool} {selects : BitVec 4} {s : State} (may : s.mayPresent = true)
    (mapped : (s.targetCycle address write fetch selects).location.all s.overlay.maps = true) :
    exec (.cyclePresented address write fetch selects) s = .next (s.presentCycle (s.targetCycle address write fetch selects)).settle := by
  rw [exec_cyclePresented _ _ _ _ may, if_pos mapped]

/-- Only a route of an overlay kind has a location (R31). -/
theorem resolve_location {ws : Vector Window 16} {address : Nat} {lane : Lane} (h : (resolve ws address lane).route.isOverlay = false) :
    (resolve ws address lane).location = none := by
  unfold resolve at h ⊢
  split at h
  · rfl
  · dsimp only at h ⊢
    rw [h]
    exact if_neg Bool.false_ne_true

theorem targetCycle_mapped {address : BitVec 20} {write : Option Byte} {fetch : Bool} {selects : BitVec 4} {s : State}
    (h : (s.targetCycle address write fetch selects).route.isOverlay = false) :
    (s.targetCycle address write fetch selects).location.all s.overlay.maps = true := by
  rw [show (s.targetCycle address write fetch selects).location = none from resolve_location h]
  rfl

theorem targetCycle_read (address : BitVec 20) (fetch : Bool) (selects : BitVec 4) (s : State) : (s.targetCycle address none fetch selects).kind ≠ .write := by
  rw [show (s.targetCycle address none fetch selects).kind = Kind.presented none s.port.fetchWired fetch from rfl, presented_read]
  split <;> exact Kind.noConfusion

/-! ### The hold decision -/

theorem ownLive_iff (r : RunControl) (raised : List Source) :
    r.ownLive raised = true ↔ ∃ source ∈ raised, ∃ k, r.claimOf source = some k ∧ k.live r.floor = true := by
  simp only [RunControl.ownLive, List.any_eq_true, claim_any_iff]

/-- An arming that rests on no live claim ends first (R104). -/
theorem holdDecision_of_dead {c : Cycle} {s : State} (hold : s.run.hold = .holdArmed) (dead : s.run.anyLive = false) :
    s.holdDecision c = decideHold c (s.setHold .running) := by rw [holdDecision_eq, if_pos ⟨hold, dead⟩]

theorem holdDecision_of_steady {c : Cycle} {s : State} (h : s.run.hold ≠ .holdArmed ∨ s.run.anyLive = true) : s.holdDecision c = decideHold c s := by
  rw [holdDecision_eq, if_neg]
  rintro ⟨hold, dead⟩
  rcases h with other | live
  · exact other hold
  · exact Bool.false_ne_true (dead.symm.trans live)

theorem holdDecision_running {c : Cycle} {s : State} (hold : s.run.hold = .running) : s.holdDecision c =
    if s.run.ownLive c.raised then if s.holdingPossible then s.holdCycle c else (s.latch .holdMissed).performCycle c else s.performCycle c := by
  rw [holdDecision_of_steady (.inl (by simp [hold])), decideHold, hold]

/-- In RUNNING a cycle whose own evaluation raised no live claim goes on (R98). -/
theorem holdDecision_of_quiet {c : Cycle} {s : State} (hold : s.run.hold = .running) (quiet : s.run.ownLive c.raised = false) :
    s.holdDecision c = s.performCycle c := by
  rw [holdDecision_running hold, if_neg (Bool.eq_false_iff.1 quiet)]

theorem holdDecision_armed {c : Cycle} {s : State} (hold : s.run.hold = .holdArmed) (live : s.run.anyLive = true) : s.holdDecision c =
    if s.run.anyHolding || s.run.stepAdmits c.kind then s.holdCycle c else s.performCycle c := by
  rw [holdDecision_of_steady (.inr live), decideHold, hold]

/-! ### The beginning of a hold -/

/-- What a held cycle makes of one claim, as R99 says it. -/
theorem satisfiedBy_eq (kind : Kind) (address : Nat) (k : Claim) : satisfiedBy kind address k =
    if k.step.any (fun p => !p.satisfied && p.kind.admits kind)
      then { k with step := k.step.map (fun p => { p with satisfied := true }), address := some address } else k := by
  unfold satisfiedBy
  cases step : k.step with
  | none => rfl
  | some p => rfl

/-- The most urgent holding claim gives the origin (R97, R100). -/
theorem origin_of_holding {r : RunControl} (h : ∃ k ∈ r.claims, k.holding r.floor = true) :
    ∃ k ∈ r.claims, k.holding r.floor = true ∧ (∀ k2 ∈ r.claims, k2.holding r.floor = true → k.before k2 = true) ∧
      r.origin? = some { source := k.source, level := k.level } := by
  have perm := byUrgency_perm (r.claims.filter (Claim.holding r.floor))
  have sorted := byUrgency_sorted (r.claims.filter (Claim.holding r.floor))
  obtain ⟨x, memX, holdingX⟩ := h
  cases order : byUrgency (r.claims.filter (Claim.holding r.floor)) with
  | nil =>
    rw [order] at perm
    have none' : x ∈ ([] : List Claim) := perm.mem_iff.2 (List.mem_filter.2 ⟨memX, holdingX⟩)
    cases none'
  | cons k rest =>
    rw [order] at perm sorted
    obtain ⟨mem, holding⟩ := List.mem_filter.1 (perm.mem_iff.1 List.mem_cons_self)
    refine ⟨k, mem, holding, fun k2 mem2 holding2 => ?_, by rw [RunControl.origin?, order]; rfl⟩
    rcases List.mem_cons.1 (perm.mem_iff.2 (List.mem_filter.2 ⟨mem2, holding2⟩)) with rfl | later
    · exact (before_total k2 k2).elim id id
    · exact (List.pairwise_cons.1 sorted).1 k2 later

/-- Run control as a hold begins (R99, R100). -/
def begun (claims : List Claim) (o : HoldOrigin) (s : State) : RunControl :=
  { s.run with hold := .holding, claims := claims, origin := some o, timer := if s.run.holdLimit = 0 then none else some { start := s.timeBase, limit := s.run.holdLimit } }

/-- The cycle as it is held (R8). -/
def heldCycle (c : Cycle) : Cycle := { c with phase := .held, held := true, waiting := !c.injected }

/-- The state in which the HOLD_BEGIN marker is handed over. -/
def beganWith (c : Cycle) (claims : List Claim) (o : HoldOrigin) (s : State) : State :=
  State.latch .hold { s with run := begun claims o s, port := { s.port with inFlight := some (heldCycle c) } }

theorem holdCycle_eq {c : Cycle} {s : State} (h : ∃ k ∈ s.run.claims.map (satisfiedBy c.kind c.address), k.holding s.run.floor = true) :
    ∃ k ∈ s.run.claims.map (satisfiedBy c.kind c.address), k.holding s.run.floor = true ∧
      (∀ k2 ∈ s.run.claims.map (satisfiedBy c.kind c.address), k2.holding s.run.floor = true → k.before k2 = true) ∧
      s.holdCycle c = (beganWith c (s.run.claims.map (satisfiedBy c.kind c.address)) { source := k.source, level := k.level } s).offer
        (.holdBegin { source := k.source, level := k.level }) true s.timeBase := by
  obtain ⟨k, mem, holding, first, origin⟩ := origin_of_holding (r := s.run.satisfySteps c.kind c.address) h
  refine ⟨k, mem, holding, first, ?_⟩
  have begins : s.beginHold c.kind c.address = State.offer (.holdBegin { source := k.source, level := k.level }) true s.timeBase
      (State.latch .hold { s with run := begun (s.run.claims.map (satisfiedBy c.kind c.address)) { source := k.source, level := k.level } s }) := by
    unfold State.beginHold
    dsimp only
    rw [origin]
    rfl
  have commutes := offer_eq (s := State.latch .hold { s with run := begun (s.run.claims.map (satisfiedBy c.kind c.address)) { source := k.source, level := k.level } s })
    (t := beganWith c (s.run.claims.map (satisfiedBy c.kind c.address)) { source := k.source, level := k.level } s) rfl rfl
    (.holdBegin { source := k.source, level := k.level }) true s.timeBase
  have only := offer_traceOnly (.holdBegin { source := k.source, level := k.level }) true s.timeBase
    (State.latch .hold { s with run := begun (s.run.claims.map (satisfiedBy c.kind c.address)) { source := k.source, level := k.level } s })
  have aside := offer_eq (s := State.latch .hold { s with run := begun (s.run.claims.map (satisfiedBy c.kind c.address)) { source := k.source, level := k.level } s })
    rfl rfl (.holdBegin { source := k.source, level := k.level }) true s.timeBase
  rw [commutes, State.holdCycle, begins]
  dsimp only
  rw [aside]
  rfl

/-- What a step that holds a cycle leaves (R99, R100). -/
structure HoldBegun (c : Cycle) (s t : State) : Prop where
  tables : s.sameTables t
  hold : t.run.hold = .holding
  noticed : t.noticed .hold = true
  port : t.port = { s.port with inFlight := some (heldCycle c) }
  claims : t.run.claims = s.run.claims.map (satisfiedBy c.kind c.address)
  timer : t.run.timer = if s.run.holdLimit = 0 then none else some { start := s.timeBase, limit := s.run.holdLimit }
  origin : ∃ k ∈ t.run.claims, k.holding t.run.floor = true ∧ (∀ k2 ∈ t.run.claims, k2.holding t.run.floor = true → k.before k2 = true) ∧
    t.run = begun (s.run.claims.map (satisfiedBy c.kind c.address)) { source := k.source, level := k.level } s ∧
    t.trace = (s.offer (.holdBegin { source := k.source, level := k.level }) true s.timeBase).trace

theorem holdBegun_holdCycle {c : Cycle} {s : State} (rests : s.run.anyHolding = true ∨ s.run.stepAdmits c.kind = true) : HoldBegun c s (s.holdCycle c).settle := by
  have holding : ∃ k ∈ s.run.claims.map (satisfiedBy c.kind c.address), k.holding s.run.floor = true :=
    List.any_eq_true.1 (satisfySteps_anyHolding rests c.address)
  obtain ⟨k, mem, isHolding, first, held⟩ := holdCycle_eq holding
  have run : (s.holdCycle c).settle.run = begun (s.run.claims.map (satisfiedBy c.kind c.address)) { source := k.source, level := k.level } s := by
    rw [settle_run, held, offer_run]
    rfl
  have trace : (s.holdCycle c).settle.trace = (s.offer (.holdBegin { source := k.source, level := k.level }) true s.timeBase).trace := by
    rw [settle_trace, held]
    exact offer_trace (s := s) (t := beganWith ..) rfl ..
  refine ⟨?_, by rw [run]; rfl, (linkKept_settle _).notices _ ?_, ?_, by rw [run]; rfl, by rw [run]; rfl, k, by rw [run]; exact mem, by rw [run]; exact isHolding,
    by rw [run]; exact first, run, trace⟩
  · simp only [State.sameTables, settle_windows, settle_floatByte, settle_overlay, settle_watch, settle_probes, settle_timeBase, settle_pending, settle_freeIndex, held,
      offer_windows, offer_floatByte, offer_overlay, offer_watch, offer_probes, offer_timeBase, offer_pending, offer_freeIndex]
    exact ⟨rfl, rfl, rfl, rfl, rfl, rfl, rfl, rfl⟩
  · rw [held]
    exact (linkKept_offer ..).notices _ (noticed_latch_self ..)
  · rw [settle_port, held, offer_port]
    rfl

/-- WAIT is asserted for a held target cycle of a part that is out of reset and powered (R8). -/
theorem HoldBegun.wait {c : Cycle} {s t : State} (h : HoldBegun c s t) (target : c.injected = false) (powered : s.port.powered = true) (prst : s.port.prst = false) :
    t.wait = true := by
  simp [State.wait, State.highImpedance, h.port, heldCycle, target, powered, prst]

/-- A FLOAT read that goes on completes with the float byte (R33). -/
theorem settle_gone {c : Cycle} {s : State} (noStop : c.stopAfter = false) (empty : s.port.inFlight = none) (data : Byte) :
    gone c data s = State.offer (.cycle (recordWith c false data)) (c.capture && c.gate) s.timeBase
      { s with port := { s.port with driven := if c.kind = .write ∨ c.injected = true then s.port.driven else some data } } := by
  rw [offer_eq (s := s) (t := { s with port := { s.port with driven := if c.kind = .write ∨ c.injected = true then s.port.driven else some data } }) rfl rfl, gone,
    recorded_of_noStop noStop, offer_eq (s := s) rfl rfl, ← empty]

/-- The notices do not matter to a hold that begins. -/
theorem HoldBegun.of_same {c : Cycle} {s u t : State} (h : HoldBegun c u t) (run : u.run = s.run) (port : u.port = s.port) (trace : u.trace = s.trace)
    (tables : s.sameTables u) : HoldBegun c s t := by
  obtain ⟨same, hold, noticed, port', claims, timer, k, mem, holding, first, run', trace'⟩ := h
  have time : u.timeBase = s.timeBase := tables.2.2.2.2.2.1
  have offered := fun b => offer_trace trace b true s.timeBase
  obtain ⟨a1, a2, a3, a4, a5, a6, a7, a8⟩ := tables
  obtain ⟨b1, b2, b3, b4, b5, b6, b7, b8⟩ := same
  refine ⟨⟨b1.trans a1, b2.trans a2, b3.trans a3, b4.trans a4, b5.trans a5, b6.trans a6, b7.trans a7, b8.trans a8⟩, hold, noticed, port ▸ port',
    run ▸ claims, by rw [timer, run, time], k, mem, holding, first, ?_, ?_⟩
  · rw [run']
    simp only [begun, run, time]
  · rw [trace', time]
    exact offered _

/-- The record of a target cycle that the part served at once. -/
theorem targetRecord_eq {address : BitVec 20} {write : Option Byte} {fetch : Bool} {selects : BitVec 4} {s : State} {d : Byte}
    (h : (s.targetCycle address write fetch selects).kind = .write → (s.targetCycle address write fetch selects).writeData = some d) :
    recordWith (s.targetCycle address write fetch selects) false d =
      { address := (s.targetCycle address write fetch selects).address, lane := (s.targetCycle address write fetch selects).lane, data := d,
        window := (s.targetCycle address write fetch selects).window, route := (s.targetCycle address write fetch selects).route,
        kind := (s.targetCycle address write fetch selects).kind, held := false, substituted := false, stretched := false,
        contention := (s.targetCycle address write fetch selects).contention, abandoned := false, injected := false, matched := 0, fired := 0 } := by
  have data : (if (s.targetCycle address write fetch selects).kind = .write then (s.targetCycle address write fetch selects).writeData.getD 0 else d) = d := by
    split
    · next kind => rw [h kind]; rfl
    · rfl
  rw [recordWith, data]
  rfl

theorem targetPlain_iff (address : BitVec 20) (write : Option Byte) (fetch : Bool) (selects : BitVec 4) (s : State) :
    (s.targetCycle address write fetch selects).isWrite = write.isSome := by
  cases write with
  | none => exact isWrite_eq_false (targetCycle_read address fetch selects s)
  | some d => rfl

theorem seen_run (c : Cycle) (s : State) : (seen c s).run = s.run := (seen_aside c s).2.1
theorem seen_port (c : Cycle) (s : State) : (seen c s).port = s.port := (seen_aside c s).1
theorem seen_trace (c : Cycle) (s : State) : (seen c s).trace = s.trace := (seen_aside c s).2.2.2.2.2.2.1
theorem seen_timeBase (c : Cycle) (s : State) : (seen c s).timeBase = s.timeBase := (seen_aside c s).2.2.2.2.2.2.2.1
theorem seen_floatByte (c : Cycle) (s : State) : (seen c s).floatByte = s.floatByte := (seen_aside c s).2.2.2.2.2.2.2.2.1
theorem seen_tables (c : Cycle) (s : State) : s.sameTables (seen c s) := (seen_aside c s).2.2.2.2.2.2.2.2.2

/-- A presented cycle that finds a holding claim, or a waiting step that admits it, is held (R99). -/
theorem presented_held {address : BitVec 20} {write : Option Byte} {fetch : Bool} {selects : BitVec 4} {s : State} (may : s.mayPresent = true)
    (quiet : ∀ i : Fin 4, s.watch[i].matching = false) (hold : s.run.hold = .holdArmed)
    (mapped : (s.targetCycle address write fetch selects).location.all s.overlay.maps = true)
    (plain : ¬((s.targetCycle address write fetch selects).route = .guard ∧ write.isSome = true)) (live : s.run.anyLive = true)
    (rests : s.run.anyHolding = true ∨ s.run.stepAdmits (s.targetCycle address write fetch selects).kind = true) :
    ∃ t, exec (.cyclePresented address write fetch selects) s = .next t ∧ HoldBegun (s.targetCycle address write fetch selects) s t := by
  have run := seen_run (s.targetCycle address write fetch selects) s
  have decided := holdDecision_armed (c := s.targetCycle address write fetch selects) (s := seen (s.targetCycle address write fetch selects) s)
    (by rw [run]; exact hold) (by rw [run]; exact live)
  rw [run, if_pos (Bool.or_eq_true_iff.2 rests)] at decided
  refine ⟨_, exec_cyclePresented_mapped may mapped, ?_⟩
  rw [presentCycle_of_quiet quiet (by rw [targetPlain_iff]; exact plain), decided]
  exact (holdBegun_holdCycle (by rw [run]; exact rests)).of_same run (seen_port ..) (seen_trace ..) (seen_tables ..)

/-- Where nothing holds it, a FLOAT read completes with the float byte, and the arming stays (R99). -/
theorem presented_goesOn {address : BitVec 20} {fetch : Bool} {selects : BitVec 4} {s : State} (may : s.mayPresent = true)
    (quiet : ∀ i : Fin 4, s.watch[i].matching = false ∧ s.watch[i].pendingData = false) (hold : s.run.hold = .holdArmed)
    (mapped : (s.targetCycle address none fetch selects).location.all s.overlay.maps = true) (live : s.run.anyLive = true) (none' : s.run.anyHolding = false)
    (noStep : s.run.stepAdmits (s.targetCycle address none fetch selects).kind = false) (route : (s.targetCycle address none fetch selects).route = .float) :
    ∃ t, exec (.cyclePresented address none fetch selects) s = .next t ∧ t.run = s.run ∧ t.port = { s.port with driven := some s.floatByte } ∧
      t.trace = (s.offer (.cycle (recordWith (s.targetCycle address none fetch selects) false s.floatByte))
        ((s.targetCycle address none fetch selects).capture && (s.targetCycle address none fetch selects).gate) s.timeBase).trace := by
  have reads := targetCycle_read address fetch selects s
  have plain := targetPlain_iff address none fetch selects s
  have served : (s.targetCycle address none fetch selects).injected = false ∧ (s.targetCycle address none fetch selects).stopAfter = false := ⟨rfl, rfl⟩
  obtain ⟨-, -, -, empty⟩ := (mayPresent_iff s).1 may
  have row := exec_cyclePresented_mapped may mapped
  generalize s.targetCycle address none fetch selects = c at reads plain served mapped noStep route row ⊢
  obtain ⟨target, noStop⟩ := served
  have run := seen_run c s
  have decided := holdDecision_armed (c := c) (s := seen c s) (by rw [run]; exact hold) (by rw [run]; exact live)
  rw [run, if_neg (by simp [none', noStep]), performCycle_float route, seen_floatByte,
    completeCycle_quiet target (.inr fun i => by rw [(seen_aside _ s).2.2.1]; exact (quiet i).2)] at decided
  refine ⟨_, row, ?_⟩
  rw [presentCycle_of_quiet (fun i => (quiet i).1) (by simp [plain]), decided, settle_gone noStop (by rw [seen_port]; exact empty),
    if_neg (by simp [reads, target]), seen_timeBase, settle_run, settle_port, settle_trace, offer_run, offer_port]
  refine ⟨run, by rw [seen_port], offer_trace ?_ ..⟩
  exact seen_trace c s

theorem anyLive_of_ownLive {r : RunControl} {raised : List Source} (own : r.ownLive raised = true) : r.anyLive = true := by
  obtain ⟨src, -, live⟩ := List.any_eq_true.1 own
  exact anyLive_of_claimOf live

theorem holdCycle_spec {c : Cycle} {s : State} {claims : List Claim} (map : s.run.claims.map (satisfiedBy c.kind c.address) = claims)
    (h : ∃ k ∈ claims, k.holding s.run.floor = true) : ∃ k ∈ claims, k.holding s.run.floor = true ∧
      (∀ k2 ∈ claims, k2.holding s.run.floor = true → k.before k2 = true) ∧
      s.holdCycle c = (beganWith c claims { source := k.source, level := k.level } s).offer (.holdBegin { source := k.source, level := k.level }) true s.timeBase := by
  subst map
  exact holdCycle_eq h

/-- Settles O36: the decision by the hold state, and the hold that begins. -/
theorem armedHoldTakesCycle : Obligations.ArmedHoldTakesCycle := by
  refine ⟨fun address write fetch selects s may quiet hold mapped plain live => ⟨fun rests => ?_, fun none' noStep route read => ?_⟩, fun c s holds => ?_, fun c s =>
    ⟨fun hold own possible => ?_, fun hold own impossible => ?_, fun hold quiet => ?_, fun hold live rests => ?_, fun hold live none' noStep => ?_,
      fun hold dead => ?_, fun hold => ?_⟩⟩
  · obtain ⟨t, row, began⟩ := presented_held may (fun i => (quiet i).1) hold mapped plain live rests
    obtain ⟨prst, powered, -, -⟩ := (mayPresent_iff s).1 may
    have wait := began.wait rfl powered prst
    obtain ⟨tables, holding, noticed, port, claims, timer, k, mem, isHolding, first, run, trace⟩ := began
    exact ⟨t, { source := k.source, level := k.level }, k, row, tables, holding, noticed, port, claims.trans (List.map_congr_left fun k _ => satisfiedBy_eq _ _ k),
      by rw [run]; rfl, mem, isHolding, rfl, first, timer, trace, wait⟩
  · subst read
    obtain ⟨t, row, run, port, trace⟩ := presented_goesOn may quiet hold mapped live none' noStep route
    rw [targetRecord_eq fun kind => absurd kind (targetCycle_read address fetch selects s)] at trace
    exact ⟨t, row, run, port, trace⟩
  · exact holdCycle_spec (List.map_congr_left fun k _ => satisfiedBy_eq c.kind c.address k) holds
  · rw [holdDecision_running hold, if_pos ((ownLive_iff ..).2 own), if_pos ((holdingPossible_iff s).2 possible)]
  · rw [holdDecision_running hold, if_pos ((ownLive_iff ..).2 own), if_neg (mt (holdingPossible_iff s).1 impossible)]
  · rw [holdDecision_running hold, if_neg (mt (ownLive_iff ..).1 quiet)]
  · rw [holdDecision_armed hold live, if_pos (Bool.or_eq_true_iff.2 rests)]
  · rw [holdDecision_armed hold live, if_neg (by simp [none', noStep])]
  · rw [holdDecision_of_dead hold dead]
    exact if_neg fun own => Bool.false_ne_true (dead.symm.trans (anyLive_of_ownLive own))
  · rw [holdDecision_of_steady (.inl (by rcases hold with h | h | h <;> simp [h])), decideHold]
    rcases hold with h | h | h <;> rw [h]

end Sys2Proof.PresentRows
end

section
/-! PROOFS. Target cycles served inside the part, sent to the board, or held as guarded writes; the end of a board access (R9 to R18, R32, R138). -/

namespace Sys2Proof.ServeRows

open Sys2Proof Sys2Proof.Machine Sys2Proof.Resets Sys2Proof.BenchLink Sys2Proof.RunSound Sys2Proof.LinkKeeping Sys2Proof.WindowRows
  Sys2Proof.SlotRows Sys2Proof.ClaimRows Sys2Proof.CycleRows Sys2Proof.PresentRows

/-! ### Cycles as the target presents them -/

/-- What a presented target cycle does not carry yet. -/
structure Fresh (c : Cycle) : Prop where
  target : c.injected = false
  raised : c.raised = []
  noStop : c.stopAfter = false
  waiting : c.waiting = false
  held : c.held = false
  substituted : c.substituted = false
  stretched : c.stretched = false
  matched : c.matched = 0
  fired : c.fired = 0

/-- What a presented target cycle takes from its strobes and its window (R2, R31). -/
structure Strobed (write : Option Byte) (c : Cycle) : Prop extends Fresh c where
  read : write = none → c.kind ≠ .write
  write : ∀ d, write = some d → c.kind = .write ∧ c.writeData = some d
  location : c.route.isOverlay = false → c.location = none

theorem targetCycle_strobed (address : BitVec 20) (write : Option Byte) (fetch : Bool) (selects : BitVec 4) (s : State) :
    Strobed write (s.targetCycle address write fetch selects) where
  target := rfl
  raised := rfl
  noStop := rfl
  waiting := rfl
  held := rfl
  substituted := rfl
  stretched := rfl
  matched := rfl
  fired := rfl
  read := fun h => by
    subst h
    exact targetCycle_read address fetch selects s
  write := fun d h => by
    subst h
    exact ⟨rfl, rfl⟩
  location := resolve_location

theorem Strobed.mapped {write : Option Byte} {c : Cycle} (h : Strobed write c) {route : Route} (given : c.route = route) (plain : route.isOverlay = false)
    (p : Location → Bool) : c.location.all p = true := by
  rw [h.location (by rw [given]; exact plain)]
  rfl

/-- The record of a target cycle that the part serves at once. -/
def servedRecord (c : Cycle) (d : Byte) : CycleRecord :=
  { address := c.address, lane := c.lane, data := d, window := c.window, route := c.route, kind := c.kind, held := false, substituted := false,
    stretched := false, contention := c.contention, abandoned := false, injected := false, matched := 0, fired := 0 }

theorem Strobed.record {write : Option Byte} {c : Cycle} (h : Strobed write c) {d : Byte} (data : ∀ e, write = some e → e = d) :
    recordWith c false d = servedRecord c d := by
  have byte : (if c.kind = .write then c.writeData.getD 0 else d) = d := by
    cases write with
    | none => exact if_neg (h.read rfl)
    | some e =>
      obtain ⟨kind, carried⟩ := h.write e rfl
      rw [if_pos kind, carried]
      exact data e rfl
  simp only [recordWith, servedRecord, byte, h.held, h.substituted, h.stretched, h.target, h.matched, h.fired]

theorem seen_bus (c : Cycle) (s : State) : (seen c s).bus = s.bus := (seen_aside c s).2.2.2.1
theorem seen_overlay (c : Cycle) (s : State) : (seen c s).overlay = s.overlay := (seen_aside c s).2.2.2.2.1
theorem seen_watch (c : Cycle) (s : State) : (seen c s).watch = s.watch := (seen_aside c s).2.2.1

theorem ownLive_nil (r : RunControl) : r.ownLive [] = false := rfl

/-- In RUNNING a cycle that no unit tests and that is no guarded write is performed at once (R7). -/
theorem presentCycle_running {c : Cycle} {s : State} (fresh : Fresh c) (quiet : ∀ i : Fin 4, s.watch[i].matching = false) (hold : s.run.hold = .running)
    (plain : ¬(c.route = .guard ∧ c.isWrite = true)) : s.presentCycle c = (seen c s).performCycle c := by
  rw [presentCycle_of_quiet quiet plain, holdDecision_of_quiet (by rw [seen_run]; exact hold) (by rw [fresh.raised, ownLive_nil])]

/-- A read that no pending decision tests: its byte is driven to the target, and its record handed over (R14). -/
theorem completeCycle_read {c : Cycle} {s : State} (strobed : Strobed none c) (quiet : ∀ i : Fin 4, s.watch[i].pendingData = false)
    (empty : s.port.inFlight = none) (d : Byte) : s.completeCycle c d =
      State.offer (.cycle (servedRecord c d)) (c.capture && c.gate) s.timeBase { s with port := { s.port with driven := some d } } := by
  rw [completeCycle_quiet strobed.target (.inr quiet), settle_gone strobed.noStop empty, if_neg (by simp [strobed.read rfl, strobed.target]),
    strobed.record (by simp)]

/-- A write: its record is handed over. -/
theorem completeCycle_written {c : Cycle} {s : State} {e : Byte} (strobed : Strobed (some e) c) (empty : s.port.inFlight = none) (d : Byte) :
    s.completeCycle c d = s.offer (.cycle (servedRecord c e)) (c.capture && c.gate) s.timeBase := by
  have write := (strobed.write e rfl).1
  rw [completeCycle_write write d e, completeCycle_quiet strobed.target (.inl write), settle_gone strobed.noStop empty, if_pos (.inl write),
    strobed.record (fun x h => (Option.some.inj h).symm)]

/-- The end of a cycle that the part serves: its record, and what settles (R14). -/
def finished (c : Cycle) (n : Stamp) (d : Byte) (u : State) : State := (u.offer (.cycle (servedRecord c d)) (c.capture && c.gate) n).settle

/-- A read served inside the part delivers its byte. -/
theorem served_read {c : Cycle} {s : State} (strobed : Strobed none c) (empty : s.port.inFlight = none)
    (quiet : ∀ i : Fin 4, s.watch[i].matching = false ∧ s.watch[i].pendingData = false) (hold : s.run.hold = .running) {d : Byte}
    (performs : (seen c s).performCycle c = (seen c s).completeCycle c d) :
    (s.presentCycle c).settle = finished c s.timeBase d { seen c s with port := { s.port with driven := some d } } := by
  have plain : c.isWrite = false := isWrite_eq_false (strobed.read rfl)
  rw [presentCycle_running strobed.toFresh (fun i => (quiet i).1) hold (by simp [plain]), performs,
    completeCycle_read strobed (by rw [seen_watch]; exact fun i => (quiet i).2) (by rw [seen_port]; exact empty), seen_port]
  exact congrArg (fun n => finished c n d _) (seen_timeBase c s)

/-- A write served inside the part: what its route does, and its record. -/
theorem served_write {c : Cycle} {s u : State} {d : Byte} (strobed : Strobed (some d) c) (empty : s.port.inFlight = none) (port : u.port = s.port)
    (time : u.timeBase = s.timeBase) (performs : s.presentCycle c = u.completeCycle c 0) : (s.presentCycle c).settle = finished c s.timeBase d u := by
  rw [performs, completeCycle_written strobed (by rw [port]; exact empty) 0, time]
  rfl

/-- The five kinds of target cycle that the part serves (R10, R12, R13). -/
theorem served_cases {write : Option Byte} {c : Cycle} {s : State} {result : Result} (strobed : Strobed write c) (empty : s.port.inFlight = none)
    (row : c.location.all s.overlay.maps = true → result = .next (s.presentCycle c).settle)
    (quiet : ∀ i : Fin 4, s.watch[i].matching = false ∧ s.watch[i].pendingData = false) (hold : s.run.hold = .running) :
    (c.route = .float → write = none → result = .next (finished c s.timeBase s.floatByte { seen c s with port := { s.port with driven := some s.floatByte } })) ∧
    (∀ d, c.route = .float ∨ c.route = .overlayRo → write = some d → c.location.all s.overlay.maps = true →
      result = .next (finished c s.timeBase d (seen c s))) ∧
    (∀ l, c.route = .overlay ∨ c.route = .overlayRo ∨ c.route = .shadow → write = none → c.location = some l → s.overlay.maps l = true →
      result = .next (finished c s.timeBase (s.overlay.readByte l) { seen c s with port := { s.port with driven := some (s.overlay.readByte l) } })) ∧
    (∀ d l, c.route = .overlay → write = some d → c.location = some l → s.overlay.maps l = true →
      result = .next (finished c s.timeBase d { seen c s with overlay := s.overlay.writeByte l d })) ∧
    (∀ d, c.route = .guard → write = some d → (resolve s.windows c.address c.lane).guardLevel = none →
      result = .next (finished c s.timeBase d ((seen c s).latch .guard))) := by
  have watched := fun i => (quiet i).1
  refine ⟨fun route read => ?_, fun d route written mapped => ?_, fun l route read location maps => ?_, fun d l route written location maps => ?_,
    fun d route written noLevel => ?_⟩
  · subst read
    have performs : (seen c s).performCycle c = (seen c s).completeCycle c s.floatByte := by rw [performCycle_float route, seen_floatByte]
    rw [row (strobed.mapped route rfl _), served_read strobed empty quiet hold performs]
  · subst written
    have performs : s.presentCycle c = (seen c s).completeCycle c 0 := by
      rw [presentCycle_running strobed.toFresh watched hold (fun guard => by rcases route with h | h <;> exact nomatch h.symm.trans guard.1),
        performCycle_dropped (.inr route) (strobed.write d rfl).1]
    rw [row mapped, served_write (u := seen c s) strobed empty (seen_port c s) (seen_timeBase c s) performs]
  · subst read
    have performs : (seen c s).performCycle c = (seen c s).completeCycle c (s.overlay.readByte l) := by
      rw [performCycle_overlayRead route location (strobed.read rfl), seen_overlay]
    rw [row (by rw [location]; exact maps), served_read strobed empty quiet hold performs]
  · subst written
    obtain ⟨kind, data⟩ := strobed.write d rfl
    have performs : s.presentCycle c = State.completeCycle c 0 { seen c s with overlay := s.overlay.writeByte l d } := by
      rw [presentCycle_running strobed.toFresh watched hold (fun guard => nomatch route.symm.trans guard.1), performCycle_overlayWrite route location kind data,
        seen_overlay]
    rw [row (by rw [location]; exact maps),
      served_write (u := { seen c s with overlay := s.overlay.writeByte l d }) strobed empty (seen_port c s) (seen_timeBase c s) performs]
  · subst written
    have kind := (strobed.write d rfl).1
    have performs : s.presentCycle c = ((seen c s).latch .guard).completeCycle c 0 := by
      rw [presentCycle_guarded watched route kind noLevel,
        holdDecision_of_quiet (s := (seen c s).latch .guard) ((congrArg RunControl.hold (seen_run c s)).trans hold) (by rw [strobed.raised, ownLive_nil]),
        performCycle_dropped (.inl route) kind]
    rw [row (strobed.mapped route rfl _), served_write (u := (seen c s).latch .guard) strobed empty (seen_port c s)
      (seen_timeBase c s) performs]

/-- Settles O33: the routes that the part serves, the cycle's record behind each. -/
theorem cycleServedInside : Obligations.CycleServedInside := by
  intro address write fetch selects s
  refine ⟨rfl, fun barred => if_neg (Bool.eq_false_iff.1 barred), mayPresent_iff s, fun may quiet hold => ?_⟩
  obtain ⟨-, -, -, empty⟩ := (mayPresent_iff s).1 may
  exact served_cases (targetCycle_strobed address write fetch selects s) empty (exec_cyclePresented_mapped may) quiet hold

/-! ### Cycles sent to the board -/

theorem asking_busKept (c : Cycle) (s : State) : (asking c s).busKept = s.busKept := rfl

/-- A request that is granted at once: the waiting ones age, unless the bus is kept (R139, R140). -/
theorem performAtBoard_granted {c : Cycle} {s : State} (free : s.bus.owner = .free) (powered : s.port.powered = true) (prst : s.port.prst = false)
    (first : s.busKept = true ∨ (s.bus.bench ≠ some 4 ∧ ∀ r, s.bus.engine = some r → r.aging ≠ 4)) : s.performAtBoard c =
      { s with port := { s.port with inFlight := some { c with phase := .performing } },
               bus := { s.bus with owner := .target, target := false,
                                   bench := if s.busKept then s.bus.bench else s.bus.bench.map (fun n => min 4 (n + 1)),
                                   engine := if s.busKept then s.bus.engine else s.bus.engine.map (fun r => { r with aging := min 4 (r.aging + 1) }) } } := by
  obtain ⟨-, -, rule⟩ := arbiterGrantsByRule (asking c s)
  obtain ⟨keeps, -, open'⟩ := rule free powered prst
  cases kept : s.busKept with
  | true =>
    have granted := keeps kept rfl
    rw [performAtBoard_of_granted (.inl (by rw [granted])), granted]
    rfl
  | false =>
    obtain ⟨bench, engine⟩ := first.resolve_left (Bool.eq_false_iff.1 kept)
    have granted := ((open' kept).2.2 bench engine).1 rfl
    rw [performAtBoard_of_granted (.inl (by rw [granted])), granted]
    rfl

/-- A request that waits, whatever the arbiter does to the bus. -/
theorem performAtBoard_stretched {c : Cycle} {s : State} {b : Bus} (fresh : Fresh c) (rule : (asking c s).arbitrate = { asking c s with bus := b })
    (other : b.owner ≠ .target) : s.performAtBoard c =
      { s with port := { s.port with inFlight := some { c with phase := .performing, stretched := true, waiting := s.port.waitWired } }, bus := b } := by
  rw [performAtBoard_of_waiting (by rw [rule]; exact other) fresh.target, rule, fresh.waiting]
  rfl

/-- How a board-bound cycle finds the bus (R16, R17, R139 to R141). -/
theorem sent_cases {c : Cycle} {s u : State} {result : Result} (fresh : Fresh c) (may : s.mayPresent = true) (port : u.port = s.port) (bus : u.bus = s.bus)
    (run : u.run = s.run) (act : result = .next (u.performAtBoard c).settle) :
    (s.bus.owner = .free → s.busKept = true ∨ (s.bus.bench ≠ some 4 ∧ ∀ r, s.bus.engine = some r → r.aging ≠ 4) →
      result = .next (State.settle { u with port := { s.port with inFlight := some { c with phase := .performing } },
                                            bus := { s.bus with owner := .target, target := false,
                                                                bench := if s.busKept then s.bus.bench else s.bus.bench.map (fun n => min 4 (n + 1)),
                                                                engine := if s.busKept then s.bus.engine
                                                                  else s.bus.engine.map (fun r => { r with aging := min 4 (r.aging + 1) }) } })) ∧
    (s.bus.owner = .bench ∨ (∃ w, s.bus.owner = .engine w) ∨ (∃ lane a, s.bus.owner = .ended lane a) →
      result = .next (State.settle { u with port := { s.port with inFlight := some { c with phase := .performing, stretched := true, waiting := s.port.waitWired } },
                                            bus := { s.bus with target := true } })) ∧
    (s.bus.owner = .free → s.busKept = false → s.bus.bench = some 4 →
      result = .next (State.settle { u with port := { s.port with inFlight := some { c with phase := .performing, stretched := true, waiting := s.port.waitWired } },
                                            bus := { s.bus with owner := .bench, bench := none, target := true } })) ∧
    (∀ r, s.bus.owner = .free → s.busKept = false → s.bus.bench ≠ some 4 → s.bus.engine = some r → r.aging = 4 →
      result = .next (State.settle { u with port := { s.port with inFlight := some { c with phase := .performing, stretched := true, waiting := s.port.waitWired } },
                                            bus := { s.bus with owner := .engine r.work, engine := none, target := true } })) := by
  obtain ⟨prst, powered, -, -⟩ := (mayPresent_iff s).1 may
  have kept : u.busKept = s.busKept := by simp only [State.busKept, port, run]
  obtain ⟨-, -, rule⟩ := arbiterGrantsByRule (asking c u)
  have openBus := fun free : s.bus.owner = .free => (rule (by rw [← bus] at free; exact free) (by rw [← port] at powered; exact powered)
    (by rw [← port] at prst; exact prst)).2.2
  subst act
  refine ⟨fun free first => ?_, fun owned => ?_, fun free open' aged => ?_, fun r free open' bench engine aged => ?_⟩
  · rw [performAtBoard_granted (by rw [bus]; exact free) (by rw [port]; exact powered) (by rw [port]; exact prst) (by rw [kept, bus]; exact first), port, bus, kept]
  · have other : u.bus.owner ≠ .free ∧ u.bus.owner ≠ .target := by
      rw [bus]
      rcases owned with h | ⟨w, h⟩ | ⟨lane, a, h⟩ <;> rw [h] <;> exact ⟨Owner.noConfusion, Owner.noConfusion⟩
    rw [performAtBoard_of_owned other.1 other.2 fresh.target, port, bus, fresh.waiting]
    rfl
  · have granted := (openBus free (kept.trans open')).1 (by rw [← bus] at aged; exact aged)
    rw [performAtBoard_stretched fresh granted Owner.noConfusion, port]
    simp only [asking, bus]
  · have granted := (openBus free (kept.trans open')).2.1 r.work (by rw [← bus] at bench; exact bench) (by
      rw [← bus] at engine
      rw [← aged]
      exact engine)
    rw [performAtBoard_stretched fresh granted Owner.noConfusion, port]
    simp only [asking, bus]

theorem wait_iff (s : State) : s.wait = true ↔ s.highImpedance = false ∧ ∃ c, s.port.inFlight = some c ∧ c.waiting = true := by
  simp only [State.wait, Bool.and_eq_true, Bool.not_eq_true', Option.any_eq_true]

theorem highImpedance_iff (s : State) : s.highImpedance = true ↔ (s.port.powered = false ∨ s.port.prst = true) ∧ s.bus.owner = .free := by
  simp only [State.highImpedance, Bool.and_eq_true, Bool.or_eq_true, Bool.not_eq_true', decide_eq_true_eq]

/-- Settles O34: the route decides that the cycle is board-bound, the bus how it goes there. -/
theorem cycleSentToBoard : Obligations.CycleSentToBoard := by
  refine ⟨fun s => ⟨wait_iff s, highImpedance_iff s⟩, fun address write fetch selects s => ?_⟩
  intro c s1 sent may quiet hold
  have strobed := targetCycle_strobed address write fetch selects s
  have fresh := strobed.toFresh
  refine ⟨fun route => ?_, fun d l route write' location maps => ?_⟩
  · have board : c.route = .pass ∨ (c.route = .guard ∧ c.kind ≠ .write) := by
      exact route.imp id fun ⟨guard, read⟩ => ⟨guard, strobed.read read⟩
    have notGuard : ¬(c.route = .guard ∧ c.isWrite = true) := by
      rintro ⟨guard, write'⟩
      rcases board with pass | ⟨-, read⟩
      · exact nomatch pass.symm.trans guard
      · exact read ((isWrite_iff c).1 write')
    have mapped : c.location.all s.overlay.maps = true := targetCycle_mapped (isOverlay_eq_false (board.imp id fun h => .inl h.1))
    have act := exec_cyclePresented_mapped may mapped
    rw [presentCycle_running fresh quiet hold notGuard, performCycle_atBoard board] at act
    exact sent_cases fresh may (seen_port ..) (seen_bus ..) (seen_run ..) act
  · subst write'
    have act := exec_cyclePresented_mapped may (by rw [location]; exact maps)
    rw [presentCycle_running fresh quiet hold (fun guard => nomatch route.symm.trans guard.1), performCycle_shadowWrite route location rfl rfl, seen_overlay] at act
    exact sent_cases (u := { seen c s with overlay := s.overlay.writeByte l d }) fresh may (seen_port ..) (seen_bus ..) (seen_run ..) act

end Sys2Proof.ServeRows
end

section
/-! PROOFS. Guarded writes, and the end of a board access (R12, R32, R98, R100, R138). -/

namespace Sys2Proof.GuardRows

open Sys2Proof Sys2Proof.Machine Sys2Proof.Resets Sys2Proof.BenchLink Sys2Proof.RunSound Sys2Proof.LinkKeeping Sys2Proof.WindowRows
  Sys2Proof.SlotRows Sys2Proof.ClaimRows Sys2Proof.CycleRows Sys2Proof.PresentRows Sys2Proof.ServeRows

/-! ### What the hold decision leaves of the link -/

theorem linkKept_beginHold (k : Kind) (address : Nat) (s : State) : LinkKept s (s.beginHold k address) := by
  unfold State.beginHold
  dsimp only
  split
  · exact .before (LinkKept.trans (linkKept_latch ..) (linkKept_mark ..)) rfl
  · exact .before (linkKept_latch ..) rfl

theorem linkKept_holdCycle (c : Cycle) (s : State) : LinkKept s (s.holdCycle c) := (linkKept_beginHold ..).trans (linkKept_of_link rfl)

theorem linkKept_decideHold (c : Cycle) (s : State) : LinkKept s (decideHold c s) := by
  unfold decideHold
  repeat' split
  all_goals first
    | with_reducible exact linkKept_holdCycle ..
    | with_reducible exact linkKept_performCycle ..
    | exact (linkKept_latch ..).trans (linkKept_performCycle ..)

theorem linkKept_holdDecision (c : Cycle) (s : State) : LinkKept s (s.holdDecision c) := by
  rw [holdDecision_eq]
  split
  · exact .before (linkKept_decideHold ..) rfl
  · exact linkKept_decideHold ..

theorem sameTables_trans {s t u : State} (h : s.sameTables t) (k : t.sameTables u) : s.sameTables u := by
  obtain ⟨a1, a2, a3, a4, a5, a6, a7, a8⟩ := h
  obtain ⟨b1, b2, b3, b4, b5, b6, b7, b8⟩ := k
  exact ⟨b1.trans a1, b2.trans a2, b3.trans a3, b4.trans a4, b5.trans a5, b6.trans a6, b7.trans a7, b8.trans a8⟩

/-! ### A guarded write with a guard level -/

/-- The claim that a guarded write raises where none stood (R32, R95). -/
def guardClaim (level : Nat) (c : Cycle) (s : State) : Claim :=
  { source := .guard, level := some level, stamp := s.timeBase, address := some c.address, window := c.window, repeats := 1, step := none }

/-- The state as the claim has been entered. -/
def claimed (level : Nat) (c : Cycle) (s : State) : State := ((seen c s).latch .guard).enterClaim (guardRaise level c)

/-- The cycle with its own claim. -/
def claiming (c : Cycle) : Cycle := { c with raised := [.guard] }

theorem claimed_run {level : Nat} {c : Cycle} {s : State} (claims : s.run.claims = []) :
    (claimed level c s).run = { s.run with claims := [guardClaim level c s] } := by
  have run : ((seen c s).latch .guard).run = s.run := seen_run c s
  have time : ((seen c s).latch .guard).timeBase = s.timeBase := seen_timeBase c s
  have none' : ((seen c s).latch .guard).run.claimOf .guard = none := by
    rw [run, RunControl.claimOf, claims]
    rfl
  have entered : (claimed level c s).run =
      { ((seen c s).latch .guard).run with claims := ((seen c s).latch .guard).claimsAfter (guardRaise level c) } := rfl
  rw [entered, claimsAfter_of_none (r := guardRaise level c) none', run, time, claims]
  rfl

theorem claimed_tables (level : Nat) (c : Cycle) (s : State) : s.sameTables (claimed level c s) := seen_tables c s

theorem claimed_noticed (level : Nat) (c : Cycle) (s : State) : (claimed level c s).noticed .guard = true ∧ (claimed level c s).noticed .claim = true :=
  ⟨(linkKept_enterClaim ..).notices _ (noticed_latch_self ..), noticed_latch_self ..⟩

theorem claimed_ownLive {level : Nat} {c : Cycle} {s : State} (claims : s.run.claims = []) :
    (claimed level c s).run.ownLive (claiming c).raised = decide (level < s.run.floor) := by
  rw [claimed_run claims]
  simp [RunControl.ownLive, RunControl.claimOf, guardClaim, Claim.live, claiming]

theorem claiming_eq {c : Cycle} (h : c.raised = []) : { c with raised := c.raised ++ [Source.guard] } = claiming c := by
  rw [h]
  rfl

/-- The write as it comes to its hold decision (R32). -/
theorem presentCycle_guardLevel {level : Nat} {c : Cycle} {s : State} {d : Byte} (strobed : Strobed (some d) c) (quiet : ∀ i : Fin 4, s.watch[i].matching = false)
    (route : c.route = .guard) (given : (resolve s.windows c.address c.lane).guardLevel = some level) :
    s.presentCycle c = (claimed level c s).holdDecision (claiming c) := by
  rw [presentCycle_claiming quiet route (strobed.write d rfl).1 given, claiming_eq strobed.raised]
  rfl

section write
variable {level : Nat} {c : Cycle} {s : State} {d : Byte}

/-- Below the floor, with wait wired, the write is held (R98, R100). -/
theorem guarded_held (hold : s.run.hold = .running) (claims : s.run.claims = []) (below : level < s.run.floor) (wired : s.port.waitWired = true) :
    HoldBegun (claiming c) (claimed level c s) ((claimed level c s).holdDecision (claiming c)).settle := by
  have run := claimed_run (level := level) (c := c) claims
  have possible : (claimed level c s).holdingPossible = true := (holdingPossible_iff _).2 (.inr ((congrArg Port.waitWired (seen_port c s)).trans wired))
  have decided : (claimed level c s).holdDecision (claiming c) = (claimed level c s).holdCycle (claiming c) := by
    rw [holdDecision_running (by rw [run]; exact hold), if_pos ((claimed_ownLive claims).trans (decide_eq_true below)), if_pos possible]
  rw [decided]
  refine holdBegun_holdCycle (.inl ?_)
  rw [run]
  simp [RunControl.anyHolding, guardClaim, Claim.holding, Claim.live, below]

/-- The run control of the held write. -/
theorem guarded_run {t : State} (claims : s.run.claims = []) (began : HoldBegun (claiming c) (claimed level c s) t) :
    t.run = { s.run with hold := .holding, claims := [guardClaim level c s], origin := some { source := .guard, level := some level },
                         timer := if s.run.holdLimit = 0 then none else some { start := s.timeBase, limit := s.run.holdLimit } } ∧
      t.trace = (s.offer (.holdBegin { source := .guard, level := some level }) true s.timeBase).trace := by
  have run := claimed_run (level := level) (c := c) claims
  have stays : (claimed level c s).run.claims.map (satisfiedBy (claiming c).kind (claiming c).address) = [guardClaim level c s] := by
    rw [run]
    rfl
  have time : (claimed level c s).timeBase = s.timeBase := seen_timeBase c s
  obtain ⟨k, mem, -, -, run', trace⟩ := began.origin
  rw [began.claims, stays, List.mem_singleton] at mem
  subst mem
  refine ⟨?_, trace.trans ?_⟩
  · rw [run', stays, begun, run, time]
    rfl
  · rw [time]
    exact offer_trace (t := claimed level c s) (seen_trace c s) ..

/-- Otherwise it is dropped, with HOLD_MISSED latched where its claim is live (R12, R98). -/
theorem guarded_dropped (strobed : Strobed (some d) c) (empty : s.port.inFlight = none) (hold : s.run.hold = .running) (rehearsal : s.run.rehearsal = false)
    (claims : s.run.claims = []) (route : c.route = .guard) (h : s.run.floor ≤ level ∨ s.port.waitWired = false) :
    ∃ u, ((claimed level c s).holdDecision (claiming c)).settle = finished c s.timeBase d u ∧ u.run = (claimed level c s).run ∧ u.port = s.port ∧ u.trace = s.trace ∧
      (claimed level c s).sameTables u ∧ (level < s.run.floor → u.noticed .holdMissed = true) := by
  have run := claimed_run (level := level) (c := c) claims
  have port : (claimed level c s).port = s.port := seen_port c s
  have kind := (strobed.write d rfl).1
  have performs : ∀ u : State, u.port = s.port → u.timeBase = s.timeBase → (u.performCycle (claiming c)).settle = finished c s.timeBase d u := by
    intro u port time
    have same : u.completeCycle (claiming c) 0 = u.completeCycle c 0 :=
      (completeCycle_quiet (c := claiming c) strobed.target (.inl kind) 0).trans (completeCycle_quiet strobed.target (.inl kind) 0).symm
    rw [performCycle_dropped (c := claiming c) (.inl route) kind, same, completeCycle_written strobed (by rw [port]; exact empty) 0, time]
    rfl
  by_cases below : level < s.run.floor
  · have wired := h.resolve_left (Nat.not_le.2 below)
    have impossible : ¬(claimed level c s).holdingPossible = true := by
      rw [holdingPossible_iff, run, port]
      simp [rehearsal, wired]
    refine ⟨(claimed level c s).latch .holdMissed, ?_, rfl, port, seen_trace c s, ⟨rfl, rfl, rfl, rfl, rfl, rfl, rfl, rfl⟩, fun _ => noticed_latch_self ..⟩
    rw [holdDecision_running (by rw [run]; exact hold), if_pos ((claimed_ownLive claims).trans (decide_eq_true below)), if_neg impossible]
    exact performs _ port (seen_timeBase c s)
  · refine ⟨claimed level c s, ?_, rfl, port, seen_trace c s, ⟨rfl, rfl, rfl, rfl, rfl, rfl, rfl, rfl⟩, fun h => absurd h below⟩
    rw [holdDecision_of_quiet (by rw [run]; exact hold) ((claimed_ownLive claims).trans (decide_eq_false below))]
    exact performs _ port (seen_timeBase c s)

theorem finished_aside (c : Cycle) (n : Stamp) (d : Byte) (u : State) : (finished c n d u).run = u.run ∧ (finished c n d u).port = u.port ∧ u.sameTables (finished c n d u) ∧
    (finished c n d u).trace = (u.offer (.cycle (servedRecord c d)) (c.capture && c.gate) n).trace := by
  refine ⟨by rw [finished, settle_run, offer_run], by rw [finished, settle_port, offer_port], ?_, settle_trace ..⟩
  simp only [State.sameTables, finished, settle_windows, settle_floatByte, settle_overlay, settle_watch, settle_probes, settle_timeBase, settle_pending, settle_freeIndex,
    offer_windows, offer_floatByte, offer_overlay, offer_watch, offer_probes, offer_timeBase, offer_pending, offer_freeIndex, and_self]

theorem linkKept_finished (c : Cycle) (n : Stamp) (d : Byte) (u : State) : LinkKept u (finished c n d u) := (linkKept_offer ..).trans (linkKept_settle _)

/-- What a guarded write does (R12, R32, R98, R100). -/
theorem guarded_cases (strobed : Strobed (some d) c) (may : s.mayPresent = true) (hold : s.run.hold = .running) (rehearsal : s.run.rehearsal = false)
    (claims : s.run.claims = []) (route : c.route = .guard) {t : State} (result : t = ((claimed level c s).holdDecision (claiming c)).settle) :
    s.sameTables t ∧ t.noticed .guard = true ∧ t.noticed .claim = true ∧
    (level < s.run.floor → s.port.waitWired = true →
      t.run = { s.run with hold := .holding, claims := [guardClaim level c s], origin := some { source := .guard, level := some level },
                           timer := if s.run.holdLimit = 0 then none else some { start := s.timeBase, limit := s.run.holdLimit } } ∧
      t.port = { s.port with inFlight := some (heldCycle (claiming c)) } ∧
      t.trace = (s.offer (.holdBegin { source := .guard, level := some level }) true s.timeBase).trace ∧ t.noticed .hold = true ∧ t.wait = true) ∧
    (s.run.floor ≤ level ∨ s.port.waitWired = false →
      t.run = { s.run with claims := [guardClaim level c s] } ∧ t.port = s.port ∧
      t.trace = (s.offer (.cycle (servedRecord c d)) (c.capture && c.gate) s.timeBase).trace ∧
      t.wait = false ∧ (level < s.run.floor → t.noticed .holdMissed = true)) := by
  obtain ⟨prst, powered, -, empty⟩ := (mayPresent_iff s).1 may
  have kept : LinkKept (claimed level c s) t := result ▸ (linkKept_holdDecision ..).trans (linkKept_settle _)
  have noticed := claimed_noticed level c s
  refine ⟨?_, kept.notices _ noticed.1, kept.notices _ noticed.2, fun below wired => ?_, fun h => ?_⟩
  · by_cases h : s.run.floor ≤ level ∨ s.port.waitWired = false
    · obtain ⟨u, eq, -, -, -, tables, -⟩ := guarded_dropped strobed empty hold rehearsal claims route h
      rw [result, eq]
      exact sameTables_trans (claimed_tables level c s) (sameTables_trans tables (finished_aside ..).2.2.1)
    · obtain ⟨below, wired⟩ := not_or.1 h
      exact sameTables_trans (claimed_tables level c s)
        (result ▸ (guarded_held hold claims (Nat.not_le.1 below) (Bool.eq_true_of_not_eq_false wired)).tables)
  · have began := guarded_held (c := c) hold claims below wired
    rw [← result] at began
    obtain ⟨run, trace⟩ := guarded_run claims began
    have port : (claimed level c s).port = s.port := seen_port c s
    refine ⟨run, began.port.trans (by rw [port]), trace, began.noticed, began.wait strobed.target ?_ ?_⟩
    · rw [port]; exact powered
    · rw [port]; exact prst
  · obtain ⟨u, eq, run, port, store, -, missed⟩ := guarded_dropped strobed empty hold rehearsal claims route h
    obtain ⟨run', port', -, trace⟩ := finished_aside c s.timeBase d u
    rw [← result] at eq
    rw [← eq] at run' port' trace
    have kept' : LinkKept u t := eq ▸ linkKept_finished ..
    exact ⟨run'.trans (run.trans (claimed_run claims)), port'.trans port, trace.trans (offer_trace store ..),
      wait_of_none (by rw [port', port]; exact empty), fun below => kept'.notices _ (missed below)⟩

end write

/-- Settles O35: the claim entered, then the hold decision of R98 by the level and the wiring. -/
theorem guardedWriteIsHeld : Obligations.GuardedWriteIsHeld := by
  intro address d fetch selects level s c claim record may quiet hold rehearsal claims route given
  have strobed := targetCycle_strobed address (some d) fetch selects s
  have row := exec_cyclePresented_mapped (fetch := fetch) (selects := selects) may (strobed.mapped route rfl s.overlay.maps)
  rw [presentCycle_guardLevel strobed quiet route given] at row
  have record' : servedRecord c d = record := by
    rw [servedRecord, route]
    rfl
  obtain ⟨tables, guard, noticed, held, dropped⟩ := guarded_cases strobed may hold rehearsal claims route rfl
  rw [record'] at dropped
  exact ⟨_, row, tables, guard, noticed, held, dropped⟩

end Sys2Proof.GuardRows
end

section
/-! PROOFS. The end of a board access (R9, R14, R138, R143). -/

namespace Sys2Proof.BoardRows

open Sys2Proof Sys2Proof.Machine Sys2Proof.Resets Sys2Proof.CycleRows

/-! ### BOARD_ACCESS_END by the owner of the bus -/

section Owners

variable {s : State} (prst : s.port.prst = false) (data : Byte)

include prst

theorem exec_boardAccessEnd_free (owner : s.bus.owner = .free) : exec (.boardAccessEnd data) s = .next s := by
  have meaning : exec (.boardAccessEnd data) s = execBoardAccessEnd data s := rfl
  rw [meaning, execBoardAccessEnd, if_neg (Bool.eq_false_iff.1 prst), owner]

theorem exec_boardAccessEnd_survey (owner : s.bus.owner = .engine .lineSurvey) : exec (.boardAccessEnd data) s = .next s := by
  have meaning : exec (.boardAccessEnd data) s = execBoardAccessEnd data s := rfl
  rw [meaning, execBoardAccessEnd, if_neg (Bool.eq_false_iff.1 prst), owner]

theorem exec_boardAccessEnd_target {c : Cycle} (owner : s.bus.owner = .target) (inFlight : s.port.inFlight = some c) :
    exec (.boardAccessEnd data) s = .next (s.freeBus.completeCycle c data).settle := by
  have meaning : exec (.boardAccessEnd data) s = execBoardAccessEnd data s := rfl
  rw [meaning, execBoardAccessEnd, if_neg (Bool.eq_false_iff.1 prst), owner]
  dsimp only
  rw [State.targetAccessEnd, inFlight]

theorem exec_boardAccessEnd_ended {lane : Fin 4} {a : Access} (owner : s.bus.owner = .ended lane a) :
    exec (.boardAccessEnd data) s = .next (s.recordAccess lane a data).freeBus.settle := by
  have meaning : exec (.boardAccessEnd data) s = execBoardAccessEnd data s := rfl
  rw [meaning, execBoardAccessEnd, if_neg (Bool.eq_false_iff.1 prst), owner]

theorem exec_boardAccessEnd_last {lane : Fin 4} {a : Access} (owner : s.bus.owner = .engine (.accesses lane [a])) :
    exec (.boardAccessEnd data) s = .next ((s.recordAccess lane a data).freeBus.engineAccessEnd data).settle := by
  have meaning : exec (.boardAccessEnd data) s = execBoardAccessEnd data s := rfl
  rw [meaning, execBoardAccessEnd, if_neg (Bool.eq_false_iff.1 prst), owner]

theorem exec_boardAccessEnd_more {lane : Fin 4} {a b : Access} {rest : List Access} (owner : s.bus.owner = .engine (.accesses lane (a :: b :: rest))) :
    exec (.boardAccessEnd data) s = .next { s.recordAccess lane a data with
      bus := { (s.recordAccess lane a data).bus with owner := .engine (.accesses lane (b :: rest)) } } := by
  have meaning : exec (.boardAccessEnd data) s = execBoardAccessEnd data s := rfl
  rw [meaning, execBoardAccessEnd, if_neg (Bool.eq_false_iff.1 prst), owner]

end Owners

/-- The ENGINE record commutes with what becomes of the bus. -/
theorem recordAccess_bus (lane : Fin 4) (a : Access) (data : Byte) (s : State) (o : Owner) :
    { s.recordAccess lane a data with bus := { (s.recordAccess lane a data).bus with owner := o } } =
      State.offer (.engine a.address lane (a.write.getD data) a.write.isSome) true s.timeBase { s with bus := { s.bus with owner := o } } := by
  have kept : (s.recordAccess lane a data).bus = s.bus := offer_bus ..
  rw [offer_eq (s := s) (t := { s with bus := { s.bus with owner := o } }) rfl rfl, kept, State.recordAccess, State.mark, offer_eq (s := s) rfl rfl]

theorem recordAccess_freeBus (lane : Fin 4) (a : Access) (data : Byte) (s : State) :
    (s.recordAccess lane a data).freeBus = State.offer (.engine a.address lane (a.write.getD data) a.write.isSome) true s.timeBase s.freeBus :=
  recordAccess_bus lane a data s .free

/-! ### The end of a BENCH access -/

theorem runTransfer_nil (t : Transfer) (s : State) : s.runTransfer [] t = s.finishTransfer { t with todo := [] } := rfl

theorem runTransfer_bound {b : TransferByte} (h : b.boardBound = true) (rest : List TransferByte) (t : Transfer) (s : State) :
    s.runTransfer (b :: rest) t = (s.occupy (.transfer { t with todo := b :: rest })).requestBench := by
  rw [State.runTransfer, if_pos h]

theorem finishTransfer_peek {t : Transfer} (h : t.form = .peek) (s : State) : s.finishTransfer t = s.respond .ok 0x50 (.peeked t.made t.count) := by
  rw [State.finishTransfer, h]

theorem finishTransfer_poke {t : Transfer} (h : t.form = .poke) (s : State) : s.finishTransfer t = s.respond .ok 0x51 (.poked t.count) := by
  rw [State.finishTransfer, h]

theorem transferAccessEnd_of_transfer {s : State} {tr : Transfer} {b : TransferByte} {rest : List TransferByte} (activity : s.link.activity = .transfer tr)
    (todo : tr.todo = b :: rest) (data : Byte) : s.transferAccessEnd data = (s.transferWrite b).runTransfer rest (tr.made' b data) := by
  rw [State.transferAccessEnd, activity]
  dsimp only
  rw [todo]

/-! ### The completion of a cycle -/

theorem armOrMiss_activity (s : State) : s.armOrMiss.link.activity = s.link.activity := by
  unfold State.armOrMiss
  split <;> rfl

theorem actOnClaim_activity (source : Source) (s : State) : (s.actOnClaim source).link.activity = s.link.activity := by
  unfold State.actOnClaim
  repeat' split
  all_goals first
    | with_reducible rfl
    | with_reducible exact armOrMiss_activity s
    | rfl

theorem traceStop_activity (s : State) : s.traceStop.link.activity = s.link.activity := by
  rw [traceStop_traceOnly s]

theorem traceStart_activity (s : State) : s.traceStart.link.activity = s.link.activity := by
  unfold State.traceStart
  split <;> rfl

theorem fireAtDelivery_activity (i : Fin 4) (a : Actions) (address : Nat) (e : Evaluation) (s : State) :
    (fireAtDelivery i a address (e, s)).2.link.activity = s.link.activity := by
  unfold fireAtDelivery
  cases a.hold with
  | none =>
    dsimp only
    split <;> rfl
  | some level =>
    dsimp only
    split <;> exact actOnClaim_activity ..

theorem deliverUnit_activity (data : Byte) (address : Nat) (p : Evaluation × State) (i : Fin 4) :
    (deliverUnit data address p i).2.link.activity = p.2.link.activity := by
  unfold deliverUnit
  dsimp only
  repeat' split
  · exact fireAtDelivery_activity ..
  · rfl
  · rfl
  · rfl

theorem readDataEvaluate_activity (data : Byte) (address : Nat) (s : State) : (readDataEvaluate data address s).2.link.activity = s.link.activity := by
  have units : ∀ (l : List (Fin 4)) (p : Evaluation × State), (l.foldl (deliverUnit data address) p).2.link.activity = p.2.link.activity := by
    intro l
    induction l with
    | nil => exact fun p => rfl
    | cons i l ih => exact fun p => (ih _).trans (deliverUnit_activity data address p i)
  unfold readDataEvaluate
  dsimp only
  refine .trans ?_ (units [0, 1, 2, 3] ({ matched := 0, fired := 0, raised := [], start := false, stop := false }, s))
  repeat' split
  · exact (traceStop_activity _).trans (traceStart_activity _)
  · exact traceStop_activity _
  · exact traceStart_activity _
  · rfl

theorem evaluated_activity (c : Cycle) (data : Byte) (s : State) : (evaluated c data s).2.link.activity = s.link.activity := by
  have left : (gone c data s).link.activity = s.link.activity := recorded_activity ..
  unfold evaluated
  split
  · exact left
  · exact (readDataEvaluate_activity data c.address (gone c data s)).trans left

/-- The completion of an injected cycle answers the command in progress (R9, R108). -/
theorem completeCycle_injected {c : Cycle} {s : State} (data : Byte) (injected : c.injected = true) :
    (s.link.activity = .inject → s.completeCycle c data =
      (evaluated c data s).2.respond .ok 0x37
        (.inject c.window c.route c.matched c.fired c.raised c.held false (evaluated c data s).2.run.hold (some (deliveryOf c data s)))) ∧
    (s.link.activity = .release → s.completeCycle c data =
      (evaluated c data s).2.respond .ok 0x33
        (.release (evaluated c data s).2.run.hold (byUrgency (evaluated c data s).2.run.claims) (evaluated c data s).2.run.floor (some (deliveryOf c data s)))) ∧
    (s.link.activity = .floor → s.completeCycle c data = (evaluated c data s).2.respond .ok 0x31 (.floor (some (deliveryOf c data s)))) ∧
    (s.link.activity ≠ .inject → s.link.activity ≠ .release → s.link.activity ≠ .floor → s.completeCycle c data = (evaluated c data s).2) := by
  rw [completeCycle_eq, ← evaluated_activity c data s]
  exact ⟨fun activity => answerInjected_of_inject injected activity .., fun activity => answerInjected_of_release injected activity ..,
    fun activity => answerInjected_of_floor injected activity .., fun inject release floor => answerInjected_of_other inject release floor ..⟩

/-- Settles O37: the completion of a cycle, and the access by the owner whose it is. -/
theorem boardAccessEnds : Obligations.BoardAccessEnds := by
  refine ⟨fun c data s => ⟨fun target => completeCycle_of_target target data s, fun injected => (completeCycle_injected data injected).1,
    fun injected => (completeCycle_injected data injected).2.1, fun injected => (completeCycle_injected data injected).2.2.1,
    fun injected => (completeCycle_injected data injected).2.2.2⟩, fun data s prst => ⟨fun c owner inFlight => ?_, fun lane a b rest owner => ?_,
    fun lane a owner => ?_, fun lane a owner => ?_, fun tr b rest owner activity todo mapped => ?_, fun unowned => ?_⟩⟩
  · exact exec_boardAccessEnd_target prst data owner inFlight
  · rw [exec_boardAccessEnd_more prst data owner, recordAccess_bus]
  · rw [exec_boardAccessEnd_last prst data owner, recordAccess_freeBus]
    rfl
  · rw [exec_boardAccessEnd_ended prst data owner, recordAccess_freeBus]
    rfl
  · have ended : exec (.boardAccessEnd data) s = .next ((s.freeBus.transferWrite b).runTransfer rest (tr.made' b data)).settle := by
      rw [exec_boardAccessEnd_of_bench prst owner, if_pos mapped, transferAccessEnd_of_transfer (s := s.freeBus) activity todo]
    refine ⟨fun last form => ?_, fun last form => ?_, fun b2 rest2 more bound => ?_, ended⟩
    · rw [ended, last, runTransfer_nil, finishTransfer_peek (t := { tr.made' b data with todo := [] }) form]
      rfl
    · rw [ended, last, runTransfer_nil, finishTransfer_poke (t := { tr.made' b data with todo := [] }) form]
      rfl
    · rw [ended, more, runTransfer_bound bound]
      rfl
  · rcases unowned with owner | owner
    · exact exec_boardAccessEnd_free prst data owner
    · exact exec_boardAccessEnd_survey prst data owner

end Sys2Proof.BoardRows
end

section
/-! PROOFS. INJECT (R4, R108, R116). -/

namespace Sys2Proof.InjectRows

open Sys2Proof Sys2Proof.Machine Sys2Proof.Resets Sys2Proof.BenchLink Sys2Proof.RunSound Sys2Proof.LinkKeeping Sys2Proof.WindowRows
  Sys2Proof.ClaimRows Sys2Proof.CycleRows Sys2Proof.PresentRows Sys2Proof.ServeRows Sys2Proof.GuardRows Sys2Proof.BoardRows

/-! ### What settling leaves of the answer on the line -/

/-- The command in progress, and the answer on the line. -/
structure Unanswered (s t : State) : Prop where
  activity : t.link.activity = s.link.activity
  sent : t.link.sent = s.link.sent

theorem unanswered_refl (s : State) : Unanswered s s := ⟨rfl, rfl⟩

theorem Unanswered.trans {s t u : State} (h : Unanswered s t) (k : Unanswered t u) : Unanswered s u :=
  ⟨k.activity.trans h.activity, k.sent.trans h.sent⟩

theorem unanswered_of_link {s t : State} (h : t.link = s.link) : Unanswered s t := ⟨by rw [h], by rw [h]⟩

theorem unanswered_setJob (n : Nat) (x : JobState) (s : State) : Unanswered s (s.setJob n x) := unanswered_of_link rfl

theorem unanswered_askBoard (j : Job) (a : Active) (l : List Access) (s : State) : Unanswered s (s.askBoard j a l) := unanswered_of_link rfl

theorem unanswered_endJob (j : Job) (c : Completion) (s : State) : Unanswered s (s.endJob j c) := by
  unfold State.endJob State.unbind
  dsimp only
  split <;> exact ⟨rfl, rfl⟩

theorem unanswered_programDone (j : Job) (a : Active) (s : State) : Unanswered s (s.programDone j a) := by
  unfold State.programDone
  split
  · exact unanswered_askBoard ..
  · exact unanswered_endJob ..

theorem unanswered_programStep (j : Job) (a : Active) (p : Profile) (f : FlashPart) (s : State) : Unanswered s (s.programStep j a p f) := by
  unfold State.programStep
  dsimp only
  repeat' split
  · exact unanswered_programDone ..
  · exact unanswered_askBoard ..
  · exact unanswered_askBoard ..

theorem unanswered_ramStep (j : Job) (a : Active) (s : State) : Unanswered s (s.ramStep j a) := by
  unfold State.ramStep
  split
  · exact unanswered_programDone ..
  · exact unanswered_askBoard ..

theorem unanswered_eraseStep (j : Job) (a : Active) (p : Profile) (f : FlashPart) (s : State) : Unanswered s (s.eraseStep j a p f) := by
  unfold State.eraseStep
  split <;> exact unanswered_askBoard ..

theorem unanswered_beginWork (j : Job) (a : Active) (p : Profile) (s : State) : Unanswered s (s.beginWork j a p) := by
  unfold State.beginWork
  repeat' split
  all_goals first
    | with_reducible exact unanswered_eraseStep ..
    | with_reducible exact unanswered_programStep ..
    | with_reducible exact unanswered_ramStep ..
    | with_reducible exact unanswered_askBoard ..
    | with_reducible exact unanswered_refl s

theorem cutTransfer_of_none {s : State} (none' : ∀ tr, s.link.activity ≠ .transfer tr) (cut : TransferByte → Bool) : s.cutTransfer cut = s := by
  unfold State.cutTransfer
  cases activity : s.link.activity with
  | transfer tr => exact absurd activity (none' tr)
  | idle | sending | inject | release | floor | abort | rateChange r | reset => rfl

/-- A job that starts answers nothing, unless it cuts a transfer short (R145). -/
theorem unanswered_startJob {s : State} (none' : ∀ tr, s.link.activity ≠ .transfer tr) (j : Job) : Unanswered s (s.startJob j) := by
  have course : ∀ (t : State) (p : Profile), Unanswered t (if j.op.writeClass && t.laneFault p then
        t.finishJob j (j.startWork s.timeBase) .lineFault (some j.address) none none none
      else match p.flash, t.lanes[j.lane].owed with
        | some f, true => t.askBoard j { j.startWork s.timeBase with phase := .owedReset } [p.pairAccess f.resetPair]
        | _, _ => t.beginWork j (j.startWork s.timeBase) p) := by
    intro t p
    repeat' split
    · exact unanswered_endJob ..
    · exact unanswered_askBoard ..
    · exact unanswered_beginWork ..
  have cut := cutTransfer_of_none (s := s.setJob j.number (.active (j.startWork s.timeBase))) none'
  have marked := unanswered_setJob j.number (.active (j.startWork s.timeBase)) s
  unfold State.startJob
  dsimp only
  split
  · exact marked
  · next p _ =>
    rw [cut, ite_self]
    exact marked.trans (course _ p)

theorem unanswered_judgeOnce {s : State} (none' : ∀ tr, s.link.activity ≠ .transfer tr) : Unanswered s s.judgeOnce := by
  unfold State.judgeOnce
  repeat' split
  · exact unanswered_refl s
  · exact unanswered_refl s
  · exact unanswered_startJob none' _
  · exact unanswered_setJob ..

theorem unanswered_judgeTimes (n : Nat) {s : State} (none' : ∀ tr, s.link.activity ≠ .transfer tr) : Unanswered s (s.judgeTimes n) := by
  induction n generalizing s with
  | zero => exact unanswered_refl s
  | succ n ih =>
    have once := unanswered_judgeOnce none'
    exact once.trans (ih fun tr => by rw [once.activity]; exact none' tr)

theorem settleAbort_of_notKept {s : State} (h : s.busKept = false) : s.settleAbort = s := by
  unfold State.settleAbort
  repeat' split
  · rfl
  · next kept => exact absurd kept.2.2 (Bool.eq_false_iff.1 h)
  · rfl
  · rfl

theorem unanswered_arbitrate (s : State) : Unanswered s s.arbitrate := unanswered_of_link (MappedOverlay.arbitrate_aside s).2

/-- Where the bus is not kept and no bytes are moved, what follows a change answers nothing (R145, R181). -/
theorem unanswered_settle {s : State} (none' : ∀ tr, s.link.activity ≠ .transfer tr) (free : s.busKept = false) : Unanswered s s.settle := by
  obtain ⟨-, port, run, -⟩ := judgeStart_engineOnly s
  have still : s.judgeStart.busKept = false := by
    rw [← free]
    simp only [State.busKept, port, run]
  rw [State.settle, settleAbort_of_notKept still]
  exact (unanswered_judgeTimes _ none').trans (unanswered_arbitrate _)

/-! ### The fields of INJECT -/

theorem kind_ofCode (kind : Nat) : Kind.ofCode kind = match kind with | 0 => some .read | 1 => some .fetch | 2 => some .write | _ => none := by
  match kind with
  | 0 => rfl
  | 1 => rfl
  | 2 => rfl
  | n + 3 => rfl

theorem cycleLaneOfCode_eq (lane : Nat) : cycleLaneOfCode lane = if h : lane < 4 then some (some ⟨lane, h⟩) else if lane = 7 then some none else none := by
  unfold cycleLaneOfCode
  by_cases inRange : lane < 4
  · rw [if_neg (by omega), dif_pos inRange, laneOfCode_of_lt inRange]
    rfl
  · rw [dif_neg inRange, laneOfCode_of_not_lt inRange]
    rfl

theorem cycleLaneOfCode_isSome (lane : Nat) : (cycleLaneOfCode lane).isSome = true ↔ lane < 4 ∨ lane = 7 := by
  rw [cycleLaneOfCode_eq]
  by_cases inRange : lane < 4
  · simp [inRange]
  · by_cases seven : lane = 7 <;> simp [inRange, seven]

/-- What R116 refuses of an INJECT's fields. -/
def BadInject (address lane kind : Nat) (data : Option Byte) : Prop := 0xFFFFF < address ∨ (3 < lane ∧ lane ≠ 7) ∨ 2 < kind ∨ (kind = 2 ∧ data = none)

theorem injectFields_isSome (address lane kind : Nat) (data : Option Byte) : (injectFields address lane kind data).isSome = true ↔
    address ≤ 0xFFFFF ∧ (lane < 4 ∨ lane = 7) ∧ (kind < 2 ∨ (kind = 2 ∧ data ≠ none)) := by
  have limit : Config.addressLimit = 0x100000 := rfl
  have inRange : address < 0x100000 ↔ address ≤ 0xFFFFF := by omega
  rw [← cycleLaneOfCode_isSome, injectFields, limit, ← inRange, kind_ofCode]
  cases cycleLaneOfCode lane with
  | none => simp
  | some l =>
    match kind with
    | 0 => simp
    | 1 => simp
    | 2 => cases data <;> simp
    | n + 3 => simp

theorem injectFields_of_bad {address lane kind : Nat} {data : Option Byte} (bad : BadInject address lane kind data) : injectFields address lane kind data = none := by
  rw [← Option.not_isSome_iff_eq_none, injectFields_isSome]
  rintro ⟨inRange, selects, kinds⟩
  rcases bad with far | ⟨beyond, other⟩ | unknown | ⟨write, missing⟩
  · omega
  · omega
  · omega
  · rcases kinds with read | ⟨-, given⟩
    · omega
    · exact given missing

theorem injectFields_of_good {address lane kind : Nat} {data : Option Byte} (good : ¬BadInject address lane kind data) :
    (injectFields address lane kind data).isSome = true := by
  rw [BadInject] at good
  rw [injectFields_isSome]
  refine ⟨by omega, by omega, ?_⟩
  by_cases read : kind < 2
  · exact .inl read
  · exact .inr ⟨by omega, fun missing => good (.inr (.inr (.inr ⟨by omega, missing⟩)))⟩

theorem injectFields_eq {address lane kind : Nat} {data : Option Byte} {l : Lane} {k : Kind} (good : ¬BadInject address lane kind data)
    (selects : cycleLaneOfCode lane = some l) (decodes : Kind.ofCode kind = some k) : injectFields address lane kind data = some (l, k) := by
  have given := injectFields_of_good good
  unfold injectFields at given ⊢
  rw [selects, decodes] at given ⊢
  dsimp only at given ⊢
  split at given
  · next admitted => rw [if_pos admitted]
  · exact absurd given Bool.false_ne_true

theorem mustWait_inject (address lane kind : Nat) (data : Option Byte) (s : State) : Instr.mustWait (.inject address lane kind data) s = true ↔
    (address ≤ 0xFFFFF ∧ (lane < 4 ∨ lane = 7) ∧ (kind < 2 ∨ (kind = 2 ∧ data ≠ none))) ∧ s.run.rehearsal = true ∧ s.run.hold ≠ .holding ∧
      s.port.inFlight ≠ none := by
  rw [← injectFields_isSome]
  simp only [Instr.mustWait, Bool.and_eq_true, decide_eq_true_eq, Option.isSome_iff_ne_none (o := s.port.inFlight), and_assoc]

/-- An INJECT that is taken, and that no check refuses, finds no cycle in flight (R116; log 17). -/
theorem noCycle_of_takes {address lane kind : Nat} {data : Option Byte} {s t : State} (taken : s.takes (.inject address lane kind data) t)
    (good : ¬BadInject address lane kind data) (rehearsal : t.run.rehearsal = true) (hold : t.run.hold ≠ .holding) : t.port.inFlight = none := by
  obtain ⟨⟨-, -, free, leaves⟩, -⟩ := taken
  have same : t.port = s.port ∧ t.run = s.run := by
    rcases leaves with ⟨-, rfl⟩ | ⟨_, _, -, -, rfl⟩ <;> exact ⟨rfl, rfl⟩
  by_contra busy
  rw [same.1] at busy
  rw [same.2] at rehearsal hold
  exact Bool.eq_false_iff.1 free ((mustWait_inject ..).2 ⟨(injectFields_isSome ..).1 (injectFields_of_good good), rehearsal, hold, busy⟩)

/-! ### The rows of INJECT -/

section rows
variable {address lane kind : Nat} {data : Option Byte} {s t : State} (taken : s.takes (.inject address lane kind data) t)

include taken

theorem exec_inject_bad (bad : BadInject address lane kind data) : exec (.inject address lane kind data) s = .next (t.respond .badValue 0x37 .empty) := by
  refine (exec_of_takes rfl taken).trans ?_
  rw [injectFields_of_bad bad]
  rfl

theorem exec_inject_outside (good : ¬BadInject address lane kind data) (rehearsal : t.run.rehearsal = false) :
    exec (.inject address lane kind data) s = .next (t.respond .wrongState 0x37 .empty) := by
  refine (exec_of_takes rfl taken).trans ?_
  obtain ⟨⟨l, k⟩, fields⟩ := Option.isSome_iff_exists.1 (injectFields_of_good good)
  rw [fields]
  exact if_pos rehearsal

theorem exec_inject_holding (good : ¬BadInject address lane kind data) (rehearsal : t.run.rehearsal = true) (hold : t.run.hold = .holding) :
    exec (.inject address lane kind data) s = .next (t.respond .cycleHeld 0x37 .empty) := by
  refine (exec_of_takes rfl taken).trans ?_
  obtain ⟨⟨l, k⟩, fields⟩ := Option.isSome_iff_exists.1 (injectFields_of_good good)
  rw [fields]
  exact (if_neg (by simp [rehearsal])).trans (if_pos hold)

theorem exec_inject_presents {l : Lane} {k : Kind} (good : ¬BadInject address lane kind data) (rehearsal : t.run.rehearsal = true) (hold : t.run.hold ≠ .holding)
    (selects : cycleLaneOfCode lane = some l) (decodes : Kind.ofCode kind = some k) : exec (.inject address lane kind data) s =
      if (t.present address l k data false true).location.all t.overlay.maps
        then .next ((t.occupy .inject).presentCycle (t.present address l k data false true)).settle.injectAnswered else .fault .noOverlayPage := by
  refine (exec_of_takes rfl taken).trans ?_
  rw [injectFields_eq good selects decodes]
  exact (if_neg (by simp [rehearsal])).trans (if_neg hold)

end rows

/-- What an injected cycle does not carry yet. -/
structure Injected (c : Cycle) : Prop where
  injected : c.injected = true
  contention : c.contention = false
  raised : c.raised = []
  noStop : c.stopAfter = false
  waiting : c.waiting = false
  held : c.held = false
  substituted : c.substituted = false
  stretched : c.stretched = false
  matched : c.matched = 0
  fired : c.fired = 0

theorem injected_present (address : Nat) (l : Lane) (k : Kind) (data : Option Byte) (s : State) : Injected (s.present address l k data false true) :=
  ⟨rfl, rfl, rfl, rfl, rfl, rfl, rfl, rfl, rfl, rfl⟩

theorem seen_injected {c : Cycle} (h : Injected c) (s : State) : seen c s = s := if_neg (Bool.eq_false_iff.1 h.contention)

/-- The cycle evaluated by the watch units, then decided (R6, R7). -/
def evaluatedAndDecided (c : Cycle) (s : State) : State := (watchEvaluate c s).2.holdDecision (watchEvaluate c s).1

theorem presentCycle_plain {c : Cycle} (h : Injected c) {s : State} (plain : ¬(c.route = .guard ∧ c.isWrite = true)) :
    s.presentCycle c = evaluatedAndDecided c s := by
  rw [presentCycle_eq, guardWrite_of_not plain, seen_injected h]
  rfl

theorem presentCycle_noLevel {c : Cycle} (h : Injected c) {s : State} (route : c.route = .guard) (write : c.kind = .write)
    (noLevel : (resolve s.windows c.address c.lane).guardLevel = none) : s.presentCycle c = evaluatedAndDecided c (s.latch .guard) := by
  rw [presentCycle_eq, seen_injected h, noLevel, guardWrite_of_noLevel route write]
  rfl

theorem presentCycle_level {c : Cycle} (h : Injected c) {s : State} {level : Nat} (route : c.route = .guard) (write : c.kind = .write)
    (given : (resolve s.windows c.address c.lane).guardLevel = some level) :
    s.presentCycle c = evaluatedAndDecided { c with raised := [.guard] } ((s.latch .guard).enterClaim (guardRaise level c)) := by
  rw [presentCycle_eq, seen_injected h, given, guardWrite_of_level route write, h.raised]
  rfl

theorem injectAnswered_held {c : Cycle} {s : State} (inFlight : s.port.inFlight = some c) (held : c.phase = .held) :
    s.injectAnswered = s.respond .ok 0x37 (.inject c.window c.route c.matched c.fired c.raised c.held false s.run.hold none) := by
  rw [State.injectAnswered, inFlight]
  exact if_pos held

theorem injectAnswered_none {s : State} (empty : s.port.inFlight = none) : s.injectAnswered = s := by rw [State.injectAnswered, empty]

/-- What INJECT answers of the state that its cycle comes to. -/
theorem injectAnswered_eq (u : State) : u.injectAnswered = match u.port.inFlight with
    | some h => if h.phase = .held then u.respond .ok 0x37 (.inject h.window h.route h.matched h.fired h.raised h.held false u.run.hold none) else u
    | none => u := rfl

/-! ### A FLOAT read that no watch unit tests -/

/-- Its record (R125). -/
def floatRecord (c : Cycle) (s : State) : CycleRecord :=
  { address := c.address, lane := c.lane, data := s.floatByte, window := c.window, route := .float, kind := c.kind, held := false, substituted := false,
    stretched := false, contention := false, abandoned := false, injected := true, matched := 0, fired := 0 }

theorem recordWith_float {c : Cycle} {s : State} (h : Injected c) (route : c.route = .float) (read : c.kind ≠ .write) :
    recordWith c false s.floatByte = floatRecord c s := by
  rw [recordWith, if_neg read, route, h.held, h.substituted, h.stretched, h.contention, h.injected, h.matched, h.fired]
  rfl

/-- Its delivery (R108). -/
def floatDelivery (c : Cycle) (s : State) : Delivery :=
  { abandoned := false, byte := some s.floatByte, matched := 0, fired := 0, raised := [], seq := numberOf c (floatRecord c s) s }

/-- The state as it has completed and answered. -/
def floatAnswered (c : Cycle) (s : State) : State :=
  (gone c s.floatByte s).respond .ok 0x37 (.inject c.window c.route 0 0 [] false false s.run.hold (some (floatDelivery c s)))

theorem performCycle_floatInjected {c : Cycle} {s : State} (h : Injected c) (activity : s.link.activity = .inject) (quiet : ∀ i : Fin 4, s.watch[i].pendingData = false)
    (route : c.route = .float) (read : c.kind ≠ .write) : s.performCycle c = floatAnswered c s := by
  have result := evaluated_of_quiet (c := c) (.inr quiet) s.floatByte
  have delivery : deliveryOf c s.floatByte s = floatDelivery c s := by
    rw [deliveryOf, result, if_neg read, recordWith_float h route read]
    rfl
  have run : (gone c s.floatByte s).run = s.run := recorded_run ..
  rw [performCycle_float route, (completeCycle_injected s.floatByte h.injected).1 activity, result, delivery, h.matched, h.fired, h.raised, h.held]
  dsimp only
  rw [run]
  rfl

/-- What is left behind by an injected FLOAT read in RUNNING (R33, R108). -/
structure FloatServed (c : Cycle) (t u : State) : Prop where
  tables : t.sameTables u
  run : u.run = t.run
  port : u.port = t.port
  activity : u.link.activity = .sending
  trace : u.trace = (t.offer (.cycle (floatRecord c t)) (c.capture && c.gate) t.timeBase).trace
  sent : u.link.sent = some { status := .ok, code := 0x37, answer := .inject c.window .float 0 0 [] false false .running (some (floatDelivery c t)) }

theorem floatServed {c : Cycle} {t : State} (h : Injected c) (route : c.route = .float) (read : c.kind ≠ .write) (hold : t.run.hold = .running)
    (rehearsal : t.run.rehearsal = true) (empty : t.port.inFlight = none) : FloatServed c t (floatAnswered c (t.occupy .inject)).settle := by
  have left : floatAnswered c (t.occupy .inject) = State.respond .ok 0x37 (.inject c.window c.route 0 0 [] false false t.run.hold (some (floatDelivery c t)))
      ((t.occupy .inject).offer (.cycle (floatRecord c t)) (c.capture && c.gate) t.timeBase) := by
    rw [floatAnswered, settle_gone (s := t.occupy .inject) h.noStop empty, if_pos (.inr h.injected), recordWith_float h route read]
    rfl
  have port : (floatAnswered c (t.occupy .inject)).port = t.port := by
    rw [left]
    exact offer_port ..
  have run : (floatAnswered c (t.occupy .inject)).run = t.run := by
    rw [left]
    exact offer_run ..
  have free : (floatAnswered c (t.occupy .inject)).busKept = false := by
    simp [State.busKept, run, rehearsal]
  have still := unanswered_settle (s := floatAnswered c (t.occupy .inject)) (fun tr => Activity.noConfusion) free
  refine ⟨?_, (settle_run _).trans run, (settle_port _).trans port, still.activity, ?_, still.sent.trans ?_⟩
  · simp only [State.sameTables, settle_windows, settle_floatByte, settle_overlay, settle_watch, settle_probes, settle_timeBase, settle_pending, settle_freeIndex, left]
    simp only [State.respond_windows, State.respond_floatByte, State.respond_overlay, State.respond_watch, State.respond_probes, State.respond_timeBase,
      State.respond_pending, State.respond_freeIndex, offer_windows, offer_floatByte, offer_overlay, offer_watch, offer_probes, offer_timeBase, offer_pending,
      offer_freeIndex]
    exact ⟨rfl, rfl, rfl, rfl, rfl, rfl, rfl, rfl⟩
  · rw [settle_trace, left]
    exact offer_trace (s := t) (t := t.occupy .inject) rfl ..
  · rw [left, route, hold]
    rfl

/-- A cycle of HOLD_ARMED that is held (R99). -/
theorem heldAnswered {c : Cycle} {t : State} (rests : t.run.anyHolding = true ∨ t.run.stepAdmits c.kind = true) :
    ∃ u, ((t.occupy .inject).holdCycle c).settle.injectAnswered =
        u.respond .ok 0x37 (.inject c.window c.route c.matched c.fired c.raised true false .holding none) ∧ HoldBegun c (t.occupy .inject) u := by
  have began := holdBegun_holdCycle (c := c) (s := t.occupy .inject) rests
  refine ⟨_, ?_, began⟩
  rw [injectAnswered_held (c := heldCycle c) (by rw [began.port]) rfl, began.hold]
  rfl

/-- The rows of an INJECT whose cycle is presented, once for the cycle (R4, R116). -/
theorem inject_cases {c : Cycle} {t : State} {result : Result} (h : Injected c)
    (row : result = if c.location.all t.overlay.maps then .next ((t.occupy .inject).presentCycle c).settle.injectAnswered else .fault .noOverlayPage)
    (mapped : c.location.all t.overlay.maps = true) :
    (¬(c.route = .guard ∧ c.kind = .write) → result = .next (evaluatedAndDecided c (t.occupy .inject)).settle.injectAnswered) ∧
    (c.route = .guard → c.kind = .write → (resolve t.windows c.address c.lane).guardLevel = none →
      result = .next (evaluatedAndDecided c ((t.occupy .inject).latch .guard)).settle.injectAnswered) ∧
    (∀ level, c.route = .guard → c.kind = .write → (resolve t.windows c.address c.lane).guardLevel = some level → result =
      .next (evaluatedAndDecided { c with raised := [.guard] } (((t.occupy .inject).latch .guard).enterClaim (guardRaise level c))).settle.injectAnswered) := by
  rw [if_pos mapped] at row
  refine ⟨fun plain => ?_, fun route write noLevel => ?_, fun level route write given => ?_⟩
  · rw [row, presentCycle_plain h (by rw [isWrite_iff]; exact plain)]
  · rw [row, presentCycle_noLevel (s := t.occupy .inject) h route write noLevel]
  · rw [row, presentCycle_level (s := t.occupy .inject) h route write given]

/-- A FLOAT read that no unit tests, in RUNNING. -/
theorem inject_float {c : Cycle} {t : State} (h : Injected c) (quiet : ∀ i : Fin 4, t.watch[i].matching = false ∧ t.watch[i].pendingData = false)
    (hold : t.run.hold = .running) (route : c.route = .float) (read : c.kind ≠ .write) (rehearsal : t.run.rehearsal = true) (empty : t.port.inFlight = none) :
    FloatServed c t ((t.occupy .inject).presentCycle c).settle.injectAnswered := by
  have served := floatServed h route read hold rehearsal empty
  have decided : (t.occupy .inject).presentCycle c = floatAnswered c (t.occupy .inject) := by
    rw [presentCycle_of_quiet (s := t.occupy .inject) (fun i => (quiet i).1) (fun guard => nomatch route.symm.trans guard.1), seen_injected h,
      holdDecision_of_quiet (s := t.occupy .inject) hold (by rw [h.raised, ownLive_nil]),
      performCycle_floatInjected (s := t.occupy .inject) h rfl (fun i => (quiet i).2) route read]
  rw [decided, injectAnswered_none (s := (floatAnswered c (t.occupy .inject)).settle) (by rw [served.port]; exact empty)]
  exact served

/-- A cycle of HOLD_ARMED that no unit tests and that finds a claim to hold it. -/
theorem inject_held {c : Cycle} {t : State} (h : Injected c) (quiet : ∀ i : Fin 4, t.watch[i].matching = false) (hold : t.run.hold = .holdArmed)
    (live : t.run.anyLive = true) (rests : t.run.anyHolding = true ∨ t.run.stepAdmits c.kind = true) (plain : ¬(c.route = .guard ∧ c.kind = .write)) :
    ∃ u, ((t.occupy .inject).presentCycle c).settle.injectAnswered = u.respond .ok 0x37 (.inject c.window c.route 0 0 [] true false .holding none) ∧
      HoldBegun c (t.occupy .inject) u := by
  have decided : (t.occupy .inject).presentCycle c = (t.occupy .inject).holdCycle c := by
    rw [presentCycle_of_quiet (s := t.occupy .inject) quiet (by rw [isWrite_iff]; exact plain), seen_injected h,
      holdDecision_armed (s := t.occupy .inject) hold live]
    exact if_pos (Bool.or_eq_true_iff.2 rests)
  have held := heldAnswered rests
  rw [h.matched, h.fired, h.raised] at held
  rw [decided]
  exact held

/-- Everything that becomes of a presented INJECT. -/
theorem inject_presented {c : Cycle} {t : State} {result : Result} (h : Injected c) (rehearsal : t.run.rehearsal = true) (empty : t.port.inFlight = none)
    (unplaced : c.route.isOverlay = false → c.location = none)
    (row : result = if c.location.all t.overlay.maps then .next ((t.occupy .inject).presentCycle c).settle.injectAnswered else .fault .noOverlayPage) :
    (c.location.all t.overlay.maps = true → ∃ u, result = .next u) ∧
    (c.location.all t.overlay.maps = true →
      (c.route ≠ .guard ∨ c.kind ≠ .write → result = .next (evaluatedAndDecided c (t.occupy .inject)).settle.injectAnswered) ∧
      (c.route = .guard → c.kind = .write → (resolve t.windows c.address c.lane).guardLevel = none →
        result = .next (evaluatedAndDecided c ((t.occupy .inject).latch .guard)).settle.injectAnswered) ∧
      (∀ level, c.route = .guard → c.kind = .write → (resolve t.windows c.address c.lane).guardLevel = some level → result =
        .next (evaluatedAndDecided { c with raised := [.guard] } (((t.occupy .inject).latch .guard).enterClaim (guardRaise level c))).settle.injectAnswered)) ∧
    (c.location.all t.overlay.maps = false → result = .fault .noOverlayPage) ∧
    ((∀ i : Fin 4, t.watch[i].matching = false ∧ t.watch[i].pendingData = false) → t.run.hold = .running → c.route = .float → c.kind ≠ .write →
      ∃ u, result = .next u ∧ FloatServed c t u) ∧
    ((∀ i : Fin 4, t.watch[i].matching = false) → t.run.hold = .holdArmed → t.run.anyLive = true →
      t.run.anyHolding = true ∨ t.run.stepAdmits c.kind = true → ¬(c.route = .guard ∧ c.kind = .write) → c.location.all t.overlay.maps = true →
      ∃ u, result = .next (u.respond .ok 0x37 (.inject c.window c.route 0 0 [] true false .holding none)) ∧ HoldBegun c (t.occupy .inject) u) := by
  refine ⟨fun mapped => ⟨_, row.trans (if_pos mapped)⟩, fun mapped => ?_, fun unmapped => row.trans (if_neg (Bool.eq_false_iff.1 unmapped)),
    fun quiet running route read => ?_, fun quiet armed live rests plain mapped => ?_⟩
  · obtain ⟨plain, rest⟩ := inject_cases h row mapped
    exact ⟨fun other => plain (not_and_or.2 other), rest⟩
  · have mapped : c.location.all t.overlay.maps = true := by
      rw [unplaced (by rw [route]; rfl)]
      rfl
    exact ⟨_, row.trans (if_pos mapped), inject_float h quiet running route read rehearsal empty⟩
  · obtain ⟨u, answers, began⟩ := inject_held h quiet armed live rests plain
    exact ⟨u, (row.trans (if_pos mapped)).trans (congrArg Host.Outcome.next answers), began⟩

/-- Settles O46: the refusals in their order, then the cycle by the route, the claims and the hold state. -/
theorem injectPresentsCycle : Obligations.InjectPresentsCycle := by
  refine ⟨mustWait_inject, fun address lane kind data s t taken => ⟨kind_ofCode kind, cycleLaneOfCode_eq lane, exec_inject_bad taken, exec_inject_outside taken,
    exec_inject_holding taken, fun l k good rehearsal hold selects decodes => ?_⟩⟩
  intro c record ended answered taken'
  have spelled : ∀ (k2 : Cycle) (v : State), answered k2 v = .next (evaluatedAndDecided k2 v).settle.injectAnswered := by
    intro k2 v
    simp only [answered, evaluatedAndDecided]
    generalize State.settle ((watchEvaluate k2 v).2.holdDecision (watchEvaluate k2 v).1) = u
    rfl
  simp only [spelled]
  obtain ⟨goes, cases', faults, float, held⟩ := inject_presented (injected_present address l k data t) rehearsal (noCycle_of_takes taken good rehearsal hold)
    resolve_location (exec_inject_presents taken good rehearsal hold selects decodes)
  refine ⟨goes, cases', faults, fun quiet running route read => ?_, fun quiet armed live rests plain mapped => ?_⟩
  · obtain ⟨u, row, tables, run, port, activity, trace, sent⟩ := float quiet running route read
    exact ⟨u, row, tables, run, port, activity, trace, sent⟩
  · obtain ⟨u, row, began⟩ := held quiet armed live rests plain mapped
    exact ⟨_, row, began.tables, began.hold, began.noticed, began.port, rfl, rfl⟩

end Sys2Proof.InjectRows
end

section
/-! PROOFS. Watch evaluation and read-data evaluation of the four units (R69 to R76). -/

namespace Sys2Proof.EvaluateRows

open Sys2Proof Sys2Proof.Machine Sys2Proof.Resets Sys2Proof.BenchLink Sys2Proof.WatchRows Sys2Proof.ClaimRows Sys2Proof.CycleRows Sys2Proof.PresentRows

/-! ### The units as matches are recorded -/

theorem armSuccessor_get (i j : Fin 4) (units : Vector WatchUnit 4) :
    (armSuccessor i units)[j] = if i.val + 1 = j.val then units[j].armed else units[j] := by
  unfold armSuccessor
  split
  · next inside =>
    by_cases next' : i.val + 1 = j.val
    · simp [next']
    · simp [next']
  · next last => rw [if_neg (by omega)]

/-- What a recorded match makes of each unit (R69, R73). -/
theorem recordMatch_get (i j : Fin 4) (units : Vector WatchUnit 4) : (recordMatch i units).1[j] =
    if j = i then units[i].afterMatch.1 else if i.val + 1 = j.val ∧ units[i].afterMatch.2 = true then units[j].armed else units[j] := by
  have placed : (units.set i units[i].afterMatch.1)[j] = if j = i then units[i].afterMatch.1 else units[j] := by
    simp [Vector.getElem_set, Fin.ext_iff, eq_comm]
  unfold recordMatch
  dsimp only
  split
  · next fires =>
    rw [armSuccessor_get, placed]
    by_cases same : j = i
    · rw [if_pos same, if_pos same, if_neg (by rw [same]; omega)]
    · rw [if_neg same, if_neg same]
      simp only [fires, and_true]
  · next quiet =>
    rw [placed]
    simp only [quiet, Bool.false_eq_true, and_false, if_false]

theorem recordMatch_fires (i : Fin 4) (units : Vector WatchUnit 4) : (recordMatch i units).2 = units[i].afterMatch.2 := rfl

theorem matching_of_verdict {u : WatchUnit} {c : Cycle} (h : u.verdict c ≠ .ignored) : u.matching = true :=
  Bool.of_not_eq_false fun idle => h (verdict_of_not_matching idle c)

/-- Only a DORMANT unit is armed (R77). -/
theorem armed_of_verdict {u : WatchUnit} {c : Cycle} (h : u.verdict c ≠ .ignored) : u.armed = u := by
  refine armed_of_not (.inr fun dormant => ?_)
  have matching := (matching_iff u).1 (matching_of_verdict h)
  simp [dormant] at matching

/-- A verdict rests on what the target presents. -/
theorem verdict_congr {c d : Cycle} (h : d = { c with matched := d.matched, fired := d.fired, raised := d.raised, stopAfter := d.stopAfter }) (u : WatchUnit) :
    u.verdict d = u.verdict c := by
  rw [h]
  rfl

/-! ### What a firing does -/

/-- What watch evaluation can change of the part: the units, the claims, the capture state and the notices. -/
def WatchOnly (s t : State) : Prop :=
  t = { s with
    watch := t.watch
    run := { s.run with claims := t.run.claims }
    trace := { s.trace with capture := t.trace.capture }
    link := { s.link with pending := t.link.pending } }

theorem watchOnly_refl (s : State) : WatchOnly s s := rfl

theorem WatchOnly.trans {s t u : State} (h : WatchOnly s t) (k : WatchOnly t u) : WatchOnly s u := by
  unfold WatchOnly at h k ⊢
  rw [k, h]

theorem watchOnly_latch (n : Notice) (s : State) : WatchOnly s (s.latch n) := rfl

theorem watchOnly_enterClaim (r : Raise) (s : State) : WatchOnly s (s.enterClaim r) := rfl

theorem watchOnly_units (units : Vector WatchUnit 4) (s : State) : WatchOnly s { s with watch := units } := rfl

theorem watchOnly_traceStart (s : State) : WatchOnly s s.traceStart := by
  unfold State.traceStart
  split <;> rfl

/-- The claim of a firing. -/
def entered (i : Fin 4) (hold : Option Nat) (address : Nat) (s : State) : State :=
  match hold with
  | some level => s.enterClaim (watchRaise i level address)
  | none => s

/-- A firing's part of the state at watch evaluation (R74 to R76). -/
def acted (i : Fin 4) (a : Actions) (address : Nat) (s : State) : State :=
  let claimed := entered i a.hold address s
  let noted := if a.note then claimed.latch .note else claimed
  if a.traceStart then noted.traceStart else noted

theorem fireAtEvaluation_eq (i : Fin 4) (a : Actions) (c : Cycle) (s : State) : fireAtEvaluation i a (c, s) =
    ({ c with raised := c.raised ++ (if a.hold.isSome then [Source.watch i] else []), stopAfter := c.stopAfter || a.traceStop,
              fired := c.fired ||| bitOf i }, acted i a c.address s) := by
  unfold fireAtEvaluation acted entered
  cases a.hold with
  | none => simp
  | some level => rfl

theorem watchOnly_entered (i : Fin 4) (hold : Option Nat) (address : Nat) (s : State) : WatchOnly s (entered i hold address s) := by
  unfold entered
  split
  · exact watchOnly_enterClaim ..
  · exact watchOnly_refl s

theorem watchOnly_acted (i : Fin 4) (a : Actions) (address : Nat) (s : State) : WatchOnly s (acted i a address s) := by
  have noted : WatchOnly s (if a.note then (entered i a.hold address s).latch .note else entered i a.hold address s) := by
    split
    · exact (watchOnly_entered ..).trans (watchOnly_latch ..)
    · exact watchOnly_entered ..
  unfold acted
  dsimp only
  split
  · exact noted.trans (watchOnly_traceStart _)
  · exact noted

theorem traceStart_aside (s : State) : s.traceStart.watch = s.watch ∧ s.traceStart.run = s.run ∧ s.traceStart.link = s.link ∧
    s.traceStart.trace.capture = if s.trace.capture = .waiting then .recording else s.trace.capture := by
  unfold State.traceStart
  split <;> exact ⟨rfl, rfl, rfl, rfl⟩

theorem entered_aside (i : Fin 4) (hold : Option Nat) (address : Nat) (s : State) :
    (entered i hold address s).watch = s.watch ∧ (entered i hold address s).trace = s.trace ∧
    (∀ n, (entered i hold address s).noticed n = (s.noticed n || (decide (n = .claim) && hold.isSome))) := by
  cases hold with
  | none => exact ⟨rfl, rfl, fun n => by simp [entered]⟩
  | some level =>
    refine ⟨rfl, rfl, fun n => ?_⟩
    rw [entered, State.enterClaim, noticed_latch]
    simp only [eq_comm (a := Notice.claim), Option.isSome_some, Bool.and_true]
    rfl

theorem acted_aside (i : Fin 4) (a : Actions) (address : Nat) (s : State) : (acted i a address s).watch = s.watch ∧
    (acted i a address s).run = (entered i a.hold address s).run ∧
    (acted i a address s).trace.capture = (if s.trace.capture = .waiting ∧ a.traceStart = true then .recording else s.trace.capture) ∧
    ∀ n, (acted i a address s).noticed n = (s.noticed n || (decide (n = .note) && a.note) || (decide (n = .claim) && a.hold.isSome)) := by
  obtain ⟨watch, trace, noticed⟩ := entered_aside i a.hold address s
  have noted : ∀ n, (if a.note then (entered i a.hold address s).latch .note else entered i a.hold address s).noticed n =
      (s.noticed n || (decide (n = .note) && a.note) || (decide (n = .claim) && a.hold.isSome)) := by
    intro n
    split
    · next note =>
      rw [noticed_latch, noticed, note, Bool.and_true, Bool.or_right_comm]
      simp only [eq_comm (a := Notice.note)]
    · next quiet =>
      rw [noticed]
      simp [quiet]
  have kept : ∀ t : State, (t = if a.note then (entered i a.hold address s).latch .note else entered i a.hold address s) →
      t.watch = s.watch ∧ t.run = (entered i a.hold address s).run ∧ t.trace = s.trace := by
    rintro t rfl
    split <;> exact ⟨watch, rfl, trace⟩
  obtain ⟨watch', run', trace'⟩ := kept _ rfl
  unfold acted
  dsimp only
  generalize (if a.note then (entered i a.hold address s).latch .note else entered i a.hold address s) = t at noted watch' run' trace' ⊢
  split
  · next start =>
    obtain ⟨watchS, runS, linkS, captureS⟩ := traceStart_aside t
    refine ⟨watchS.trans watch', runS.trans run', ?_, fun n => ?_⟩
    · rw [captureS, trace']
      simp [start]
    · rw [State.noticed, linkS]
      exact noted n
  · next noStart => exact ⟨watch', run', by rw [trace']; simp [noStart], noted⟩

/-! ### Watch evaluation, unit by unit -/

/-- The units that fire for a cycle (R69, R73). -/
def fires (c : Cycle) (s : State) (i : Fin 4) : Bool := decide (s.watch[i].verdict c = .matched) && s.watch[i].afterMatch.2

/-- The unit after the units of `done` have been evaluated. -/
def unitAfter (c : Cycle) (s : State) (done : List (Fin 4)) (i : Fin 4) : WatchUnit :=
  match s.watch[i].verdict c with
  | .matched => if i ∈ done then s.watch[i].afterMatch.1 else s.watch[i]
  | .deferred => if i ∈ done then { s.watch[i] with pendingData := true } else s.watch[i]
  | .ignored => if ∃ k ∈ done, k.val + 1 = i.val ∧ fires c s k = true then s.watch[i].armed else s.watch[i]

/-- The claim of a firing unit (R74, R95). -/
def firedClaim (c : Cycle) (s : State) (i : Fin 4) (level : Nat) : Claim :=
  match s.run.claimOf (.watch i) with
  | none => { source := .watch i, level := some level, stamp := s.timeBase, address := some c.address, window := none, repeats := 1, step := none }
  | some k => { source := .watch i, level := some level, stamp := k.stamp, address := some c.address, window := none, repeats := min 255 (k.repeats + 1), step := none }

/-- Watch evaluation after the units of `done` (R69). -/
structure Judged (c : Cycle) (s : State) (done : List (Fin 4)) (r : Cycle × State) : Prop where
  matched : ∀ i : Fin 4, r.1.matched.getLsbD i.val = (c.matched.getLsbD i.val || (decide (i ∈ done) && decide (s.watch[i].verdict c = .matched)))
  fired : ∀ i : Fin 4, r.1.fired.getLsbD i.val = (c.fired.getLsbD i.val || (decide (i ∈ done) && fires c s i))
  cycle : r.1 = { c with
    matched := r.1.matched
    fired := r.1.fired
    raised := c.raised ++ (done.filter (fun i => fires c s i && s.watch[i].actions.hold.isSome)).map Source.watch
    stopAfter := c.stopAfter || done.any (fun i => fires c s i && s.watch[i].actions.traceStop) }
  state : WatchOnly s r.2
  capture : r.2.trace.capture =
    if s.trace.capture = .waiting ∧ ∃ i ∈ done, fires c s i = true ∧ s.watch[i].actions.traceStart = true then .recording else s.trace.capture
  noticed : ∀ n, r.2.noticed n = true ↔ s.noticed n = true ∨ (n = .note ∧ ∃ i ∈ done, fires c s i = true ∧ s.watch[i].actions.note = true) ∨
    (n = .claim ∧ ∃ i ∈ done, fires c s i = true ∧ s.watch[i].actions.hold.isSome = true)
  entered : ∀ (i : Fin 4) (level : Nat), s.run.hold ≠ .holding → i ∈ done → fires c s i = true → s.watch[i].actions.hold = some level →
    r.2.run.claimOf (.watch i) = some (firedClaim c s i level)
  others : ∀ source : Source, (∀ i ∈ done, source = .watch i → fires c s i = true → s.watch[i].actions.hold = none) →
    r.2.run.claimOf source = s.run.claimOf source
  units : ∀ i : Fin 4, r.2.watch[i] = unitAfter c s done i

theorem unitAfter_nil (c : Cycle) (s : State) (i : Fin 4) : unitAfter c s [] i = s.watch[i] := by
  unfold unitAfter
  split <;> simp

theorem judged_nil (c : Cycle) (s : State) : Judged c s [] (c, s) where
  matched := fun i => by simp
  fired := fun i => by simp
  cycle := by simp
  state := watchOnly_refl s
  capture := by simp
  noticed := fun n => by simp
  entered := fun i level _ mem => nomatch mem
  others := fun source _ => rfl
  units := fun i => (unitAfter_nil c s i).symm

theorem unitAfter_congr {c : Cycle} {s : State} {done done' : List (Fin 4)} {j : Fin 4} (mem : s.watch[j].verdict c ≠ .ignored → (j ∈ done ↔ j ∈ done'))
    (arms : (∃ k ∈ done, k.val + 1 = j.val ∧ fires c s k = true) ↔ ∃ k ∈ done', k.val + 1 = j.val ∧ fires c s k = true) :
    unitAfter c s done j = unitAfter c s done' j := by
  unfold unitAfter
  cases verdict : s.watch[j].verdict c with
  | ignored => exact if_congr arms rfl rfl
  | deferred => exact if_congr (mem (by rw [verdict]; exact Verdict.noConfusion)) rfl rfl
  | matched => exact if_congr (mem (by rw [verdict]; exact Verdict.noConfusion)) rfl rfl

theorem exists_mem_snoc {done : List (Fin 4)} {i : Fin 4} {p : Fin 4 → Prop} : (∃ k ∈ done ++ [i], p k) ↔ (∃ k ∈ done, p k) ∨ p i := by
  simp only [List.mem_append, List.mem_singleton, or_and_right, exists_or, exists_eq_left]

theorem mem_snoc_of_ne {done : List (Fin 4)} {i j : Fin 4} (h : j ≠ i) : j ∈ done ++ [i] ↔ j ∈ done := by simp [h]

/-- Only a unit that fires, or one that it arms, differs from what it was (R69). -/
theorem unitAfter_snoc_of_ignored {c : Cycle} {s : State} {i : Fin 4} (h : s.watch[i].verdict c = .ignored) (done : List (Fin 4)) (j : Fin 4) :
    unitAfter c s (done ++ [i]) j = unitAfter c s done j := by
  have quiet : fires c s i = false := by
    rw [fires, h]
    rfl
  exact unitAfter_congr (fun other => mem_snoc_of_ne fun eq => other (eq ▸ h)) (exists_mem_snoc.trans (or_iff_left fun arms => Bool.eq_false_iff.1 quiet arms.2))

theorem unitAfter_of_notMem {c : Cycle} {s : State} {done : List (Fin 4)} {i : Fin 4} (h : s.watch[i].verdict c ≠ .ignored) (new : i ∉ done) :
    unitAfter c s done i = s.watch[i] := by
  unfold unitAfter
  split
  · exact if_neg new
  · exact if_neg new
  · next ignored => exact absurd ignored h

/-- What the evaluation of one unit makes of the cycle and of the part. -/
structure UnitStep (c : Cycle) (s : State) (i : Fin 4) (r t : Cycle × State) : Prop where
  matched : t.1.matched = if s.watch[i].verdict c = .matched then r.1.matched ||| bitOf i else r.1.matched
  fired : t.1.fired = if fires c s i then r.1.fired ||| bitOf i else r.1.fired
  cycle : t.1 = { r.1 with
    matched := t.1.matched
    fired := t.1.fired
    raised := r.1.raised ++ (if fires c s i && s.watch[i].actions.hold.isSome then [Source.watch i] else [])
    stopAfter := r.1.stopAfter || (fires c s i && s.watch[i].actions.traceStop) }
  state : WatchOnly r.2 t.2
  capture : t.2.trace.capture =
    if r.2.trace.capture = .waiting ∧ fires c s i = true ∧ s.watch[i].actions.traceStart = true then .recording else r.2.trace.capture
  noticed : ∀ n, t.2.noticed n = (r.2.noticed n || (decide (n = .note) && (fires c s i && s.watch[i].actions.note)) ||
    (decide (n = .claim) && (fires c s i && s.watch[i].actions.hold.isSome)))
  run : t.2.run = if fires c s i then (entered i s.watch[i].actions.hold r.1.address r.2).run else r.2.run
  units : ∀ j : Fin 4, t.2.watch[j] = match s.watch[i].verdict c with
    | .ignored => r.2.watch[j]
    | .deferred => if j = i then { s.watch[i] with pendingData := true } else r.2.watch[j]
    | .matched => if j = i then s.watch[i].afterMatch.1 else if i.val + 1 = j.val ∧ fires c s i = true then r.2.watch[j].armed else r.2.watch[j]

section step
variable {c : Cycle} {s : State} {i : Fin 4} {r : Cycle × State}

/-- A unit that neither matches nor defers changes nothing. -/
theorem unitStep_ignored (h : s.watch[i].verdict c = .ignored) : UnitStep c s i r r := by
  have quiet : fires c s i = false := by
    rw [fires, h]
    rfl
  exact ⟨by rw [h]; rfl, by simp [quiet], by simp [quiet], watchOnly_refl _, by simp [quiet], fun n => by simp [quiet], by simp [quiet], fun j => by rw [h]⟩

theorem unitStep_deferred (h : s.watch[i].verdict c = .deferred) (same : r.2.watch[i] = s.watch[i]) :
    UnitStep c s i r (r.1, { r.2 with watch := r.2.watch.set i { r.2.watch[i] with pendingData := true } }) := by
  have quiet : fires c s i = false := by
    rw [fires, h]
    rfl
  refine ⟨by rw [h]; rfl, by simp [quiet], by simp [quiet], watchOnly_units .., by simp [quiet], fun n => by simp [quiet]; rfl, by simp [quiet], fun j => ?_⟩
  rw [h, same]
  simp [Vector.getElem_set, Fin.ext_iff, eq_comm]

theorem unitStep_matched (h : s.watch[i].verdict c = .matched) (same : r.2.watch[i] = s.watch[i]) (quiet : s.watch[i].afterMatch.2 = false) :
    UnitStep c s i r ({ r.1 with matched := r.1.matched ||| bitOf i }, { r.2 with watch := (recordMatch i r.2.watch).1 }) := by
  have still : fires c s i = false := by rw [fires, quiet, Bool.and_false]
  refine ⟨by rw [h]; rfl, by simp [still], by simp [still], watchOnly_units .., by simp [still], fun n => by simp [still]; rfl, by simp [still], fun j => ?_⟩
  rw [h, recordMatch_get, same]
  simp only [quiet, still]

theorem unitStep_fired (h : s.watch[i].verdict c = .matched) (same : r.2.watch[i] = s.watch[i]) (fired : s.watch[i].afterMatch.2 = true) :
    UnitStep c s i r (fireAtEvaluation i s.watch[i].actions
      ({ r.1 with matched := r.1.matched ||| bitOf i }, { r.2 with watch := (recordMatch i r.2.watch).1 })) := by
  have goes : fires c s i = true := by
    rw [fires, fired, h]
    rfl
  obtain ⟨watch, run, capture, noticed⟩ := acted_aside i s.watch[i].actions r.1.address { r.2 with watch := (recordMatch i r.2.watch).1 }
  rw [fireAtEvaluation_eq]
  refine ⟨by rw [h]; rfl, by simp [goes], by simp [goes], (watchOnly_units ..).trans (watchOnly_acted ..), ?_, fun n => ?_, ?_, fun j => ?_⟩
  · rw [capture, goes]
    simp
  · rw [noticed, goes, Bool.true_and, Bool.true_and]
    rfl
  · rw [run, if_pos goes]
    cases s.watch[i].actions.hold <;> rfl
  · rw [watch, h, recordMatch_get, same]
    simp only [fired, goes]

theorem evaluateUnit_step (cycle : r.1 = { c with matched := r.1.matched, fired := r.1.fired, raised := r.1.raised, stopAfter := r.1.stopAfter })
    (same : s.watch[i].verdict c ≠ .ignored → r.2.watch[i] = s.watch[i]) : UnitStep c s i r (evaluateUnit s.watch r i) := by
  have verdict : s.watch[i].verdict r.1 = s.watch[i].verdict c := verdict_congr cycle _
  unfold evaluateUnit
  rw [verdict]
  cases h : s.watch[i].verdict c with
  | ignored => exact unitStep_ignored h
  | deferred => exact unitStep_deferred h (same (by rw [h]; exact Verdict.noConfusion))
  | matched =>
    have still := same (by rw [h]; exact Verdict.noConfusion)
    dsimp only
    rw [recordMatch_fires, still]
    split
    · next fired => exact unitStep_fired h still fired
    · next quiet => exact unitStep_matched h still (Bool.eq_false_iff.2 quiet)

end step

/-! ### The four units together -/

theorem bitOf_get (i j : Fin 4) : (bitOf i).getLsbD j.val = decide (j = i) := by
  revert i j
  decide

/-- A set of units after one more. -/
theorem bits_snoc {b t given : BitVec 4} {done : List (Fin 4)} {i : Fin 4} {f : Fin 4 → Bool}
    (old : ∀ j : Fin 4, b.getLsbD j.val = (given.getLsbD j.val || (decide (j ∈ done) && f j))) (new : t = if f i = true then b ||| bitOf i else b) (j : Fin 4) :
    t.getLsbD j.val = (given.getLsbD j.val || (decide (j ∈ done ++ [i]) && f j)) := by
  have bit : t.getLsbD j.val = (b.getLsbD j.val || (decide (j = i) && f i)) := by
    rw [new]
    split
    · next on => rw [BitVec.getLsbD_or, bitOf_get, on, Bool.and_true]
    · next off => rw [Bool.eq_false_iff.2 off, Bool.and_false, Bool.or_false]
  rw [bit, old, Bool.or_assoc]
  by_cases same : j = i
  · subst same
    cases f j <;> simp
  · simp [same]

/-- The capture state after one more unit's TRACE_START. -/
theorem capture_snoc (x : CaptureState) (p q : Prop) [Decidable p] [Decidable q] :
    (if (if x = .waiting ∧ p then .recording else x) = .waiting ∧ q then .recording else if x = .waiting ∧ p then .recording else x) =
      if x = .waiting ∧ (p ∨ q) then CaptureState.recording else x := by
  by_cases before : p
  · by_cases waits : x = .waiting <;> simp [before, waits]
  · simp [before]

/-- The claims that the evaluation of a unit leaves alone. -/
theorem entered_others {i : Fin 4} {hold : Option Nat} {source : Source} (h : source ≠ .watch i ∨ hold = none) (address : Nat) (s : State) :
    (entered i hold address s).run.claimOf source = s.run.claimOf source := by
  cases hold with
  | none => rfl
  | some level => exact claimsAfter_other (watchRaise i level address) s (h.resolve_right (Option.some_ne_none level))

/-- Outside HOLDING a unit's claim is fresh, or stands in the place of the one it had (R95, R104). -/
theorem entered_own {c : Cycle} {s u : State} {i : Fin 4} (level : Nat) (hold : u.run.hold ≠ .holding) (time : u.timeBase = s.timeBase)
    (standing : u.run.claimOf (.watch i) = s.run.claimOf (.watch i)) :
    (entered i (some level) c.address u).run.claimOf (.watch i) = some (firedClaim c s i level) := by
  unfold firedClaim
  rw [← standing, ← time]
  cases old : u.run.claimOf (.watch i) with
  | none => exact claimOf_enterClaim_fresh (r := watchRaise i level c.address) old
  | some k => exact claimOf_enterClaim_again (r := watchRaise i level c.address) old fun fenced => hold fenced.1

section judged
variable {c : Cycle} {s : State} {done : List (Fin 4)} {i : Fin 4} {r t : Cycle × State}

theorem unitAfter_step (order : ∀ k ∈ done, k.val < i.val) (units : ∀ j : Fin 4, r.2.watch[j] = unitAfter c s done j) (step : UnitStep c s i r t) (j : Fin 4) :
    t.2.watch[j] = unitAfter c s (done ++ [i]) j := by
  have new : i ∉ done := fun mem => Nat.lt_irrefl _ (order i mem)
  rw [step.units]
  cases h : s.watch[i].verdict c with
  | ignored => exact (units j).trans (unitAfter_snoc_of_ignored h done j).symm
  | deferred =>
    have quiet : fires c s i = false := by
      rw [fires, h]
      rfl
    by_cases same : j = i
    · subst same
      simp [unitAfter, -Fin.getElem_fin, h]
    · refine (if_neg same).trans ((units j).trans (unitAfter_congr (fun _ => (mem_snoc_of_ne same).symm) ?_))
      exact (exists_mem_snoc.trans (or_iff_left fun arms => Bool.eq_false_iff.1 quiet arms.2)).symm
  | matched =>
    dsimp only
    by_cases same : j = i
    · subst same
      simp [unitAfter, -Fin.getElem_fin, h]
    · rw [if_neg same, units]
      by_cases arms : i.val + 1 = j.val ∧ fires c s i = true
      · have later : j ∉ done := fun mem => by have := order j mem; omega
        rw [if_pos arms]
        by_cases ignored : s.watch[j].verdict c = .ignored
        · have none' : ¬∃ k ∈ done, k.val + 1 = j.val ∧ fires c s k = true := by
            rintro ⟨k, mem, next', -⟩
            have := order k mem
            omega
          have some' : ∃ k ∈ done ++ [i], k.val + 1 = j.val ∧ fires c s k = true := exists_mem_snoc.2 (.inr arms)
          simp only [unitAfter, ignored, if_neg none', if_pos some']
        · rw [unitAfter_of_notMem ignored later, unitAfter_of_notMem ignored (by simp [later, same]), armed_of_verdict ignored]
      · rw [if_neg arms]
        exact unitAfter_congr (fun _ => (mem_snoc_of_ne same).symm) (exists_mem_snoc.trans (or_iff_left arms)).symm

theorem judged_claims (judged : Judged c s done r) (order : ∀ k ∈ done, k.val < i.val) (step : UnitStep c s i r t) :
    (∀ (j : Fin 4) (level : Nat), s.run.hold ≠ .holding → j ∈ done ++ [i] → fires c s j = true → s.watch[j].actions.hold = some level →
      t.2.run.claimOf (.watch j) = some (firedClaim c s j level)) ∧
    (∀ source : Source, (∀ j ∈ done ++ [i], source = .watch j → fires c s j = true → s.watch[j].actions.hold = none) →
      t.2.run.claimOf source = s.run.claimOf source) := by
  have new : i ∉ done := fun mem => Nat.lt_irrefl _ (order i mem)
  have address : r.1.address = c.address := by rw [judged.cycle]
  have time : r.2.timeBase = s.timeBase := by rw [judged.state]
  have hold : r.2.run.hold = s.run.hold := by rw [judged.state]
  have keeps : ∀ source : Source, (source ≠ .watch i ∨ fires c s i = false ∨ s.watch[i].actions.hold = none) → t.2.run.claimOf source = r.2.run.claimOf source := by
    intro source h
    rw [step.run]
    split
    · next fired =>
      exact entered_others (h.imp id fun other => other.resolve_left (by simp [fired])) ..
    · rfl
  refine ⟨fun j level free mem fired given => ?_, fun source quiet => ?_⟩
  · by_cases same : j = i
    · subst same
      have standing : r.2.run.claimOf (.watch j) = s.run.claimOf (.watch j) :=
        judged.others _ fun k mem eq => absurd (Source.watch.inj eq ▸ mem) new
      rw [step.run, if_pos fired, given, address]
      exact entered_own level (by rw [hold]; exact free) time standing
    · rw [keeps _ (.inl fun eq => same (Source.watch.inj eq))]
      exact judged.entered j level free ((List.mem_append.1 mem).resolve_right (by simp [same])) fired given
  · rw [keeps source ?_]
    · exact judged.others source fun k mem => quiet k (List.mem_append_left _ mem)
    · by_cases other : source = .watch i
      · by_cases fired : fires c s i = true
        · exact .inr (.inr (quiet i (by simp) other fired))
        · exact .inr (.inl (Bool.eq_false_iff.2 fired))
      · exact .inl other

theorem judged_step (judged : Judged c s done r) (order : ∀ k ∈ done, k.val < i.val) (step : UnitStep c s i r t) : Judged c s (done ++ [i]) t := by
  have new : i ∉ done := fun mem => Nat.lt_irrefl _ (order i mem)
  obtain ⟨entered, others⟩ := judged_claims judged order step
  have raised : (done ++ [i]).filter (fun i => fires c s i && s.watch[i].actions.hold.isSome) =
      done.filter (fun i => fires c s i && s.watch[i].actions.hold.isSome) ++ (if fires c s i && s.watch[i].actions.hold.isSome then [i] else []) := by
    rw [List.filter_append, List.filter_singleton]
    cases fires c s i && s.watch[i].actions.hold.isSome <;> rfl
  have stops : (done ++ [i]).any (fun i => fires c s i && s.watch[i].actions.traceStop) =
      (done.any (fun i => fires c s i && s.watch[i].actions.traceStop) || (fires c s i && s.watch[i].actions.traceStop)) := by
    rw [List.any_append, List.any_cons, List.any_nil, Bool.or_false]
  refine ⟨bits_snoc judged.matched (by simp only [step.matched, decide_eq_true_eq]), bits_snoc judged.fired step.fired, ?_, judged.state.trans step.state, ?_,
    fun n => ?_, entered, others, unitAfter_step order judged.units step⟩
  · rw [step.cycle, judged.cycle, raised, stops, List.map_append, ← List.append_assoc, ← Bool.or_assoc]
    cases fires c s i && s.watch[i].actions.hold.isSome <;> rfl
  · rw [step.capture, judged.capture, capture_snoc]
    exact if_congr (and_congr_right fun _ => exists_mem_snoc.symm) rfl rfl
  · rw [step.noticed, Bool.or_eq_true, Bool.or_eq_true, judged.noticed, exists_mem_snoc, exists_mem_snoc]
    simp only [Bool.and_eq_true, decide_eq_true_eq, and_or_left]
    grind

theorem judged_unit (judged : Judged c s done r) (order : ∀ k ∈ done, k.val < i.val) : Judged c s (done ++ [i]) (evaluateUnit s.watch r i) :=
  judged_step judged order (evaluateUnit_step (by rw [judged.cycle]) fun h =>
    (judged.units i).trans (unitAfter_of_notMem h fun mem => Nat.lt_irrefl _ (order i mem)))

end judged

/-- The four units. -/
def units4 : List (Fin 4) := [0, 1, 2, 3]

theorem mem_units4 (i : Fin 4) : i ∈ units4 := by
  revert i
  decide

theorem watchEvaluate_judged (c : Cycle) (s : State) : Judged c s units4 (watchEvaluate c s) :=
  judged_unit (done := [0, 1, 2]) (judged_unit (done := [0, 1]) (judged_unit (done := [0]) (judged_unit (done := []) (judged_nil c s)
    (by decide)) (by decide)) (by decide)) (by decide)

section evaluation
variable (c : Cycle) (s : State) (i : Fin 4)

/-- What one unit's verdict leaves in the sets and in the unit (R69, R70). -/
theorem watchEvaluate_unit (matched : c.matched = 0) (fired : c.fired = 0) :
    ((watchEvaluate c s).1.matched.getLsbD i.val = true ↔ s.watch[i].verdict c = .matched) ∧
    ((watchEvaluate c s).1.fired.getLsbD i.val = true ↔ s.watch[i].verdict c = .matched ∧ s.watch[i].afterMatch.2 = true) ∧
    (s.watch[i].verdict c = .matched → (watchEvaluate c s).2.watch[i] = s.watch[i].afterMatch.1) ∧
    (s.watch[i].verdict c = .deferred → (watchEvaluate c s).2.watch[i] = { s.watch[i] with pendingData := true }) := by
  have judged := watchEvaluate_judged c s
  have mem := mem_units4 i
  have zero : (0 : BitVec 4).getLsbD i.val = false := BitVec.getLsbD_zero
  refine ⟨?_, ?_, fun h => ?_, fun h => ?_⟩
  · rw [judged.matched, matched, zero, Bool.false_or, decide_eq_true mem, Bool.true_and, decide_eq_true_eq]
  · rw [judged.fired, fired, zero, Bool.false_or, decide_eq_true mem, Bool.true_and, fires, Bool.and_eq_true, decide_eq_true_eq]
  · rw [judged.units, unitAfter, h]
    exact if_pos mem
  · rw [judged.units, unitAfter, h]
    exact if_pos mem

theorem watchEvaluate_state : (watchEvaluate c s).2 = { s with
    watch := (watchEvaluate c s).2.watch
    run := { s.run with claims := (watchEvaluate c s).2.run.claims }
    trace := { s.trace with capture :=
      if s.trace.capture = .waiting ∧ ∃ i, fires c s i = true ∧ s.watch[i].actions.traceStart = true then .recording else s.trace.capture }
    link := { s.link with pending := (watchEvaluate c s).2.link.pending } } := by
  have judged := watchEvaluate_judged c s
  have capture : (watchEvaluate c s).2.trace.capture =
      if s.trace.capture = .waiting ∧ ∃ i, fires c s i = true ∧ s.watch[i].actions.traceStart = true then .recording else s.trace.capture :=
    judged.capture.trans (if_congr (and_congr_right fun _ => by simp only [mem_units4, true_and]) rfl rfl)
  rw [← capture]
  exact judged.state

theorem watchEvaluate_noticed (n : Notice) : (watchEvaluate c s).2.noticed n = true ↔ s.noticed n = true ∨
    (n = .note ∧ ∃ i, fires c s i = true ∧ s.watch[i].actions.note = true) ∨ (n = .claim ∧ ∃ i, fires c s i = true ∧ s.watch[i].actions.hold.isSome = true) := by
  rw [(watchEvaluate_judged c s).noticed]
  simp only [mem_units4, true_and]

/-- A unit that judged nothing is armed by the unit before it (R77). -/
theorem watchEvaluate_armed (h : s.watch[i].verdict c = .ignored) :
    ((∃ k : Fin 4, k.val + 1 = i.val ∧ fires c s k = true) → (watchEvaluate c s).2.watch[i] = s.watch[i].armed) ∧
    ((∀ k : Fin 4, k.val + 1 = i.val → fires c s k = false) → (watchEvaluate c s).2.watch[i] = s.watch[i]) := by
  have unit : (watchEvaluate c s).2.watch[i] = if ∃ k ∈ units4, k.val + 1 = i.val ∧ fires c s k = true then s.watch[i].armed else s.watch[i] := by
    rw [(watchEvaluate_judged c s).units, unitAfter, h]
  refine ⟨fun ⟨k, next', fired⟩ => ?_, fun quiet => ?_⟩
  · rw [unit, if_pos ⟨k, mem_units4 k, next', fired⟩]
  · rw [unit, if_neg]
    rintro ⟨k, -, next', fired⟩
    exact Bool.false_ne_true ((quiet k next').symm.trans fired)

end evaluation

/-! ### Read-data evaluation -/

theorem fireAtDelivery_eq (i : Fin 4) (a : Actions) (address : Nat) (e : Evaluation) (s t : State)
    (claimed : t = match a.hold with
      | some level => (s.enterClaim (watchRaise i level address)).actOnClaim (.watch i)
      | none => s) : fireAtDelivery i a address (e, s) =
    ({ e with fired := e.fired ||| bitOf i, raised := e.raised ++ (if a.hold.isSome then [Source.watch i] else []), start := e.start || a.traceStart,
              stop := e.stop || a.traceStop }, if a.note then t.latch .note else t) := by
  subst claimed
  unfold fireAtDelivery
  cases a.hold with
  | none => simp
  | some level => rfl

/-- A unit whose decision comes to be judged (R71). -/
def judgedUnits (i : Fin 4) (s : State) : Vector WatchUnit 4 := s.watch.set i { s.watch[i] with pendingData := false }

section delivery
variable {s : State} {i : Fin 4} (data : Byte) (address : Nat) (e : Evaluation) (pending : s.watch[i].pendingData = true)

theorem judgedUnits_get : (judgedUnits i s)[i] = { s.watch[i] with pendingData := false } := by simp [judgedUnits]

theorem recordMatch_judged : (recordMatch i (judgedUnits i s)).2 = ({ s.watch[i] with pendingData := false } : WatchUnit).afterMatch.2 ∧
    ((recordMatch i (judgedUnits i s)).2 = false →
      (recordMatch i (judgedUnits i s)).1 = (judgedUnits i s).set i ({ s.watch[i] with pendingData := false } : WatchUnit).afterMatch.1) ∧
    ((recordMatch i (judgedUnits i s)).2 = true →
      (recordMatch i (judgedUnits i s)).1 = armSuccessor i ((judgedUnits i s).set i ({ s.watch[i] with pendingData := false } : WatchUnit).afterMatch.1)) := by
  have fires' : (recordMatch i (judgedUnits i s)).2 = ({ s.watch[i] with pendingData := false } : WatchUnit).afterMatch.2 :=
    congrArg (fun u => u.afterMatch.2) judgedUnits_get
  refine ⟨fires', fun quiet => ?_, fun fired => ?_⟩
  · rw [fires'] at quiet
    rw [recordMatch, judgedUnits_get, quiet]
    rfl
  · rw [fires'] at fired
    rw [recordMatch, judgedUnits_get, fired]
    rfl

include pending

theorem deliverUnit_unmet (unmet : data &&& s.watch[i].dataMask ≠ s.watch[i].dataValue &&& s.watch[i].dataMask) :
    deliverUnit data address (e, s) i = (e, { s with watch := judgedUnits i s }) :=
  (if_pos pending).trans (if_neg (by simpa [WatchUnit.dataMet] using unmet))

theorem deliverUnit_met (met : data &&& s.watch[i].dataMask = s.watch[i].dataValue &&& s.watch[i].dataMask) : deliverUnit data address (e, s) i =
    if (recordMatch i (judgedUnits i s)).2
      then fireAtDelivery i s.watch[i].actions address ({ e with matched := e.matched ||| bitOf i }, { s with watch := (recordMatch i (judgedUnits i s)).1 })
      else ({ e with matched := e.matched ||| bitOf i }, { s with watch := (recordMatch i (judgedUnits i s)).1 }) :=
  (if_pos pending).trans (if_pos (by simpa [WatchUnit.dataMet] using met))

end delivery

theorem traceStop_cases (s : State) :
    (s.trace.capture ≠ .recording → s.traceStop = s) ∧
    (s.trace.capture = .recording → s.trace.setup.postCount = 0 →
      s.traceStop = ({ s with trace := { s.trace with capture := .stopped } } : State).latch .traceStopped) ∧
    (s.trace.capture = .recording → s.trace.setup.postCount ≠ 0 →
      s.traceStop = { s with trace := { s.trace with capture := .tailing, tail := s.trace.setup.postCount } }) :=
  ⟨fun other => if_neg other, fun records none' => (if_pos records).trans (if_pos none'), fun records some' => (if_pos records).trans (if_neg some')⟩

theorem traceStart_if (b : Bool) (s : State) : (if b = true then s.traceStart else s) =
    if b = true ∧ s.trace.capture = .waiting then { s with trace := { s.trace with capture := .recording } } else s := by
  cases b with
  | false => simp
  | true => simp [State.traceStart]

/-! ### Presentation -/

section presentation
variable {c : Cycle} {s : State}

theorem presented_plain (plain : ¬(c.route = .guard ∧ c.isWrite = true)) :
    s.presentCycle c = (watchEvaluate c (seen c s)).2.holdDecision (watchEvaluate c (seen c s)).1 := by
  rw [presentCycle_eq, guardWrite_of_not plain]

theorem presented_noLevel (route : c.route = .guard) (write : c.kind = .write) (noLevel : (resolve s.windows c.address c.lane).guardLevel = none) :
    s.presentCycle c = (watchEvaluate c ((seen c s).latch .guard)).2.holdDecision (watchEvaluate c ((seen c s).latch .guard)).1 := by
  rw [presentCycle_eq, (seen_aside c s).2.2.2.2.2.1, noLevel, guardWrite_of_noLevel route write]

theorem presented_level {level : Nat} (raised : c.raised = []) (route : c.route = .guard) (write : c.kind = .write)
    (given : (resolve s.windows c.address c.lane).guardLevel = some level) : s.presentCycle c =
      (watchEvaluate { c with raised := [.guard] } (((seen c s).latch .guard).enterClaim (guardRaise level c))).2.holdDecision
        (watchEvaluate { c with raised := [.guard] } (((seen c s).latch .guard).enterClaim (guardRaise level c))).1 := by
  rw [presentCycle_eq, (seen_aside c s).2.2.2.2.2.1, given, guardWrite_of_level route write, raised]
  rfl

/-- The three ways by which a presented cycle comes to its hold decision (R32). -/
theorem presented_cases {write : Option Byte} {result : Result} (writes : c.isWrite = write.isSome) (raised : c.raised = [])
    (row : result = .next (s.presentCycle c).settle) :
    (c.route ≠ .guard ∨ write = none → result =
      .next (State.settle ((watchEvaluate c (seen c s)).2.holdDecision (watchEvaluate c (seen c s)).1))) ∧
    (c.route = .guard → write.isSome = true → (resolve s.windows c.address c.lane).guardLevel = none → result =
      .next (State.settle ((watchEvaluate c ((seen c s).latch .guard)).2.holdDecision (watchEvaluate c ((seen c s).latch .guard)).1))) ∧
    (∀ level, c.route = .guard → write.isSome = true → (resolve s.windows c.address c.lane).guardLevel = some level → result =
      .next (State.settle ((watchEvaluate { c with raised := [.guard] } (((seen c s).latch .guard).enterClaim (guardRaise level c))).2.holdDecision
        (watchEvaluate { c with raised := [.guard] } (((seen c s).latch .guard).enterClaim (guardRaise level c))).1))) := by
  have kind : write.isSome = true → c.kind = .write := fun given => (isWrite_iff c).1 (writes.trans given)
  refine ⟨fun plain => ?_, fun route given noLevel => ?_, fun level route given guarded => ?_⟩
  · rw [row, presented_plain]
    rintro ⟨route, isWrite⟩
    rcases plain with other | none'
    · exact other route
    · rw [writes, none'] at isWrite
      exact Bool.false_ne_true isWrite
  · rw [row, presented_noLevel route (kind given) noLevel]
  · rw [row, presented_level raised route (kind given) guarded]

end presentation

/-- Settles O30: the four units by the fold over them, then the delivery of a byte, the trace actions, and presentation. -/
theorem watchEvaluationSetsUnits : Obligations.WatchEvaluationSetsUnits := by
  refine ⟨fun c s i => watchEvaluate_unit c s i, fun c s => ?_, fun data address i e s => ?_, fun data address s => ?_, traceStop_cases,
    fun address write fetch selects s => ?_⟩
  · have judged := watchEvaluate_judged c s
    exact ⟨judged.cycle, watchEvaluate_state c s, watchEvaluate_noticed c s,
      fun i level free fired given => judged.entered i level free (mem_units4 i) fired given,
      fun source quiet => judged.others source fun i _ => quiet i, fun i => watchEvaluate_armed c s i⟩
  · intro u judged r claimed
    obtain ⟨fires', quiet, fired⟩ := recordMatch_judged (s := s) (i := i)
    refine ⟨fun idle => deliverUnit_of_quiet (p := (e, s)) idle data address, fun pending unmet => deliverUnit_unmet data address e pending unmet,
      fun pending met => ⟨fires', fun still => ⟨quiet still, ?_⟩, fun goes => ⟨fired goes, ?_⟩⟩⟩
    · exact (deliverUnit_met data address e pending met).trans (if_neg (Bool.eq_false_iff.1 still))
    · refine ((deliverUnit_met data address e pending met).trans (if_pos goes)).trans (fireAtDelivery_eq i s.watch[i].actions address _ _ claimed ?_)
      dsimp only [claimed, u]
      cases s.watch[i].actions.hold <;> rfl
  · intro d p started
    refine ⟨?_, fun quiet => readDataEvaluate_of_quiet quiet data address⟩
    have result : readDataEvaluate data address s =
      (p.1, if p.1.stop then (if p.1.start then p.2.traceStart else p.2).traceStop else (if p.1.start then p.2.traceStart else p.2)) := rfl
    rw [result, traceStart_if]
  · intro c s1 judged may mapped
    have row := exec_cyclePresented_mapped may mapped
    have writes : c.isWrite = write.isSome := targetPlain_iff address write fetch selects s
    have raised : c.raised = [] := rfl
    exact presented_cases writes raised row

end Sys2Proof.EvaluateRows
end

section
/-! PROOFS. SUBMIT (R165 to R168). -/

namespace Sys2Proof.SubmitRows

open Sys2Proof Sys2Proof.Machine Sys2Proof.Resets Sys2Proof.JobTable Sys2Proof.WindowRows

/-! ### The operation that the fields give -/

theorem policy_ofCode (n : Nat) : Policy.ofCode n = match n with | 0 => some .first | 1 => some .count | 2 => some .retry | _ => none := by
  match n with
  | 0 => rfl
  | 1 => rfl
  | 2 => rfl
  | n + 3 => rfl

theorem submitOperation_sector {f : SubmitFields} (h : f.operation = 0) : submitOperation f = some .eraseSector := by simp only [submitOperation, h]

theorem submitOperation_lane {f : SubmitFields} (h : f.operation = 1) : submitOperation f = some .eraseLane := by simp only [submitOperation, h]

theorem submitOperation_blank {f : SubmitFields} (h : f.operation = 4) : submitOperation f = some .blankCheck := by simp only [submitOperation, h]

theorem submitOperation_sum {f : SubmitFields} (h : f.operation = 5) : submitOperation f = some .sum := by simp only [submitOperation, h]

theorem submitOperation_beyond {f : SubmitFields} {n : Nat} (h : f.operation = n + 6) : submitOperation f = none := by simp only [submitOperation, h]

theorem submitOperation_program {f : SubmitFields} (h : f.operation = 2) : submitOperation f =
    if inRange : f.slot < 4 then (if f.slotOffset ≤ 4095 then some (.program ⟨f.slot, inRange⟩ f.slotOffset f.precheck f.verifyAfter) else none) else none := by
  simp only [submitOperation, h]
  by_cases inRange : f.slot < 4
  · rw [laneOfCode_of_lt inRange, dif_pos inRange]
  · rw [laneOfCode_of_not_lt inRange, dif_neg inRange]

theorem submitOperation_verify {f : SubmitFields} (h : f.operation = 3) : submitOperation f =
    if inRange : f.slot < 4 then
      (match Policy.ofCode f.policy with
       | some policy => if f.slotOffset ≤ 4095 then some (.verify ⟨f.slot, inRange⟩ f.slotOffset policy) else none
       | none => none)
    else none := by
  simp only [submitOperation, h]
  by_cases inRange : f.slot < 4
  · rw [laneOfCode_of_lt inRange, dif_pos inRange]
    cases Policy.ofCode f.policy <;> rfl
  · rw [laneOfCode_of_not_lt inRange, dif_neg inRange]

theorem submitOperation_eq (f : SubmitFields) : submitOperation f =
    match f.operation with
    | 0 => some .eraseSector
    | 1 => some .eraseLane
    | 2 => if h : f.slot < 4 then (if f.slotOffset ≤ 4095 then some (.program ⟨f.slot, h⟩ f.slotOffset f.precheck f.verifyAfter) else none) else none
    | 3 => if h : f.slot < 4 then
        (match f.policy with
         | 0 => if f.slotOffset ≤ 4095 then some (.verify ⟨f.slot, h⟩ f.slotOffset .first) else none
         | 1 => if f.slotOffset ≤ 4095 then some (.verify ⟨f.slot, h⟩ f.slotOffset .count) else none
         | 2 => if f.slotOffset ≤ 4095 then some (.verify ⟨f.slot, h⟩ f.slotOffset .retry) else none
         | _ => none)
      else none
    | 4 => some .blankCheck
    | 5 => some .sum
    | _ => none := by
  match code : f.operation with
  | 0 => exact submitOperation_sector code
  | 1 => exact submitOperation_lane code
  | 2 => exact submitOperation_program code
  | 3 =>
    rw [submitOperation_verify code, policy_ofCode]
    match f.policy with
    | 0 => rfl
    | 1 => rfl
    | 2 => rfl
    | n + 3 => rfl
  | 4 => exact submitOperation_blank code
  | 5 => exact submitOperation_sum code
  | n + 6 => exact submitOperation_beyond code

/-- The code of the operation. -/
theorem submitOperation_code {f : SubmitFields} {op : Operation} (h : submitOperation f = some op) : f.operation = op.code := by
  match code : f.operation with
  | 0 =>
    rw [submitOperation_sector code] at h
    rw [← Option.some.inj h]
    rfl
  | 1 =>
    rw [submitOperation_lane code] at h
    rw [← Option.some.inj h]
    rfl
  | 2 =>
    rw [submitOperation_program code] at h
    split at h
    · split at h
      · rw [← Option.some.inj h]
        rfl
      · exact nomatch h
    · exact nomatch h
  | 3 =>
    rw [submitOperation_verify code] at h
    split at h
    · split at h
      · split at h
        · rw [← Option.some.inj h]
          rfl
        · exact nomatch h
      · exact nomatch h
    · exact nomatch h
  | 4 =>
    rw [submitOperation_blank code] at h
    rw [← Option.some.inj h]
    rfl
  | 5 =>
    rw [submitOperation_sum code] at h
    rw [← Option.some.inj h]
    rfl
  | n + 6 =>
    rw [submitOperation_beyond code] at h
    exact nomatch h

/-- The fields that R166's check 2 refuses. -/
theorem submitOperation_of_bad {f : SubmitFields} (bad : 5 < f.operation ∨ ((f.operation = 2 ∨ f.operation = 3) ∧ (3 < f.slot ∨ 4095 < f.slotOffset)) ∨
    (f.operation = 3 ∧ 2 < f.policy)) : submitOperation f = none := by
  rcases bad with beyond | ⟨program | verify, misplaced⟩ | ⟨verify, unknown⟩
  · cases h : submitOperation f with
    | none => rfl
    | some op =>
      have code := submitOperation_code h
      cases op <;> simp only [Operation.code] at code <;> omega
  · rw [submitOperation_program program]
    split
    · exact if_neg (by omega)
    · rfl
  · rw [submitOperation_verify verify]
    split
    · split
      · exact if_neg (by omega)
      · rfl
    · rfl
  · rw [submitOperation_verify verify, policy_ofCode]
    split
    · match h : f.policy with
      | 0 => omega
      | 1 => omega
      | 2 => omega
      | n + 3 => rfl
    · rfl

/-! ### The checks of R166 -/

/-- The operations that a lane of the class admits (R166, check 5). -/
theorem admits_iff {f : SubmitFields} {op : Operation} (code : f.operation = op.code) (cls : LaneClass) : cls.admits op = true ↔
    cls = .flash ∨ f.operation = 3 ∨ f.operation = 4 ∨ f.operation = 5 ∨ (cls = .ram ∧ f.operation = 2) := by
  rw [code]
  cases cls <;> cases op <;> simp [LaneClass.admits, Operation.code, Operation.writeClass, Operation.options]

/-- The range that R166's check 6 refuses. -/
def Outside (f : SubmitFields) (p : Profile) : Prop :=
  if f.operation = 0 then f.address < p.base ∨ p.base + p.size ≤ f.address
  else if f.operation = 1 then False
  else f.length = 0 ∨ f.address < p.base ∨ p.base + p.size < f.address + f.length

theorem outside_sector {f : SubmitFields} (code : f.operation = 0) (p : Profile) : Outside f p ↔ p.inRange f.address = false := by
  rw [Outside, if_pos code, Profile.inRange, Profile.limit, Bool.and_eq_false_iff, decide_eq_false_iff_not, decide_eq_false_iff_not]
  omega

theorem outside_lane {f : SubmitFields} (code : f.operation = 1) (p : Profile) : ¬Outside f p := by
  rw [Outside, if_neg (by omega), if_pos code]
  exact id

theorem outside_range {f : SubmitFields} (code : 2 ≤ f.operation) (p : Profile) :
    Outside f p ↔ f.length = 0 ∨ f.address < p.base ∨ p.limit < f.address + f.length := by
  rw [Outside, if_neg (by omega), if_neg (by omega)]
  rfl

theorem submitRange_long {f : SubmitFields} {op : Operation} (code : f.operation = op.code) (long : 2 ≤ f.operation) (p : Profile) :
    submitRange op f p = if f.length = 0 ∨ f.address < p.base ∨ p.limit < f.address + f.length then .error .badValue else .ok (f.address, f.length) := by
  cases op with
  | eraseSector => simp only [Operation.code] at code; omega
  | eraseLane => simp only [Operation.code] at code; omega
  | program _ _ _ _ | verify _ _ _ | blankCheck | sum => rfl

theorem operation_of_zero {op : Operation} (h : op.code = 0) : op = .eraseSector := by
  cases op with
  | eraseSector => rfl
  | eraseLane | program _ _ _ _ | verify _ _ _ | blankCheck | sum => exact nomatch h

theorem operation_of_one {op : Operation} (h : op.code = 1) : op = .eraseLane := by
  cases op with
  | eraseLane => rfl
  | eraseSector | program _ _ _ _ | verify _ _ _ | blankCheck | sum => exact nomatch h

section range
variable {f : SubmitFields} {op : Operation} {p : Profile} (code : f.operation = op.code)

include code

theorem submitRange_outside (outside : Outside f p) : submitRange op f p = .error .badValue := by
  by_cases sector : f.operation = 0
  · obtain rfl := operation_of_zero (code.symm.trans sector)
    exact if_pos ((outside_sector sector p).1 outside)
  · have long : 2 ≤ f.operation := by
      by_contra short
      exact outside_lane (by omega) p outside
    rw [submitRange_long code long, if_pos ((outside_range long p).1 outside)]

theorem submitRange_misaligned (inside : ¬Outside f p) (sector : f.operation = 0) (none' : ∀ q ∈ p.sectors, q.1 ≠ f.address) :
    submitRange op f p = .error .badAlign := by
  obtain rfl := operation_of_zero (code.symm.trans sector)
  have missing : p.sectors.find? (fun q => decide (q.1 = f.address)) = none := List.find?_eq_none.2 fun q mem => by simpa using none' q mem
  refine (if_neg (mt (outside_sector sector p).2 inside)).trans ?_
  rw [missing]

theorem submitRange_ok (inside : ¬Outside f p) {address length : Nat}
    (sector : f.operation = 0 → address = f.address ∧ p.sectors.find? (fun q => decide (q.1 = f.address)) = some (f.address, length))
    (lane : f.operation = 1 → address = p.base ∧ length = p.size) (long : 2 ≤ f.operation → address = f.address ∧ length = f.length) :
    submitRange op f p = .ok (address, length) := by
  by_cases zero : f.operation = 0
  · obtain rfl := operation_of_zero (code.symm.trans zero)
    obtain ⟨rfl, found⟩ := sector zero
    refine (if_neg (mt (outside_sector zero p).2 inside)).trans ?_
    rw [found]
  · by_cases one : f.operation = 1
    · obtain rfl := operation_of_one (code.symm.trans one)
      obtain ⟨rfl, rfl⟩ := lane one
      rfl
    · have two : 2 ≤ f.operation := by omega
      obtain ⟨rfl, rfl⟩ := long two
      rw [submitRange_long code two, if_neg (mt (outside_range two p).2 inside)]

end range

/-- The slot of a PROGRAM or VERIFY (R166, check 8). -/
theorem slotReady_iff (op : Operation) (length : Nat) (s : State) : s.slotReady op length = true ↔
    ∀ slot offset, op.slot = some (slot, offset) → s.slots[slot].state.isSealed = true ∧ offset + length ≤ s.slots[slot].contents.length := by
  unfold State.slotReady
  cases named : op.slot with
  | none => simp
  | some q =>
    obtain ⟨slot, offset⟩ := q
    have ready : ((s.slots[slot].state.isSealed && decide (offset + length ≤ s.slots[slot].contents.length)) = true) ↔
        s.slots[slot].state.isSealed = true ∧ offset + length ≤ s.slots[slot].contents.length := by rw [Bool.and_eq_true, decide_eq_true_eq]
    refine Iff.trans ready ⟨fun ⟨isSealed, fits⟩ slot' offset' same => ?_, fun all => all slot offset rfl⟩
    obtain ⟨rfl, rfl⟩ := Prod.mk.inj (Option.some.inj same)
    exact ⟨isSealed, fits⟩

/-- The length of a PROGRAM's or VERIFY's range. -/
theorem two_le_of_slot {op : Operation} {slot : Fin 4} {offset : Nat} (named : op.slot = some (slot, offset)) : 2 ≤ op.code := by
  cases op with
  | program _ _ _ _ | verify _ _ _ => simp [Operation.code]
  | eraseSector | eraseLane | blankCheck | sum => exact nomatch named

section checks
variable {f : SubmitFields} {op : Operation} {lane : Fin 4} {t : State} {p : Profile}

theorem submitCheck_full (full : 8 ≤ t.engine.jobs.length) : t.submitCheck op lane f = .error .queueFull := if_pos full

theorem submitCheck_noProfile (room : t.engine.jobs.length < 8) (missing : t.lanes[lane].profile = none) : t.submitCheck op lane f = .error .noProfile := by
  refine (if_neg (Nat.not_le.2 room)).trans ?_
  rw [State.profileOf, missing]

section profile
variable (room : t.engine.jobs.length < 8) (given : t.lanes[lane].profile = some p)

include room given

theorem submitCheck_barred (barred : p.cls.admits op = false) : t.submitCheck op lane f = .error .badValue := by
  refine (if_neg (Nat.not_le.2 room)).trans ?_
  rw [State.profileOf, given]
  exact if_pos barred

theorem submitCheck_range (admitted : p.cls.admits op = true) {status : Status} (range : submitRange op f p = .error status) :
    t.submitCheck op lane f = .error status := by
  refine (if_neg (Nat.not_le.2 room)).trans ?_
  rw [State.profileOf, given]
  refine (if_neg (by rw [admitted]; exact Bool.noConfusion)).trans ?_
  rw [range]

theorem submitCheck_slot (admitted : p.cls.admits op = true) {address length : Nat} (range : submitRange op f p = .ok (address, length)) :
    t.submitCheck op lane f = if t.slotReady op length then .ok (address, length) else .error .slotNotReady := by
  refine (if_neg (Nat.not_le.2 room)).trans ?_
  rw [State.profileOf, given]
  refine (if_neg (by rw [admitted]; exact Bool.noConfusion)).trans ?_
  rw [range]

end profile

end checks

/-! ### The new entry -/

/-- The number of a new entry is the next one that no entry holds (R165). -/
theorem newNumber_spec {e : Engine} (room : e.jobs.length < 8) : ∃ k, e.newNumber = (e.nextNumber + k) % 256 ∧ (∀ j ∈ e.jobs, j.number ≠ e.newNumber) ∧
    ∀ i, i < k → ∃ j ∈ e.jobs, j.number = (e.nextNumber + i) % 256 := by
  have free : e.holds e.newNumber = false := newNumber_free (by omega)
  have unheld : ∀ j ∈ e.jobs, j.number ≠ e.newNumber := by simpa [Engine.holds] using free
  cases found : ((List.range 256).map (fun i => (e.nextNumber + i) % 256)).find? (fun n => !e.holds n) with
  | none =>
    have same : ∀ i, (e.nextNumber % 256 + i) % 256 = (e.nextNumber + i) % 256 := fun i => by omega
    have reduced : ({ e with nextNumber := e.nextNumber % 256 } : Engine).newNumber = e.nextNumber % 256 := by
      unfold Engine.newNumber
      simp only [same]
      exact congrArg (fun o => Option.getD o (e.nextNumber % 256)) found
    have free' : ({ e with nextNumber := e.nextNumber % 256 } : Engine).holds (e.nextNumber % 256) = false := by
      have := newNumber_free (e := { e with nextNumber := e.nextNumber % 256 }) (by dsimp only; omega)
      rwa [reduced] at this
    have mem : e.nextNumber % 256 ∈ (List.range 256).map (fun i => (e.nextNumber + i) % 256) :=
      List.mem_map.2 ⟨0, List.mem_range.2 (by omega), by rw [Nat.add_zero]⟩
    have held : e.holds (e.nextNumber % 256) = true := by simpa using List.find?_eq_none.1 found _ mem
    exact absurd (free'.symm.trans held) Bool.false_ne_true
  | some n =>
    have number : e.newNumber = n := by rw [Engine.newNumber, found, Option.getD_some]
    obtain ⟨-, k, inRange, at_, before⟩ := List.find?_eq_some_iff_getElem.1 found
    rw [List.getElem_map, List.getElem_range] at at_
    refine ⟨k, number.trans at_.symm, unheld, fun i earlier => ?_⟩
    have held := before i earlier
    rw [List.getElem_map, List.getElem_range] at held
    simpa [Engine.holds] using held

theorem enterJob_eq (op : Operation) (lane : Fin 4) (address length : Nat) (t : State) : t.enterJob op lane address length = { t with
    engine := { jobs := t.engine.jobs ++ [{ number := t.engine.newNumber, op := op, lane := lane, address := address, length := length, state := .queued }],
                endOrder := t.engine.endOrder, nextNumber := (t.engine.newNumber + 1) % 256 }
    slots := match op.slot with
      | some (slot, _) => t.slots.set slot { t.slots[slot] with binds := t.slots[slot].binds + 1 }
      | none => t.slots } := by
  unfold State.enterJob State.bind
  dsimp only
  cases op.slot <;> rfl

section rows
variable {f : SubmitFields} {s t : State} (taken : s.takes (.submit f) t)

include taken

theorem exec_submit_bad (bad : submitOperation f = none ∨ ¬f.lane < 4) : exec (.submit f) s = .next (t.respond .badValue 0x70 .empty) := by
  refine (exec_of_takes rfl taken).trans ?_
  rcases bad with none' | beyond
  · rw [none']
    rfl
  · rw [laneOfCode_of_not_lt beyond]
    cases submitOperation f <;> rfl

variable {op : Operation} {lane : Fin 4} (operation : submitOperation f = some op) (selects : f.lane = lane.val)

include operation selects

theorem exec_submit_error {status : Status} (checked : t.submitCheck op lane f = .error status) :
    exec (.submit f) s = .next (t.respond status 0x70 .empty) := by
  refine (exec_of_takes rfl taken).trans ?_
  rw [operation, selects, laneOfCode_of_lt lane.isLt]
  dsimp only
  rw [show (⟨lane.val, lane.isLt⟩ : Fin 4) = lane from rfl, checked]
  rfl

theorem exec_submit_ok {address length : Nat} (checked : t.submitCheck op lane f = .ok (address, length)) : exec (.submit f) s =
    .next ((t.enterJob op lane address length).settle.respond .ok 0x70
      (.submitted t.engine.newNumber ((t.enterJob op lane address length).settle.engine.stateOf t.engine.newNumber))) := by
  refine (exec_of_takes rfl taken).trans ?_
  rw [operation, selects, laneOfCode_of_lt lane.isLt]
  dsimp only
  rw [show (⟨lane.val, lane.isLt⟩ : Fin 4) = lane from rfl, checked]
  rfl

end rows

/-- Settles O58: the checks of R166 in their order, then the entry and the start rule. -/
theorem submitEntersJob : Obligations.SubmitEntersJob := by
  refine ⟨submitOperation_eq, fun op => by cases op <;> rfl, fun f s t taken => ⟨fun bad => ?_, fun op lane operation selects => ⟨fun full => ?_, fun room missing => ?_,
    fun p room given => ?_⟩⟩⟩
  · refine exec_submit_bad taken ?_
    rcases bad with beyond | far | placed | policy
    · exact .inl (submitOperation_of_bad (.inl beyond))
    · exact .inr (by omega)
    · exact .inl (submitOperation_of_bad (.inr (.inl placed)))
    · exact .inl (submitOperation_of_bad (.inr (.inr policy)))
  · exact exec_submit_error taken operation selects (submitCheck_full full)
  · exact exec_submit_error taken operation selects (submitCheck_noProfile room missing)
  · intro admitted outside
    have code := submitOperation_code operation
    have admits : admitted → p.cls.admits op = true := (admits_iff code p.cls).2
    refine ⟨fun barred => ?_, fun allowed out => ?_, fun allowed inside sector none' => ?_, fun slot offset allowed inside named unready => ?_,
      fun address length allowed inside sector whole long ready => ?_⟩
    · exact exec_submit_error taken operation selects (submitCheck_barred room given (Bool.eq_false_iff.2 (mt (admits_iff code p.cls).1 barred)))
    · exact exec_submit_error taken operation selects (submitCheck_range room given (admits allowed) (submitRange_outside code out))
    · exact exec_submit_error taken operation selects (submitCheck_range room given (admits allowed) (submitRange_misaligned code inside sector none'))
    · have two : 2 ≤ f.operation := code ▸ two_le_of_slot named
      have range := submitRange_ok (op := op) (p := p) code inside (address := f.address) (length := f.length) (fun zero => by omega) (fun one => by omega)
        fun _ => ⟨rfl, rfl⟩
      refine exec_submit_error taken operation selects ((submitCheck_slot room given (admits allowed) range).trans (if_neg fun isReady => ?_))
      obtain ⟨isSealed, fits⟩ := (slotReady_iff ..).1 isReady slot offset named
      rcases unready with open' | short
      · exact Bool.false_ne_true (open'.symm.trans isSealed)
      · omega
    · have range := submitRange_ok code inside sector whole long
      have isReady : t.slotReady op length = true := by
        refine (slotReady_iff ..).2 fun slot offset named => ?_
        obtain ⟨rfl, rfl⟩ := long (code ▸ two_le_of_slot named)
        exact ready slot offset named
      obtain ⟨k, number, free, held⟩ := newNumber_spec room
      refine ⟨t.engine.newNumber, k, number, free, held, ?_⟩
      have row := exec_submit_ok taken operation selects ((submitCheck_slot room given (admits allowed) range).trans (if_pos isReady))
      rw [enterJob_eq] at row
      exact row

end Sys2Proof.SubmitRows
end

section
/-! PROOFS. PEEK and POKE (R43, R44, R143 to R146). -/

namespace Sys2Proof.PeekRows

open Sys2Proof Sys2Proof.Machine Sys2Proof.Resets Sys2Proof.WindowRows Sys2Proof.BoardRows Sys2Proof.InjectRows

/-! ### The bytes of a transfer -/

theorem boardBound_iff (b : TransferByte) : b.boardBound = true ↔
    b.route = .pass ∨ (b.route = .guard ∧ b.write = none) ∨ (b.route = .shadow ∧ b.write.isSome = true) := by
  rw [TransferByte.boardBound]
  cases b.route <;> cases b.write <;> simp [Route.boardBound]

/-- One byte per address from the first upward (R143). -/
theorem transferBytes_eq (ws : Vector Window 16) (view : Bool) (lane : Lane) (address : Nat) (writes : List (Option Byte)) :
    transferBytes ws view lane address writes = writes.mapIdx (fun i w => transferByte ws view lane (address + i) w) := by
  induction writes generalizing address with
  | nil => rfl
  | cons w rest ih =>
    rw [transferBytes, ih, List.mapIdx_cons]
    simp only [Nat.add_zero, Nat.add_assoc, Nat.add_comm 1]

theorem transferBytes_reads (ws : Vector Window 16) (view : Bool) (lane : Lane) (address count : Nat) :
    transferBytes ws view lane address (List.replicate count none) = (List.range count).map (fun i => transferByte ws view lane (address + i) none) := by
  rw [transferBytes_eq]
  apply List.ext_getElem
  · simp
  · intro i h1 h2
    simp

theorem transferBytes_writes (ws : Vector Window 16) (view : Bool) (lane : Lane) (address : Nat) (data : List Byte) :
    transferBytes ws view lane address (data.map some) = data.mapIdx (fun i d => transferByte ws view lane (address + i) (some d)) := by
  rw [transferBytes_eq]
  apply List.ext_getElem
  · simp
  · intro i h1 h2
    simp

/-- The view lane of a code, where there is one (R43). -/
def laneOf (lane : Nat) : Option Lane := if lane = 7 then some none else if h : lane < 4 then some (some ⟨lane, h⟩) else none

/-- A byte as PEEK and POKE see it (R43). -/
def viewed (t : State) (path : Nat) (l : Option Lane) (address : Nat) (write : Option Byte) : TransferByte :=
  if path = 0 then { address := address, write := write, route := .pass, location := none }
  else { address := address, write := write, route := (resolve t.windows address (l.getD none)).route,
         location := (resolve t.windows address (l.getD none)).location }

/-- The path and lane that R144's check 2 refuses. -/
def BadPath (path lane : Nat) : Prop := 1 < path ∨ (path = 1 ∧ 3 < lane ∧ lane ≠ 7)

theorem cycleLaneOfCode_laneOf (lane : Nat) : cycleLaneOfCode lane = laneOf lane := by
  rw [laneOf]
  by_cases seven : lane = 7
  · rw [if_pos seven]
    exact if_pos seven
  · rw [if_neg seven]
    refine (if_neg seven).trans ?_
    by_cases inRange : lane < 4
    · rw [dif_pos inRange, laneOfCode_of_lt inRange]
      rfl
    · rw [dif_neg inRange, laneOfCode_of_not_lt inRange]
      rfl

theorem viewOfCode_of_bad {path lane : Nat} (bad : BadPath path lane) : viewOfCode path lane = none := by
  rcases bad with beyond | ⟨rfl, far, other⟩
  · match path with
    | 0 => omega
    | 1 => omega
    | n + 2 => rfl
  · simp only [viewOfCode, cycleLaneOfCode_laneOf, laneOf, if_neg other, dif_neg (show ¬lane < 4 by omega), Option.map_none]

/-- The view that the fields give, and its bytes. -/
theorem viewOfCode_of_good {path lane : Nat} (good : ¬BadPath path lane) : ∃ view l, viewOfCode path lane = some (view, l) ∧ (view = true ↔ path = 1) ∧
    ∀ (t : State) (address : Nat) (write : Option Byte), transferByte t.windows view l address write = viewed t path (laneOf lane) address write := by
  rw [BadPath] at good
  match path with
  | 0 => exact ⟨false, none, rfl, by simp, fun t address write => rfl⟩
  | 1 =>
    have some' : ∃ l, laneOf lane = some l := by
      rw [laneOf]
      split
      · exact ⟨_, rfl⟩
      · split
        · exact ⟨_, rfl⟩
        · omega
    obtain ⟨l, lane'⟩ := some'
    refine ⟨true, l, ?_, by simp, fun t address write => ?_⟩
    · simp only [viewOfCode, cycleLaneOfCode_laneOf, lane', Option.map_some]
    · simp only [transferByte, viewed, lane', if_true, Option.getD_some, one_ne_zero, if_false]
  | n + 2 => omega

theorem spanFits_iff (address count : Nat) : spanFits address count = true ↔ address ≤ 0xFFFFF ∧ address + count ≤ 0x100000 := by
  have limit : Config.addressLimit = 0x100000 := rfl
  rw [spanFits, limit, Bool.and_eq_true, decide_eq_true_eq, decide_eq_true_eq]
  omega

/-! ### The refusals of R144 -/

/-- Check 4. -/
def Overlays (t : State) (path : Nat) (bytes : List TransferByte) : Prop :=
  path = 1 ∧ t.overlay.survey = .commanded ∧ ∃ b ∈ bytes, b.route = .overlay ∨ b.route = .overlayRo ∨ b.route = .shadow

/-- Check 7. -/
def Busy (t : State) (bytes : List TransferByte) : Prop :=
  ∃ j p b, t.activeJob = some j ∧ j.op.writeClass = true ∧ t.lanes[j.lane].profile = some p ∧ b ∈ bytes ∧ b.boardBound = true ∧ p.base ≤ b.address ∧
    b.address < p.base + p.size

/-- What checks 4 to 7 refuse. -/
def Barred (t : State) (path : Nat) (bytes : List TransferByte) : Prop :=
  Overlays t path bytes ∨ ((∃ b ∈ bytes, b.boardBound = true) ∧ (t.port.powered = false ∨ t.busKept = true ∨ Busy t bytes))

section refusal
variable {t : State} {path : Nat} {view : Bool} {bytes : List TransferByte}

theorem overlays_iff (one : view = true ↔ path = 1) :
    (view && decide (t.overlay.survey = .commanded) && bytes.any (fun b => b.route.isOverlay)) = true ↔ Overlays t path bytes := by
  simp only [Overlays, Bool.and_eq_true, decide_eq_true_eq, List.any_eq_true, isOverlay_iff, one, and_assoc]

theorem bound_isEmpty_iff : (bytes.filter TransferByte.boardBound).isEmpty = true ↔ ¬∃ b ∈ bytes, b.boardBound = true := by
  simp [List.isEmpty_iff, List.filter_eq_nil_iff]

theorem busy_iff : t.activeJob.any (fun j => j.op.writeClass && (t.profileOf j.lane).any (fun p => (bytes.filter TransferByte.boardBound).any
    (fun b => p.inRange b.address))) = true ↔ Busy t bytes := by
  simp only [Busy, Option.any_eq_true, Bool.and_eq_true, List.any_eq_true, List.mem_filter, State.profileOf, Profile.inRange, Profile.limit, decide_eq_true_eq]
  constructor
  · rintro ⟨j, active, write, p, profile, b, ⟨mem, bound⟩, from', below⟩
    exact ⟨j, p, b, active, write, profile, mem, bound, from', of_decide_eq_true below⟩
  · rintro ⟨j, p, b, active, write, profile, mem, bound, from', below⟩
    exact ⟨j, active, write, p, profile, b, ⟨mem, bound⟩, from', decide_eq_true below⟩

/-- The refusals in their order (R144). -/
theorem transferRefusal_cases (one : view = true ↔ path = 1) :
    (Overlays t path bytes → t.transferRefusal view bytes = some .overlayBusy) ∧
    (¬Overlays t path bytes → (∃ b ∈ bytes, b.boardBound = true) → t.port.powered = false → t.transferRefusal view bytes = some .unpowered) ∧
    (¬Overlays t path bytes → (∃ b ∈ bytes, b.boardBound = true) → t.port.powered = true → t.busKept = true →
      t.transferRefusal view bytes = some .targetRunning) ∧
    (¬Overlays t path bytes → (∃ b ∈ bytes, b.boardBound = true) → t.port.powered = true → t.busKept = false → Busy t bytes →
      t.transferRefusal view bytes = some .laneBusy) ∧
    (¬Barred t path bytes → t.transferRefusal view bytes = none) := by
  have start : ¬Overlays t path bytes → ¬(view && decide (t.overlay.survey = .commanded) && bytes.any (fun b => b.route.isOverlay)) = true :=
    mt (overlays_iff one).1
  have goesOn : (∃ b ∈ bytes, b.boardBound = true) → ¬(bytes.filter TransferByte.boardBound).isEmpty = true := fun bound none' => bound_isEmpty_iff.1 none' bound
  unfold State.transferRefusal
  refine ⟨fun overlays => if_pos ((overlays_iff one).2 overlays), fun free bound dead => ?_, fun free bound powered kept => ?_,
    fun free bound powered open' busy => ?_, fun free => ?_⟩
  · dsimp only
    rw [if_neg (start free), if_neg (goesOn bound), if_pos dead]
  · dsimp only
    rw [if_neg (start free), if_neg (goesOn bound), if_neg (by simp [powered]), if_pos kept]
  · dsimp only
    rw [if_neg (start free), if_neg (goesOn bound), if_neg (by simp [powered]), if_neg (by simp [open']), if_pos (busy_iff.2 busy)]
  · obtain ⟨noOverlay, noBus⟩ := not_or.1 free
    dsimp only
    rw [if_neg (start noOverlay)]
    by_cases bound : ∃ b ∈ bytes, b.boardBound = true
    · obtain ⟨powered, open', idle⟩ : ¬t.port.powered = false ∧ ¬t.busKept = true ∧ ¬Busy t bytes := by
        have := fun h => noBus ⟨bound, h⟩
        exact ⟨fun h => this (.inl h), fun h => this (.inr (.inl h)), fun h => this (.inr (.inr h))⟩
      rw [if_neg (goesOn bound), if_neg powered, if_neg open', if_neg (mt busy_iff.1 idle)]
    · rw [if_pos (bound_isEmpty_iff.2 bound)]

end refusal

theorem mapped_iff {t : State} {bytes : List TransferByte} : bytes.all (fun b => b.location.all t.overlay.maps) = true ↔
    ∀ b ∈ bytes, ∀ l, b.location = some l → t.overlay.maps l = true := by
  simp only [List.all_eq_true, Option.all_eq_true]

/-! ### The course of a transfer -/

theorem runTransfer_free {b : TransferByte} (free : b.boardBound = false) (rest : List TransferByte) {tr : Transfer} (atOnce : tr.bytewise = false) (s : State) :
    s.runTransfer (b :: rest) tr = (s.transferWrite b).runTransfer rest (tr.made' b (s.transferRead b)) := by
  rw [State.runTransfer, if_neg (by simp [free]), if_neg (by simp [atOnce])]

theorem runTransfer_step {b : TransferByte} (free : b.boardBound = false) (rest : List TransferByte) {tr : Transfer} (bytewise : tr.bytewise = true) (s : State) :
    s.runTransfer (b :: rest) tr = s.occupy (.transfer { tr with todo := b :: rest }) := by
  rw [State.runTransfer, if_neg (by simp [free]), if_pos bytewise]

/-- A PEEK made at once: every byte is an overlay byte or the float byte. -/
theorem runTransfer_reads {bytes : List TransferByte} (free : ∀ b ∈ bytes, b.boardBound = false) (reads : ∀ b ∈ bytes, b.write = none) {tr : Transfer}
    (form : tr.form = .peek) (atOnce : tr.bytewise = false) (s : State) : s.runTransfer bytes tr =
      s.respond .ok 0x50 (.peeked (tr.made ++ bytes.map s.transferRead) (tr.count + bytes.length)) := by
  induction bytes generalizing tr with
  | nil =>
    rw [runTransfer_nil, finishTransfer_peek (t := { tr with todo := [] }) form, List.map_nil, List.append_nil]
    rfl
  | cons b rest ih =>
    have read : b.write = none := reads b List.mem_cons_self
    have made : tr.made' b (s.transferRead b) = { tr with made := tr.made ++ [s.transferRead b], count := tr.count + 1 } := by
      rw [Transfer.made', read]
      rfl
    rw [runTransfer_free (free b List.mem_cons_self) rest atOnce, transferWrite_of_none (.inl read), made,
      ih (fun b mem => free b (List.mem_cons_of_mem _ mem)) (fun b mem => reads b (List.mem_cons_of_mem _ mem))
        (tr := { tr with made := tr.made ++ [s.transferRead b], count := tr.count + 1 }) form atOnce,
      List.map_cons, List.append_assoc, List.singleton_append, List.length_cons, Nat.add_assoc, Nat.add_comm 1]

/-- The overlay byte that a POKE byte writes (R44). -/
def pokeByte (o : Overlay) (b : TransferByte) : Overlay :=
  match b.location with
  | some l => o.writeByte l (b.write.getD 0)
  | none => o

theorem transferWrite_poke {b : TransferByte} (writes : b.write.isSome = true) (s : State) : s.transferWrite b = { s with overlay := pokeByte s.overlay b } := by
  obtain ⟨d, write⟩ := Option.isSome_iff_exists.1 writes
  cases location : b.location with
  | none => rw [transferWrite_of_none (.inr location), pokeByte, location]
  | some l => rw [transferWrite_of_some write location, pokeByte, location, write, Option.getD_some]

/-- A POKE made at once: its overlay bytes are written, the rest is dropped. -/
theorem runTransfer_writes {bytes : List TransferByte} (free : ∀ b ∈ bytes, b.boardBound = false) (writes : ∀ b ∈ bytes, b.write.isSome = true) {tr : Transfer}
    (form : tr.form = .poke) (atOnce : tr.bytewise = false) (s : State) : s.runTransfer bytes tr =
      ({ s with overlay := bytes.foldl pokeByte s.overlay } : State).respond .ok 0x51 (.poked (tr.count + bytes.length)) := by
  induction bytes generalizing tr s with
  | nil => exact (runTransfer_nil tr s).trans (finishTransfer_poke (t := { tr with todo := [] }) form s)
  | cons b rest ih =>
    have write := writes b List.mem_cons_self
    rw [runTransfer_free (free b List.mem_cons_self) rest atOnce, transferWrite_poke write,
      ih (fun b mem => free b (List.mem_cons_of_mem _ mem)) (fun b mem => writes b (List.mem_cons_of_mem _ mem)) (tr := tr.made' b (s.transferRead b)) form atOnce,
      List.length_cons, Nat.add_comm rest.length, ← Nat.add_assoc]
    rfl

/-! ### A transfer cut short -/

theorem finishTransfer_of_todo (t : Transfer) (bytes : List TransferByte) (s : State) : s.finishTransfer { t with todo := bytes } = s.finishTransfer t := rfl

section cut
variable {s : State} {tr : Transfer} {b : TransferByte} {rest : List TransferByte} (cut : TransferByte → Bool) (todo : tr.todo = b :: rest)
  (activity : s.link.activity = .transfer tr)

include todo activity

/-- A granted byte is finished (R146). -/
theorem cutTransfer_granted (owner : s.bus.owner = .bench) : s.cutTransfer cut = s.occupy (.transfer { tr with todo := b :: rest.takeWhile (fun x => !cut x) }) := by
  rw [State.cutTransfer, activity]
  refine (if_pos owner).trans ?_
  rw [todo]
  rfl

theorem cutTransfer_later (owner : s.bus.owner ≠ .bench) (kept : cut b = false) :
    s.cutTransfer cut = s.occupy (.transfer { tr with todo := b :: rest.takeWhile (fun x => !cut x) }) := by
  have left : tr.todo.takeWhile (fun x => !cut x) = b :: rest.takeWhile (fun x => !cut x) := by rw [todo, List.takeWhile_cons_of_pos (by simp [kept])]
  rw [State.cutTransfer, activity]
  refine (if_neg owner).trans ?_
  rw [left]
  exact if_neg (List.cons_ne_nil _ _)

theorem cutTransfer_now (owner : s.bus.owner ≠ .bench) (here : cut b = true) :
    s.cutTransfer cut = ({ s with bus := { s.bus with bench := none } } : State).finishTransfer tr := by
  have left : tr.todo.takeWhile (fun x => !cut x) = [] := by rw [todo, List.takeWhile_cons_of_neg (by simp [here])]
  rw [State.cutTransfer, activity]
  refine (if_neg owner).trans ?_
  rw [left]
  exact (if_pos rfl).trans (finishTransfer_of_todo ..)

end cut

/-! ### The rows -/

section start
variable {c : Instr} {form : TransferForm} {bytewise view : Bool} {bytes : List TransferByte} {t : State}

theorem startTransfer_refused {status : Status} (refused : t.transferRefusal view bytes = some status) :
    t.startTransfer c form bytewise view bytes = t.reject c status := by rw [State.startTransfer, refused]

theorem startTransfer_runs (free : t.transferRefusal view bytes = none) (mapped : ∀ b ∈ bytes, ∀ l, b.location = some l → t.overlay.maps l = true) :
    t.startTransfer c form bytewise view bytes =
      .next (t.runTransfer bytes { form := form, bytewise := bytewise, todo := bytes, made := [], count := 0 }).settle := by
  rw [State.startTransfer, free]
  exact if_pos (mapped_iff.2 mapped)

end start

section rows
variable {path address lane : Nat} {s t : State}

/-- The fields that R144's check 2 refuses of a PEEK. -/
def BadPeek (path address count lane : Nat) : Prop :=
  BadPath path lane ∨ 0xFFFFF < address ∨ count = 0 ∨ 256 < count ∨ 0x100000 < address + count

/-- The bytes of a PEEK. -/
def peekBytes (t : State) (path address count lane : Nat) : List TransferByte := (List.range count).map (fun i => viewed t path (laneOf lane) (address + i) none)

theorem exec_peek_bad {count : Nat} (taken : s.takes (.peek path address count lane) t) (bad : BadPeek path address count lane) :
    exec (.peek path address count lane) s = .next (t.respond .badValue 0x50 .empty) := by
  refine (exec_of_takes rfl taken).trans ?_
  by_cases misplaced : BadPath path lane
  · rw [viewOfCode_of_bad misplaced]
    rfl
  · obtain ⟨view, l, given, -⟩ := viewOfCode_of_good misplaced
    rw [given]
    refine if_pos ?_
    rw [BadPeek] at bad
    rw [← Bool.not_eq_true]
    by_cases fits : spanFits address count = true
    · have span := (spanFits_iff ..).1 fits
      have fields := bad.resolve_left misplaced
      omega
    · exact .inr (.inr fits)

theorem exec_peek {count : Nat} (taken : s.takes (.peek path address count lane) t) (good : ¬BadPeek path address count lane) :
    ∃ view, (view = true ↔ path = 1) ∧ exec (.peek path address count lane) s =
      t.startTransfer (.peek path address count lane) .peek s.framed view (peekBytes t path address count lane) := by
  rw [BadPeek] at good
  obtain ⟨placed, good⟩ := not_or.1 good
  obtain ⟨view, l, given, one, bytes⟩ := viewOfCode_of_good placed
  refine ⟨view, one, (exec_of_takes rfl taken).trans ?_⟩
  rw [given]
  refine (if_neg ?_).trans ?_
  · rw [← Bool.not_eq_true, spanFits_iff]
    omega
  · rw [transferBytes_reads]
    simp only [bytes]
    rfl

/-- The fields that R144's check 2 refuses of a POKE. -/
def BadPoke (path address : Nat) (data : List Byte) (lane : Nat) : Prop := BadPath path lane ∨ 0xFFFFF < address ∨ 0x100000 < address + data.length

/-- The bytes of a POKE. -/
def pokeBytes (t : State) (path address : Nat) (data : List Byte) (lane : Nat) : List TransferByte :=
  data.mapIdx (fun i d => viewed t path (laneOf lane) (address + i) (some d))

theorem exec_poke_bad {data : List Byte} (taken : s.takes (.poke path address data lane) t) (bad : BadPoke path address data lane) :
    exec (.poke path address data lane) s = .next (t.respond .badValue 0x51 .empty) := by
  refine (exec_of_takes rfl taken).trans ?_
  by_cases misplaced : BadPath path lane
  · rw [viewOfCode_of_bad misplaced]
    rfl
  · obtain ⟨view, l, given, -⟩ := viewOfCode_of_good misplaced
    rw [given]
    refine if_pos ?_
    rw [BadPoke] at bad
    rw [← Bool.not_eq_true, spanFits_iff]
    have := bad.resolve_left misplaced
    omega

theorem spanFits_of_good {data : List Byte} (good : ¬BadPoke path address data lane) : ¬BadPath path lane ∧ spanFits address data.length = true := by
  rw [BadPoke] at good
  obtain ⟨placed, good⟩ := not_or.1 good
  refine ⟨placed, (spanFits_iff ..).2 ?_⟩
  omega

theorem exec_poke_short {data : List Byte} (taken : s.takes (.poke path address data lane) t) (good : ¬BadPoke path address data lane)
    (short : data.length = 0 ∨ 256 < data.length) : exec (.poke path address data lane) s = .next (t.respond .badLength 0x51 .empty) := by
  obtain ⟨placed, fits⟩ := spanFits_of_good good
  obtain ⟨view, l, given, -⟩ := viewOfCode_of_good placed
  refine (exec_of_takes rfl taken).trans ?_
  rw [given]
  exact (if_neg (by simp [fits])).trans (if_pos short)

theorem exec_poke {data : List Byte} (taken : s.takes (.poke path address data lane) t) (good : ¬BadPoke path address data lane)
    (long : ¬(data.length = 0 ∨ 256 < data.length)) : ∃ view, (view = true ↔ path = 1) ∧ exec (.poke path address data lane) s =
      t.startTransfer (.poke path address data lane) .poke s.framed view (pokeBytes t path address data lane) := by
  obtain ⟨placed, fits⟩ := spanFits_of_good good
  obtain ⟨view, l, given, one, bytes⟩ := viewOfCode_of_good placed
  refine ⟨view, one, (exec_of_takes rfl taken).trans ?_⟩
  rw [given]
  refine (if_neg (by simp [fits])).trans ((if_neg long).trans ?_)
  rw [transferBytes_writes]
  simp only [bytes]
  rfl

end rows

theorem viewed_write (t : State) (path : Nat) (l : Option Lane) (address : Nat) (write : Option Byte) : (viewed t path l address write).write = write := by
  unfold viewed
  split <;> rfl

theorem peekBytes_reads {t : State} {path address count lane : Nat} {b : TransferByte} (mem : b ∈ peekBytes t path address count lane) : b.write = none := by
  obtain ⟨i, -, rfl⟩ := List.mem_map.1 mem
  exact viewed_write ..

theorem pokeBytes_writes {t : State} {path address : Nat} {data : List Byte} {lane : Nat} {b : TransferByte} (mem : b ∈ pokeBytes t path address data lane) :
    b.write.isSome = true := by
  obtain ⟨i, inRange, rfl⟩ := List.mem_mapIdx.1 mem
  rw [viewed_write]
  rfl

theorem peekBytes_bound {t : State} {address count lane : Nat} {b : TransferByte} (mem : b ∈ peekBytes t 0 address count lane) : b.boardBound = true := by
  obtain ⟨i, -, rfl⟩ := List.mem_map.1 mem
  rfl

theorem pokeBytes_bound {t : State} {address : Nat} {data : List Byte} {lane : Nat} {b : TransferByte} (mem : b ∈ pokeBytes t 0 address data lane) :
    b.boardBound = true := by
  obtain ⟨i, inRange, rfl⟩ := List.mem_mapIdx.1 mem
  rfl

theorem length_peekBytes (t : State) (path address count lane : Nat) : (peekBytes t path address count lane).length = count := by simp [peekBytes]

theorem length_pokeBytes (t : State) (path address : Nat) (data : List Byte) (lane : Nat) : (pokeBytes t path address data lane).length = data.length := by
  simp [pokeBytes]

theorem peekBytes_ne_nil {t : State} {path address count lane : Nat} (h : count ≠ 0) : peekBytes t path address count lane ≠ [] := by
  simp [peekBytes, h]

theorem pokeBytes_ne_nil {t : State} {path address : Nat} {data : List Byte} {lane : Nat} (h : data.length ≠ 0) : pokeBytes t path address data lane ≠ [] := by
  simpa [pokeBytes] using h

/-- A transfer whose first byte goes to the board asks for the bus. -/
theorem runTransfer_first {bytes : List TransferByte} (some' : bytes ≠ []) (bound : ∀ b ∈ bytes, b.boardBound = true) {tr : Transfer} (todo : tr.todo = bytes)
    (s : State) : s.runTransfer bytes tr = (s.occupy (.transfer tr)).requestBench := by
  obtain ⟨b, rest, rfl⟩ := List.exists_cons_of_ne_nil some'
  rw [runTransfer_bound (bound b List.mem_cons_self), ← todo]

theorem badPeek_iff (path address count lane : Nat) : BadPeek path address count lane ↔ 1 < path ∨ (path = 1 ∧ 3 < lane ∧ lane ≠ 7) ∨ 0xFFFFF < address ∨ count = 0 ∨
    256 < count ∨ 0x100000 < address + count := or_assoc

theorem badPoke_iff (path address : Nat) (data : List Byte) (lane : Nat) : BadPoke path address data lane ↔
    1 < path ∨ (path = 1 ∧ 3 < lane ∧ lane ≠ 7) ∨ 0xFFFFF < address ∨ 0x100000 < address + data.length := or_assoc

section settled
variable {path address lane : Nat} {s t : State}

/-- What becomes of a PEEK that check 2 passes. -/
theorem peek_cases {count : Nat} (taken : s.takes (.peek path address count lane) t) (good : ¬BadPeek path address count lane) {bytes : List TransferByte}
    (given : bytes = peekBytes t path address count lane) :
    (∀ status, (∀ view, (view = true ↔ path = 1) → t.transferRefusal view bytes = some status) →
      exec (.peek path address count lane) s = .next (t.respond status 0x50 .empty)) ∧
    (¬Barred t path bytes → (∀ b ∈ bytes, ∀ l, b.location = some l → t.overlay.maps l = true) →
      exec (.peek path address count lane) s =
        .next (t.runTransfer bytes { form := .peek, bytewise := !s.link.queue.isEmpty, todo := bytes, made := [], count := 0 }).settle) := by
  obtain ⟨view, one, row⟩ := exec_peek taken good
  rw [← given] at row
  refine ⟨fun status refused => ?_, fun free mapped => ?_⟩
  · exact row.trans (startTransfer_refused (refused view one))
  · exact row.trans (startTransfer_runs ((transferRefusal_cases one).2.2.2.2 free) mapped)

/-- What becomes of a POKE that checks 2 and 3 pass. -/
theorem poke_cases {data : List Byte} (taken : s.takes (.poke path address data lane) t) (good : ¬BadPoke path address data lane)
    (long : ¬(data.length = 0 ∨ 256 < data.length)) {bytes : List TransferByte} (given : bytes = pokeBytes t path address data lane) :
    (∀ status, (∀ view, (view = true ↔ path = 1) → t.transferRefusal view bytes = some status) →
      exec (.poke path address data lane) s = .next (t.respond status 0x51 .empty)) ∧
    (¬Barred t path bytes → (∀ b ∈ bytes, ∀ l, b.location = some l → t.overlay.maps l = true) →
      exec (.poke path address data lane) s =
        .next (t.runTransfer bytes { form := .poke, bytewise := !s.link.queue.isEmpty, todo := bytes, made := [], count := 0 }).settle) := by
  obtain ⟨view, one, row⟩ := exec_poke taken good long
  rw [← given] at row
  refine ⟨fun status refused => ?_, fun free mapped => ?_⟩
  · exact row.trans (startTransfer_refused (refused view one))
  · exact row.trans (startTransfer_runs ((transferRefusal_cases one).2.2.2.2 free) mapped)

end settled

theorem bytewise_of_empty {s : State} (alone : s.link.queue = []) : (!s.link.queue.isEmpty) = false := by
  rw [alone]
  rfl

/-- Settles O54: the fields, the refusals, the course of the bytes, and a transfer cut short. -/
theorem peekAndPoke : Obligations.PeekAndPoke := by
  refine ⟨boardBound_iff, fun path address count lane s t taken => ?_, fun path address data lane s t taken => ?_, fun b rest tr s => ?_, fun cut tr b rest s todo => ?_⟩
  · intro bad bytes bound answered
    have spelled : bad ↔ BadPeek path address count lane := (badPeek_iff ..).symm
    have cases' := fun good : ¬bad => peek_cases taken (mt spelled.2 good) (bytes := bytes) rfl
    refine ⟨fun h => exec_peek_bad taken (spelled.1 h), fun good overlays => ?_, fun good free bound dead => ?_, fun good free bound powered kept => ?_,
      fun good free bound powered open' busy => ?_, fun good free mapped => ?_⟩
    · exact (cases' good).1 _ fun view one => (transferRefusal_cases one).1 overlays
    · exact (cases' good).1 _ fun view one => (transferRefusal_cases one).2.1 free bound dead
    · exact (cases' good).1 _ fun view one => (transferRefusal_cases one).2.2.1 free bound powered kept
    · exact (cases' good).1 _ fun view one => (transferRefusal_cases one).2.2.2.1 free bound powered open' busy
    · intro tr
      have row := (cases' good).2 free mapped
      refine ⟨row, fun board => ?_, fun unbound alone => ?_⟩
      · have some' : bytes ≠ [] := peekBytes_ne_nil fun none' => good (spelled.2 (.inr (.inr (.inl none'))))
        subst board
        rw [row, runTransfer_first some' (fun b mem => peekBytes_bound mem) rfl]
      · have free' : ∀ b ∈ bytes, b.boardBound = false := fun b mem => Bool.eq_false_iff.2 fun on => unbound ⟨b, mem, on⟩
        have length : bytes.length = count := length_peekBytes ..
        rw [row, runTransfer_reads free' (fun b mem => peekBytes_reads mem) rfl (bytewise_of_empty alone), List.nil_append, Nat.zero_add, length]
        rfl
  · intro bad short bytes bound stored answered
    have spelled : bad ↔ BadPoke path address data lane := (badPoke_iff ..).symm
    have cases' := fun (good : ¬bad) (long : ¬short) => poke_cases taken (mt spelled.2 good) long (bytes := bytes) rfl
    refine ⟨fun h => exec_poke_bad taken (spelled.1 h), fun good => exec_poke_short taken (mt spelled.2 good), fun good long overlays => ?_,
      fun good long free bound dead => ?_, fun good long free bound powered kept => ?_, fun good long free bound powered open' busy => ?_,
      fun good long free mapped => ?_⟩
    · exact (cases' good long).1 _ fun view one => (transferRefusal_cases one).1 overlays
    · exact (cases' good long).1 _ fun view one => (transferRefusal_cases one).2.1 free bound dead
    · exact (cases' good long).1 _ fun view one => (transferRefusal_cases one).2.2.1 free bound powered kept
    · exact (cases' good long).1 _ fun view one => (transferRefusal_cases one).2.2.2.1 free bound powered open' busy
    · intro tr
      have row := (cases' good long).2 free mapped
      refine ⟨row, fun board => ?_, fun unbound alone => ?_⟩
      · have some' : bytes ≠ [] := pokeBytes_ne_nil fun none' => long (.inl none')
        subst board
        rw [row, runTransfer_first some' (fun b mem => pokeBytes_bound mem) rfl]
      · have free' : ∀ b ∈ bytes, b.boardBound = false := fun b mem => Bool.eq_false_iff.2 fun on => unbound ⟨b, mem, on⟩
        have length : bytes.length = data.length := length_pokeBytes ..
        rw [row, runTransfer_writes free' (fun b mem => pokeBytes_writes mem) rfl (bytewise_of_empty alone), Nat.zero_add, length]
        rfl
  · exact ⟨fun form => finishTransfer_peek (t := { tr with todo := [] }) form s, fun form => finishTransfer_poke (t := { tr with todo := [] }) form s,
      fun bound => runTransfer_bound bound rest tr s, fun free bytewise => runTransfer_step free rest bytewise s,
      fun free atOnce => runTransfer_free free rest atOnce s⟩
  · refine ⟨fun none' => cutTransfer_of_none none' cut, fun activity => ⟨cutTransfer_granted cut todo activity, cutTransfer_later cut todo activity,
      fun owner here form => ?_, fun owner here form => ?_⟩⟩
    · rw [cutTransfer_now cut todo activity owner here, finishTransfer_peek form]
    · rw [cutTransfer_now cut todo activity owner here, finishTransfer_poke form]

end Sys2Proof.PeekRows
end

section
/-! PROOFS. The job table's commands: COLLECT, JOB STATUS, CANCEL JOB, ABORT ENGINE, and the end of a job (R178 to R181). -/

namespace Sys2Proof.TableRows

open Sys2Proof Sys2Proof.Machine Sys2Proof.Resets Sys2Proof.JobTable Sys2Proof.RunSound Sys2Proof.BenchLink Sys2Proof.LinkKeeping Sys2Proof.TraceRows Sys2Proof.InjectRows

/-! ### A completion and its bytes -/

theorem operation_code (op : Operation) : BitVec.ofNat 8 op.code = match op with
    | .eraseSector => 0 | .eraseLane => 1 | .program _ _ _ _ => 2 | .verify _ _ _ => 3 | .blankCheck => 4 | .sum => 5 := by
  cases op <;> rfl

theorem outcome_code (o : JobOutcome) : BitVec.ofNat 8 o.code = match o with
    | .done => 0 | .mismatch => 1 | .unsteady => 2 | .notBlank => 3 | .notErased => 4 | .programFault => 5 | .timeout => 6 | .lineFault => 7 | .powerLost => 8
    | .aborted => 9 | .cancelled => 10 := by
  cases o <;> rfl

theorem completion_bytes (j : Job) (c : Completion) : Completion.bytes j c =
    [BitVec.ofNat 8 j.number, BitVec.ofNat 8 j.op.code, BitVec.ofNat 8 j.lane.val, BitVec.ofNat 8 c.outcome.code] ++
    leBytes 4 (c.reached.getD 0xFFFFFFFF) ++
    [c.expected.getD 0, c.read.getD 0,
     BitVec.ofNat 8 ((if c.expected.isSome then 1 else 0) + (if c.read.isSome then 2 else 0) + (if c.crc.isSome then 4 else 0)), 0] ++
    leBytes 4 (c.counts.getD (0, 0)).1 ++ leBytes 4 (c.counts.getD (0, 0)).2 ++ leBytes 4 (c.crc.getD 0).toNat ++ leBytes 4 c.elapsed.toNat := by
  rw [← setByte_three]
  simp [Completion.bytes, leBytes_one, optBytes]

theorem length_leBytes (k n : Nat) : (leBytes k n).length = k := by
  induction k generalizing n with
  | zero => rfl
  | succ k ih => rw [leBytes, List.length_cons, ih]

theorem completion_length (j : Job) (c : Completion) : (Completion.bytes j c).length = 28 := by
  rw [completion_bytes]
  simp only [List.length_append, length_leBytes, List.length_cons, List.length_nil]

theorem counts_eq (op : Operation) (m u : Nat) : op.counts m u = if op.policy.isSome then some (m, u) else none := by cases op <;> rfl

theorem sumCrc_eq (op : Operation) (register : Crc) : op.sumCrc register = if op = .sum then some (~~~register) else none := by cases op <;> rfl

/-- The completion of an entry that is cancelled (R178, R180). -/
def cancelledBy (k : Job) : Completion :=
  { outcome := .cancelled, reached := none, expected := none, read := none, counts := if k.op.policy.isSome then some (0, 0) else none,
    crc := if k.op = .sum then some 0 else none, elapsed := 0 }

theorem cancel_eq (k : Job) (s : State) : s.cancel k = s.endJob k (cancelledBy k) := by
  have noByte : ~~~crcStart = (0 : Crc) := by decide
  rw [State.cancel, counts_eq, sumCrc_eq, noByte]
  rfl

/-- The completion of an entry that is aborted (R178, R181). -/
def abortedBy (j : Job) (a : Active) (s : State) : Completion :=
  { outcome := .aborted, reached := some a.current, expected := none, read := none,
    counts := if j.op.policy.isSome then some (a.mismatches, a.unsteady) else none,
    crc := if j.op = .sum then some (~~~a.crc) else none, elapsed := s.timeBase - a.start }

theorem waits_eq (k : Job) : k.waits = decide (k.state = .queued ∨ k.state = .waiting) := by
  unfold Job.waits
  cases k.state <;> simp

theorem filter_waits (l : List Job) : l.filter Job.waits = l.filter (fun k => decide (k.state = .queued ∨ k.state = .waiting)) :=
  List.filter_congr fun k _ => waits_eq k

theorem finishAbort_eq (j : Job) (a : Active) (s : State) : s.finishAbort j a =
    (s.endJob j (abortedBy j a s)).cancelAll.respond .ok 0x74 (.ended ((s.engine.jobs.filter Job.waits).length + 1)) := by
  rw [State.finishAbort, State.finishJob, counts_eq, sumCrc_eq, abortedBy]

/-! ### The end of a job -/

theorem endJob_eq (j : Job) (c : Completion) (s : State) : s.endJob j c = ({ s with
    engine := { s.engine with jobs := s.engine.jobs.map (fun k => if k.number = j.number then { k with state := .ended c } else k),
                              endOrder := s.engine.endOrder ++ [j.number] }
    slots := match j.op.slot with
      | some (slot, _) => s.slots.set slot { s.slots[slot] with binds := s.slots[slot].binds - 1 }
      | none => s.slots } : State).latch .jobEnded := by
  unfold State.endJob State.unbind
  dsimp only
  cases j.op.slot <;> rfl

/-! ### Cancelling -/

/-- Entries cancelled one after the other (R181). -/
def cancelEach (l : List Job) (s : State) : State := l.foldl (fun t j => t.cancel j) s

theorem cancelEach_cons (j : Job) (l : List Job) (s : State) : cancelEach (j :: l) s = cancelEach l (s.endJob j (cancelledBy j)) := by
  rw [cancelEach, List.foldl_cons, cancel_eq]
  rfl

/-- The end of a job touches the engine, the slots and the notices. -/
theorem endJob_aside (j : Job) (c : Completion) (s : State) : s.endJob j c =
    { s with engine := (s.endJob j c).engine, slots := (s.endJob j c).slots, link := (s.latch .jobEnded).link } := by
  rw [endJob_eq]
  rfl

theorem latch_twice (n : Notice) (s : State) : (s.latch n).latch n = s.latch n := by
  have same : s.link.pending ||| n.flag ||| n.flag = s.link.pending ||| n.flag := by rw [BitVec.or_assoc, BitVec.or_self]
  simp only [State.latch, same]

/-- Ends of jobs, and nothing else. -/
def EndsJobs (s t : State) : Prop := t = { s with engine := t.engine, slots := t.slots, link := (s.latch .jobEnded).link }

theorem endsJobs_endJob (j : Job) (c : Completion) (s : State) : EndsJobs s (s.endJob j c) := endJob_aside j c s

theorem EndsJobs.trans {s t u : State} (h : EndsJobs s t) (k : EndsJobs t u) : EndsJobs s u := by
  have link : t.link = (s.latch .jobEnded).link := by rw [h]
  have again : (t.latch .jobEnded).link = (s.latch .jobEnded).link := by
    simp only [State.latch, link]
    exact congrArg State.link (latch_twice .jobEnded s)
  unfold EndsJobs at h k ⊢
  rw [again] at k
  rw [k, h]

theorem endsJobs_cancelEach {l : List Job} (some' : l ≠ []) (s : State) : EndsJobs s (cancelEach l s) := by
  induction l generalizing s with
  | nil => exact absurd rfl some'
  | cons j l ih =>
    rw [cancelEach_cons]
    by_cases last : l = []
    · rw [last]
      exact endsJobs_endJob ..
    · exact (endsJobs_endJob ..).trans (ih last _)

theorem cancelEach_slots (l : List Job) (s : State) (i : Fin 4) : (cancelEach l s).slots[i] =
    { s.slots[i] with binds := s.slots[i].binds - (l.filter (fun k => k.op.slot.any (fun q => decide (q.1 = i)))).length } := by
  induction l generalizing s with
  | nil => rfl
  | cons j l ih =>
    rw [cancelEach_cons, ih, endJob_slots, List.filter_cons]
    split
    · rw [List.length_cons, Nat.sub_sub, Nat.add_comm 1]
    · rw [Nat.sub_zero]

/-- In a table without repeated numbers each cancelled entry is ENDED, and the others stay as they are (R165, R181). -/
theorem cancelEach_engine {l : List Job} {s : State} (table : (s.engine.jobs.map Job.number).Nodup) (distinct : (l.map Job.number).Nodup)
    (mem : ∀ j ∈ l, j ∈ s.engine.jobs) : (cancelEach l s).engine =
      { jobs := s.engine.jobs.map (fun k => if k ∈ l then { k with state := .ended (cancelledBy k) } else k),
        endOrder := s.engine.endOrder ++ l.map Job.number, nextNumber := s.engine.nextNumber } := by
  induction l generalizing s with
  | nil => simp [cancelEach]
  | cons j l ih =>
    rw [List.map_cons, List.nodup_cons] at distinct
    have engine := endJob_engine j (cancelledBy j) s
    have others : ∀ k ∈ l, k.number ≠ j.number := fun k inList same => distinct.1 (same ▸ List.mem_map_of_mem inList)
    have here := mem j List.mem_cons_self
    have apart : ∀ k ∈ s.engine.jobs, k.number = j.number → k = j := fun k inTable same => List.inj_on_of_nodup_map table inTable here same
    have stays : ∀ k ∈ l, k ∈ (s.endJob j (cancelledBy j)).engine.jobs := fun k inList => by
      rw [engine]
      exact List.mem_map.2 ⟨k, mem k (List.mem_cons_of_mem _ inList), if_neg (others k inList)⟩
    have table' : ((s.endJob j (cancelledBy j)).engine.jobs.map Job.number).Nodup := by
      rw [engine]
      dsimp only
      rw [setEntry_numbers]
      exact table
    rw [cancelEach_cons, ih table' distinct.2 stays, engine]
    simp only [setEntry, List.map_map, List.map_cons, List.append_assoc, List.singleton_append]
    refine congrArg (fun jobs => Engine.mk jobs _ _) (List.map_congr_left fun k inTable => ?_)
    by_cases same : k = j
    · subst same
      have gone : ({ k with state := .ended (cancelledBy k) } : Job) ∉ l := fun inList => others _ inList rfl
      rw [Function.comp_apply, if_pos rfl, if_neg gone, if_pos List.mem_cons_self]
    · rw [Function.comp_apply, if_neg (fun number => same (apart k inTable number))]
      exact if_congr (by simp [same]) rfl rfl

theorem cancelAll_eq (s : State) : s.cancelAll = cancelEach (s.engine.jobs.filter Job.waits) s := rfl

/-- An entry of the table after the cancellations is ENDED by them, or has a number that none of the cancelled ones has. -/
theorem mem_cancelEach {l : List Job} {s : State} {k : Job} (mem : k ∈ (cancelEach l s).engine.jobs) :
    k.unfinished = false ∨ (k ∈ s.engine.jobs ∧ ∀ j ∈ l, k.number ≠ j.number) := by
  induction l generalizing s with
  | nil => exact .inr ⟨mem, fun j inNil => nomatch inNil⟩
  | cons j l ih =>
    rw [cancelEach_cons] at mem
    rcases ih mem with ended | ⟨before, apart⟩
    · exact .inl ended
    · rw [endJob_engine] at before
      obtain ⟨x, inTable, rfl⟩ := List.mem_map.1 before
      split at apart
      · next same => exact .inl (by rw [if_pos same]; rfl)
      · next other =>
        rw [if_neg other]
        exact .inr ⟨inTable, fun y inList => (List.mem_cons.1 inList).elim (fun eq => eq ▸ other) (apart y)⟩

theorem mem_cancelEach_of_apart {l : List Job} {s : State} {k : Job} (mem : k ∈ s.engine.jobs) (apart : ∀ j ∈ l, k.number ≠ j.number) :
    k ∈ (cancelEach l s).engine.jobs := by
  induction l generalizing s with
  | nil => exact mem
  | cons j l ih =>
    rw [cancelEach_cons]
    refine ih ?_ fun y inList => apart y (List.mem_cons_of_mem _ inList)
    rw [endJob_engine]
    exact List.mem_map.2 ⟨k, mem, if_neg (apart j List.mem_cons_self)⟩

/-- After ABORT ENGINE's cancellations no entry waits (R181). -/
theorem not_waits_cancelAll {s : State} {k : Job} (mem : k ∈ s.cancelAll.engine.jobs) : k.waits = false := by
  rcases mem_cancelEach mem with ended | ⟨inTable, apart⟩
  · exact Bool.eq_false_iff.2 fun waits => Bool.false_ne_true (ended.symm.trans (unfinished_of_waits waits))
  · exact Bool.eq_false_iff.2 fun waits => apart k (List.mem_filter.2 ⟨inTable, waits⟩) rfl

theorem cancelAll_only (s : State) :
    s.cancelAll = { s with engine := s.cancelAll.engine, slots := s.cancelAll.slots, link := s.cancelAll.link } := by
  by_cases empty : s.engine.jobs.filter Job.waits = []
  · rw [cancelAll_eq, empty]
    rfl
  · have ends : EndsJobs s s.cancelAll := endsJobs_cancelEach empty s
    have link : s.cancelAll.link = (s.latch .jobEnded).link := by rw [ends]
    rw [link]
    exact ends

/-- The whole of the cancellations (R181). -/
theorem cancelAll_cases {s : State} (table : s.jobTable) :
    s.cancelAll = { s with engine := s.cancelAll.engine, slots := s.cancelAll.slots, link := { s.link with pending := s.cancelAll.link.pending } } ∧
    s.cancelAll.engine = { jobs := s.engine.jobs.map (fun k => if k.waits then { k with state := .ended (cancelledBy k) } else k),
                           endOrder := s.engine.endOrder ++ (s.engine.jobs.filter Job.waits).map Job.number, nextNumber := s.engine.nextNumber } ∧
    (∀ i : Fin 4, s.cancelAll.slots[i] = { s.slots[i] with
      binds := s.slots[i].binds - (s.engine.jobs.filter (fun k => k.waits && k.op.slot.any (fun q => decide (q.1 = i)))).length }) ∧
    ((∃ k ∈ s.engine.jobs, k.waits = true) → s.cancelAll = ({ s.cancelAll with link := s.link } : State).latch .jobEnded) ∧
    ((∀ k ∈ s.engine.jobs, k.waits = false) → s.cancelAll = s) := by
  have none' : s.engine.jobs.filter Job.waits = [] → s.cancelAll = s := fun h => by rw [cancelAll_eq, h]; rfl
  have some' : s.engine.jobs.filter Job.waits ≠ [] → EndsJobs s s.cancelAll := fun h => endsJobs_cancelEach h s
  refine ⟨?_, ?_, fun i => ?_, fun ⟨k, mem, waits⟩ => ?_, fun quiet => none' (List.filter_eq_nil_iff.2 fun k mem => by simp [quiet k mem])⟩
  · by_cases empty : s.engine.jobs.filter Job.waits = []
    · rw [none' empty]
    · have ends := some' empty
      have link : s.cancelAll.link = (s.latch .jobEnded).link := by rw [ends]
      rw [link]
      exact ends
  · rw [cancelAll_eq, cancelEach_engine table.2.1 (table.2.1.sublist (List.filter_sublist.map _)) fun j mem => (List.mem_filter.1 mem).1]
    refine congrArg (fun jobs => Engine.mk jobs _ _) (List.map_congr_left fun k mem => if_congr ?_ rfl rfl)
    simp [List.mem_filter, mem]
  · rw [cancelAll_eq, cancelEach_slots, List.filter_filter]
    refine congrArg (fun l : List Job => ({ s.slots[i] with binds := s.slots[i].binds - l.length } : Slot)) (List.filter_congr fun k _ => Bool.and_comm _ _)
  · have ends := some' (List.ne_nil_of_mem (List.mem_filter.2 ⟨mem, waits⟩))
    have link : s.cancelAll.link = (s.latch .jobEnded).link := by rw [ends]
    have same : s.cancelAll = { s.cancelAll with link := s.cancelAll.link } := rfl
    exact same.trans (by rw [link]; rfl)

/-! ### An access that ends under ABORT ENGINE -/

section aborting
variable {j : Job} {a : Active} {p : Profile} {s : State} (active : s.activeJob = some j) (state : j.state = .active a)

include active state

theorem settleAbort_withdrawn (phase : a.phase = .abortReset) (requested : s.bus.engine.isSome = true) (kept : s.busKept = true) :
    s.settleAbort = (({ s with bus := { s.bus with engine := none } } : State).setOwed j.lane true).finishAbort j a := by
  have work : j.active? = some a := by rw [Job.active?, state]
  rw [State.settleAbort, active]
  dsimp only
  rw [work]
  exact if_pos ⟨phase, requested, kept⟩

theorem settleAbort_still (h : a.phase ≠ .abortReset ∨ s.bus.engine = none ∨ s.busKept = false) : s.settleAbort = s := by
  have work : j.active? = some a := by rw [Job.active?, state]
  rw [State.settleAbort, active]
  dsimp only
  rw [work]
  refine if_neg ?_
  rintro ⟨phase, requested, kept⟩
  rcases h with other | none' | open'
  · exact other phase
  · rw [none'] at requested
    exact Bool.false_ne_true requested
  · exact Bool.false_ne_true (open'.symm.trans kept)

variable (profile : s.lanes[j.lane].profile = some p) (data : Byte)

include profile

theorem engineAccessEnd_active : s.engineAccessEnd data =
    if a.aborting = true ∧ a.phase ≠ .abortReset
      then (if a.phase.writesReset then s.setOwed j.lane false else s).abortReset j (a.countRead data) p
      else (if a.phase.writesReset then s.setOwed j.lane false else s).phaseEnd j a p data := by
  have work : j.active? = some a := by rw [Job.active?, state]
  have given : s.profileOf j.lane = some p := profile
  rw [State.engineAccessEnd, active]
  dsimp only
  rw [work, given]

theorem engineAccessEnd_abortReset (phase : a.phase = .abortReset) (flash : p.flash.isSome = true) :
    s.engineAccessEnd data = (s.setOwed j.lane false).finishAbort j a := by
  obtain ⟨f, isFlash⟩ := Option.isSome_iff_exists.1 flash
  have writes : a.phase.writesReset = true := by rw [phase]; rfl
  rw [engineAccessEnd_active active state profile, if_neg (fun h => h.2 phase), if_pos writes, State.phaseEnd, phase]
  dsimp only
  rw [isFlash]
  dsimp only
  rw [State.flashPhaseEnd, phase]

end aborting

theorem writesReset_iff {phase : JobPhase} (other : phase ≠ .abortReset) : phase.writesReset = true ↔ phase = .owedReset ∨ phase = .timeoutReset := by
  cases phase <;> simp_all [JobPhase.writesReset]

theorem setOwed_twice (lane : Fin 4) (b c : Bool) (s : State) : (s.setOwed lane b).setOwed lane c = s.setOwed lane c := by
  simp [State.setOwed]

theorem abortReset_kept {p : Profile} {s : State} (flash : p.flash.isSome = true) (kept : s.busKept = true) (j : Job) (a : Active) :
    s.abortReset j a p = (s.setOwed j.lane true).finishAbort j a := by
  obtain ⟨f, isFlash⟩ := Option.isSome_iff_exists.1 flash
  rw [State.abortReset, isFlash]
  exact if_pos kept

theorem abortReset_asks {p : Profile} {f : FlashPart} {s : State} (flash : p.flash = some f) (open' : s.busKept = false) (j : Job) (a : Active) :
    s.abortReset j a p = s.askBoard j { a with phase := .abortReset, aborting := true } [p.pairAccess f.resetPair] := by
  rw [State.abortReset, flash]
  exact if_neg (Bool.eq_false_iff.1 open')

theorem abortReset_noFlash {p : Profile} (flash : p.flash = none) (j : Job) (a : Active) (s : State) : s.abortReset j a p = s.finishAbort j a := by
  rw [State.abortReset, flash]

/-! ### ABORT ENGINE on the ACTIVE job -/

theorem find_active_of_finished {s : State} (finished : ∀ k ∈ s.engine.jobs, k.unfinished = false) : s.activeJob = none ∧ s.candidate = none := by
  refine ⟨List.find?_eq_none.2 fun k mem active => ?_, List.find?_eq_none.2 fun k mem waits => ?_⟩
  · exact Bool.false_ne_true ((finished k mem).symm.trans (unfinished_of_active active))
  · exact Bool.false_ne_true ((finished k mem).symm.trans (unfinished_of_waits waits))

theorem judgeOnce_idle {s : State} (active : s.activeJob = none) (candidate : s.candidate = none) : s.judgeOnce = s := by
  rw [State.judgeOnce, active, candidate]
  rfl

theorem judgeTimes_idle (n : Nat) {s : State} (active : s.activeJob = none) (candidate : s.candidate = none) : s.judgeTimes n = s := by
  induction n with
  | zero => rfl
  | succ n ih => rw [State.judgeTimes, judgeOnce_idle active candidate, ih]

/-- With every entry ENDED only the arbiter has something to do. -/
theorem settle_finished {s : State} (finished : ∀ k ∈ s.engine.jobs, k.unfinished = false) : s.settle = s.arbitrate := by
  obtain ⟨active, candidate⟩ := find_active_of_finished finished
  rw [State.settle, State.judgeStart, judgeTimes_idle _ active candidate, State.settleAbort, active]

theorem choose_noEngine {b : Bus} (none' : b.engine = none) : b.choose.engine = none := by
  unfold Bus.choose
  rw [none']
  dsimp only
  repeat' split
  · exact none'
  · simp [Bus.grantTarget, none']
  · exact none'
  · exact none'

/-- The arbiter changes the bus alone, and makes no request. -/
theorem arbitrate_only (s : State) : s.arbitrate = { s with bus := s.arbitrate.bus } := by
  unfold State.arbitrate
  repeat' split
  all_goals rfl

theorem arbitrate_noEngine {s : State} (none' : s.bus.engine = none) : s.arbitrate.bus.engine = none := by
  unfold State.arbitrate
  repeat' split
  · exact none'
  · exact none'
  · exact none'
  · exact choose_noEngine none'

section finish
variable {s : State} {j : Job} (a : Active) (table : s.jobTable) (active : s.activeJob = some j)

include table active

/-- After the ABORTED end nothing is left unfinished (R165, R181). -/
theorem finishAbort_finished : ∀ k ∈ (s.finishAbort j a).engine.jobs, k.unfinished = false := by
  intro k mem
  rw [finishAbort_eq] at mem
  rcases mem_cancelEach mem with ended | ⟨inTable, apart⟩
  · exact ended
  · refine Bool.eq_false_iff.2 fun unfinished => ?_
    rcases unfinished_iff.1 unfinished with isActive | waits
    · rw [endJob_engine] at inTable
      obtain ⟨x, before, rfl⟩ := List.mem_map.1 inTable
      split at isActive
      · exact Bool.false_ne_true isActive
      · next other => exact other (congrArg Job.number (active_unique table active before isActive))
    · exact apart k (List.mem_filter.2 ⟨inTable, waits⟩) rfl

omit table in
/-- The ABORTED entry is in the table. -/
theorem mem_finishAbort : { j with state := .ended (abortedBy j a s) } ∈ (s.finishAbort j a).engine.jobs := by
  rw [finishAbort_eq]
  refine mem_cancelEach_of_apart ?_ fun x mem same => ?_
  · rw [endJob_engine]
    exact List.mem_map.2 ⟨j, List.mem_of_find?_eq_some active, if_pos rfl⟩
  · obtain ⟨inTable, waits⟩ := List.mem_filter.1 mem
    rw [endJob_engine] at inTable
    obtain ⟨y, -, rfl⟩ := List.mem_map.1 inTable
    split at waits
    · exact Bool.false_ne_true waits
    · next other =>
      rw [if_neg other] at same
      exact other same.symm

end finish

theorem finishAbort_aside (j : Job) (a : Active) (s : State) :
    (s.finishAbort j a).lanes = s.lanes ∧ (s.finishAbort j a).bus = s.bus ∧ (s.finishAbort j a).noticed .jobEnded = true := by
  rw [finishAbort_eq]
  have ends := endsJobs_endJob j (abortedBy j a s) s
  have noticed : (s.endJob j (abortedBy j a s)).noticed .jobEnded = true := by
    rw [State.noticed, ends]
    exact noticed_latch_self ..
  have lanes : (s.endJob j (abortedBy j a s)).cancelAll.lanes = s.lanes := by rw [cancelAll_only, ends]
  have bus : (s.endJob j (abortedBy j a s)).cancelAll.bus = s.bus := by rw [cancelAll_only, ends]
  exact ⟨lanes, bus, (linkKept_cancelAll _).notices _ noticed⟩

/-! ### The rows -/

/-- Where no number is repeated an entry is found by its number (R165). -/
theorem find_number {s : State} (table : s.jobTable) {j : Job} (mem : j ∈ s.engine.jobs) :
    s.engine.jobs.find? (fun k => decide (k.number = j.number)) = some j := by
  cases found : s.engine.jobs.find? (fun k => decide (k.number = j.number)) with
  | none => exact absurd (List.find?_eq_none.1 found j mem) (by simp)
  | some k =>
    have number : k.number = j.number := by simpa using List.find?_some found
    exact congrArg some (List.inj_on_of_nodup_map table.2.1 (List.mem_of_find?_eq_some found) mem number)

theorem ended_of_finished {j : Job} (h : j.unfinished = false) : ∃ c, j.state = .ended c := by
  unfold Job.unfinished at h
  cases state : j.state with
  | ended c => exact ⟨c, rfl⟩
  | queued | waiting | active a =>
    rw [state] at h
    exact nomatch h

theorem earliest_of_empty {e : Engine} (h : e.endOrder = []) : e.earliest = none := by rw [Engine.earliest, h]

theorem earliest_of_cons {s : State} (table : s.jobTable) {n : Nat} {rest : List Nat} (order : s.engine.endOrder = n :: rest) {j : Job}
    (mem : j ∈ s.engine.jobs) (number : j.number = n) {c : Completion} (state : j.state = .ended c) : s.engine.earliest = some (j, c) := by
  have found := find_number table mem
  rw [number] at found
  rw [Engine.earliest, order]
  dsimp only
  rw [found]
  dsimp only
  rw [state]

section collect
variable {s t : State} (taken : s.takes .collect t)

include taken

theorem exec_collect_none (none' : t.engine.earliest = none) : exec .collect s = .next (t.respond .notFound 0x71 .empty) := by
  refine (exec_of_takes rfl taken).trans ?_
  rw [none']
  rfl

theorem exec_collect_some {j : Job} {c : Completion} (found : t.engine.earliest = some (j, c)) :
    exec .collect s = .next (({ t with engine := t.engine.remove j.number } : State).respond .ok 0x71 (.completion j c)) := by
  refine (exec_of_takes rfl taken).trans ?_
  rw [found]
  rfl

end collect

section cancelJob
variable {number : Nat} {s t : State} (taken : s.takes (.cancelJob number) t)

include taken

theorem exec_cancelJob_none (none' : ∀ j ∈ t.engine.jobs, j.number ≠ number) : exec (.cancelJob number) s = .next (t.respond .notFound 0x73 .empty) := by
  have missing : t.engine.jobs.find? (fun j => decide (j.number = number)) = none := List.find?_eq_none.2 fun j mem => by simpa using none' j mem
  refine (exec_of_takes rfl taken).trans ?_
  rw [missing]
  rfl

variable {j : Job} (found : t.engine.jobs.find? (fun j => decide (j.number = number)) = some j)

include found

theorem exec_cancelJob_ended {c : Completion} (state : j.state = .ended c) : exec (.cancelJob number) s = .next (t.respond .notFound 0x73 .empty) := by
  refine (exec_of_takes rfl taken).trans ?_
  rw [found]
  dsimp only
  rw [state]
  rfl

theorem exec_cancelJob_active {a : Active} (state : j.state = .active a) : exec (.cancelJob number) s = .next (t.respond .engineActive 0x73 .empty) := by
  refine (exec_of_takes rfl taken).trans ?_
  rw [found]
  dsimp only
  rw [state]
  rfl

theorem exec_cancelJob_waits (state : j.state = .queued ∨ j.state = .waiting) :
    exec (.cancelJob number) s = .next ((t.endJob j (cancelledBy j)).settle.respond .ok 0x73 .empty) := by
  refine (exec_of_takes rfl taken).trans ?_
  rw [found]
  dsimp only
  rw [← cancel_eq]
  rcases state with state | state
  · rw [state]
    rfl
  · rw [state]
    rfl

end cancelJob

section abortEngine
variable {s t : State} (taken : s.takes .abortEngine t)

include taken

theorem exec_abortEngine_idle (idle : t.activeJob = none) :
    exec .abortEngine s = .next (t.cancelAll.settle.respond .ok 0x74 (.ended (t.engine.jobs.filter Job.waits).length)) := by
  refine (exec_of_takes rfl taken).trans ?_
  rw [idle]
  rfl

variable {j : Job} {a : Active} (active : t.activeJob = some j) (state : j.state = .active a)

include active state

theorem exec_abortEngine_active : exec .abortEngine s = .next ((t.occupy .abort).abortActive j a) := by
  have work : j.active? = some a := by rw [Job.active?, state]
  refine (exec_of_takes rfl taken).trans ?_
  rw [active]
  dsimp only
  rw [work]

end abortEngine

/-- The state as a waiting request has been withdrawn for ABORT ENGINE (R181). -/
def withdrawn (t : State) : State := { t with bus := { t.bus with engine := none }, link := { t.link with activity := .abort } }

section abortActive
variable {t : State} {j : Job} {a : Active}

theorem abortActive_owned (owner : ∃ w, t.bus.owner = .engine w) :
    (t.occupy .abort).abortActive j a = (t.occupy .abort).setJob j.number (.active { a with aborting := true }) := by
  obtain ⟨w, owned⟩ := owner
  refine if_pos ?_
  rw [Bus.engineOwns, show (t.occupy .abort).bus.owner = .engine w from owned]

theorem engineOwns_false {b : Bus} (owner : ∀ w, b.owner ≠ .engine w) : b.engineOwns = false := by
  unfold Bus.engineOwns
  cases owned : b.owner with
  | engine w => exact absurd owned (owner w)
  | free | target | bench | ended l x => rfl

theorem abortActive_profile {p : Profile} (owner : ∀ w, t.bus.owner ≠ .engine w) (profile : t.lanes[j.lane].profile = some p) :
    (t.occupy .abort).abortActive j a = ((withdrawn t).abortReset j a p).settle := by
  have given : (withdrawn t).profileOf j.lane = some p := profile
  refine (if_neg (Bool.eq_false_iff.1 (engineOwns_false owner))).trans ?_
  exact (congrArg (fun o => match o with | some p => ((withdrawn t).abortReset j a p).settle | none => ((withdrawn t).finishAbort j a).settle) given)

theorem abortActive_noProfile (owner : ∀ w, t.bus.owner ≠ .engine w) (profile : t.lanes[j.lane].profile = none) :
    (t.occupy .abort).abortActive j a = ((withdrawn t).finishAbort j a).settle := by
  have given : (withdrawn t).profileOf j.lane = none := profile
  refine (if_neg (Bool.eq_false_iff.1 (engineOwns_false owner))).trans ?_
  exact (congrArg (fun o => match o with | some p => ((withdrawn t).abortReset j a p).settle | none => ((withdrawn t).finishAbort j a).settle) given)

/-- Where no reset pair is to be written, the job is ended at once, and the reset is owed on a FLASH lane (R164, R181). -/
theorem abortActive_ends (owner : ∀ w, t.bus.owner ≠ .engine w) (ends : ∀ p, t.lanes[j.lane].profile = some p → p.flash = none ∨ t.busKept = true) :
    ∃ v : State, v = { withdrawn t with lanes := v.lanes } ∧ (t.occupy .abort).abortActive j a = (v.finishAbort j a).settle ∧
      v.lanes = if t.lanes[j.lane].profile.any (fun p => p.flash.isSome) then t.lanes.set j.lane { t.lanes[j.lane] with owed := true } else t.lanes := by
  cases profile : t.lanes[j.lane].profile with
  | none => exact ⟨withdrawn t, rfl, abortActive_noProfile owner profile, rfl⟩
  | some p =>
    have goes := abortActive_profile (a := a) owner profile
    cases flash : p.flash with
    | none =>
      refine ⟨withdrawn t, rfl, goes.trans (congrArg State.settle (abortReset_noFlash flash ..)), ?_⟩
      rw [Option.any_some, flash]
      rfl
    | some f =>
      have kept : (withdrawn t).busKept = true := (ends p profile).resolve_left (by simp [flash])
      refine ⟨(withdrawn t).setOwed j.lane true, rfl, goes.trans (congrArg State.settle (abortReset_kept (by simp [flash]) kept ..)), ?_⟩
      rw [Option.any_some, flash]
      rfl

end abortActive

/-- What is left by the abort of the ACTIVE job that ends at once (R181). -/
structure Aborted (t : State) (j : Job) (a : Active) (v u : State) : Prop where
  sent : u.link.sent = some { status := .ok, code := 0x74, answer := .ended ((t.engine.jobs.filter Job.waits).length + 1) }
  activity : u.link.activity = .sending
  noticed : u.noticed .jobEnded = true
  engine : u.bus.engine = none
  lanes : u.lanes = v.lanes
  entry : { j with state := .ended (abortedBy j a t) } ∈ u.engine.jobs
  finished : ∀ k ∈ u.engine.jobs, k.unfinished = false

theorem aborted_settle {t v : State} {j : Job} {a : Active} (table : t.jobTable) (active : t.activeJob = some j) (from' : v = { withdrawn t with lanes := v.lanes }) :
    Aborted t j a v (v.finishAbort j a).settle := by
  have engine : v.engine = t.engine := by rw [from']; rfl
  have time : v.timeBase = t.timeBase := by rw [from']; rfl
  have bus : v.bus.engine = none := by rw [from']; rfl
  have table' : v.jobTable := by rw [State.jobTable, engine]; exact table
  have active' : v.activeJob = some j := by rw [State.activeJob, engine]; exact active
  have finished := finishAbort_finished a table' active'
  obtain ⟨lanes, sameBus, noticed⟩ := finishAbort_aside j a v
  have aborts : abortedBy j a v = abortedBy j a t := by simp only [abortedBy, time]
  have entry := mem_finishAbort a active'
  rw [aborts] at entry
  have only := arbitrate_only (v.finishAbort j a)
  rw [settle_finished finished]
  refine ⟨?_, ?_, ?_, arbitrate_noEngine (by rw [sameBus]; exact bus), ?_, ?_, ?_⟩
  · rw [only, finishAbort_eq, engine]
    rfl
  · rw [only, finishAbort_eq]
    rfl
  · rw [only]
    exact noticed
  · rw [only]
    exact lanes
  · rw [only]
    exact entry
  · rw [only]
    exact finished

/-! ### The statement -/

theorem engineAccessEnd_aborting {j : Job} {a : Active} {p : Profile} {s : State} (active : s.activeJob = some j) (state : j.state = .active a)
    (profile : s.lanes[j.lane].profile = some p) (data : Byte) (aborting : a.aborting = true) (phase : a.phase ≠ .abortReset) : s.engineAccessEnd data =
      (if a.phase = .owedReset ∨ a.phase = .timeoutReset then s.setOwed j.lane false else s).abortReset j (a.countRead data) p := by
  rw [engineAccessEnd_active active state profile, if_pos ⟨aborting, phase⟩]
  exact congrArg (fun x : State => x.abortReset j (a.countRead data) p) (if_congr (writesReset_iff phase) rfl rfl)

theorem written_busKept (phase : JobPhase) (lane : Fin 4) (s : State) :
    (if phase = .owedReset ∨ phase = .timeoutReset then s.setOwed lane false else s).busKept = s.busKept := by
  split <;> rfl

theorem written_setOwed (phase : JobPhase) (lane : Fin 4) (s : State) :
    (if phase = .owedReset ∨ phase = .timeoutReset then s.setOwed lane false else s).setOwed lane true = s.setOwed lane true := by
  split
  · exact setOwed_twice ..
  · rfl

/-- Settles O59: the completion, the ends of jobs, and the commands on the table. -/
theorem jobTableCommands : Obligations.JobTableCommands := by
  refine ⟨fun j c => ⟨completion_length j c, rfl, ?_⟩, endJob_eq, fun s table => ?_, fun j a s => ?_, fun j a p data s active state profile => ?_,
    fun s t taken table listed => ⟨fun empty => exec_collect_none taken (earliest_of_empty empty), fun n rest order => ?_⟩,
    fun s t taken => (exec_of_takes rfl taken).trans rfl, fun number s t taken table => ⟨exec_cancelJob_none taken, fun j mem isNumber => ?_⟩, fun s t taken => ?_⟩
  · rw [completion_bytes, operation_code, outcome_code] <;> rfl
  · have cases' := cancelAll_cases table
    simp only [filter_waits, waits_eq] at cases'
    exact cases'
  · rw [finishAbort_eq, filter_waits]
    rfl
  · intro owes written b
    refine ⟨fun aborting phase => ?_, engineAccessEnd_abortReset active state profile data, settleAbort_withdrawn active state, settleAbort_still active state⟩
    have goes := engineAccessEnd_aborting active state profile data aborting phase
    have still := written_busKept a.phase j.lane s
    refine ⟨fun f flash open' => ?_, fun flash kept => ?_, fun noFlash => ?_⟩
    · rw [goes, abortReset_asks flash (still.trans open')]
      rfl
    · rw [goes, abortReset_kept flash (still.trans kept), written_setOwed]
      rfl
    · rw [goes, abortReset_noFlash noFlash]
      rfl
  · obtain ⟨j, mem, isNumber, finished⟩ := (listed.2 n).1 (by rw [order]; exact List.mem_cons_self)
    obtain ⟨c, state⟩ := ended_of_finished finished
    have row := exec_collect_some taken (earliest_of_cons table order mem isNumber state)
    rw [Engine.remove, isNumber, order] at row
    exact ⟨j, c, mem, isNumber, state, row⟩
  · have found := find_number table mem
    rw [isNumber] at found
    refine ⟨fun ⟨c, state⟩ => exec_cancelJob_ended taken found state, fun ⟨a, state⟩ => exec_cancelJob_active taken found state, fun state => ?_⟩
    refine ⟨if j.op.policy.isSome then some (0, 0) else none, exec_cancelJob_waits taken found state, fun none' => by rw [none']; rfl, fun some' => if_pos some'⟩
  · intro waiting
    have count : (t.engine.jobs.filter Job.waits).length = waiting := congrArg List.length (filter_waits _)
    refine ⟨fun idle => ⟨?_, fun j mem => ?_⟩, fun j a active state => ⟨fun owner => ?_, fun p f owner profile flash open' => ?_, fun table owner ends => ?_⟩⟩
    · rw [exec_abortEngine_idle taken idle, count]
    · have quiet := not_waits_cancelAll mem
      rw [waits_eq, decide_eq_false_iff_not] at quiet
      exact not_or.1 quiet
    · rw [exec_abortEngine_active taken active state, abortActive_owned owner]
    · rw [exec_abortEngine_active taken active state, abortActive_profile owner profile, abortReset_asks (s := withdrawn t) flash open']
      rfl
    · obtain ⟨v, from', goes, lanes⟩ := abortActive_ends (a := a) owner ends
      obtain ⟨sent, activity, noticed, engine, kept, entry, finished⟩ := aborted_settle (a := a) table active from'
      rw [count] at sent
      refine ⟨_, _, (exec_abortEngine_active taken active state).trans (congrArg Host.Outcome.next goes), ?_, sent, activity, noticed, engine, kept.trans lanes, entry, finished⟩
      rw [kept]
      exact congrArg (fun x : State => (x.finishAbort j a).settle) from'

end Sys2Proof.TableRows
end

section
/-! PROOFS. The start rule: what a judgement does, and that nine of them leave nothing to judge (R168). -/

namespace Sys2Proof.RuleRows

open Sys2Proof Sys2Proof.Machine Sys2Proof.Resets Sys2Proof.JobTable Sys2Proof.RunSound Sys2Proof.InjectRows Sys2Proof.TableRows

/-! ### One judgement -/

theorem candidate_eq (s : State) : s.candidate = s.engine.jobs.find? (fun k => decide (k.state = .queued ∨ k.state = .waiting)) := by
  rw [State.candidate]
  exact congrArg (fun p => s.engine.jobs.find? p) (funext waits_eq)

theorem mayStart_iff (j : Job) (s : State) : s.mayStart j = true ↔ s.port.powered = true ∧ s.bus.survey = false ∧
    (j.op.writeClass = true → (s.run.hold = .holding ∨ s.run.hold = .resetHeld) ∧ s.run.rehearsal = false) ∧
    (j.op.writeClass = false → s.run.hold ≠ .unpowered ∧ s.busKept = false) := by
  rw [State.mayStart, Bool.and_eq_true, Bool.and_eq_true, Bool.not_eq_true', and_assoc]
  cases j.op.writeClass <;> simp

section once
variable {s : State} {j : Job}

theorem judgeOnce_active (active : s.activeJob = some j) : s.judgeOnce = s := by
  rw [State.judgeOnce, active]
  rfl

variable (idle : s.activeJob = none) (candidate : s.candidate = some j)

include idle candidate

theorem judgeOnce_starts (may : s.mayStart j = true) : s.judgeOnce = s.startJob j := by
  rw [State.judgeOnce, idle, candidate]
  exact if_pos may

theorem judgeOnce_waits (barred : s.mayStart j = false) : s.judgeOnce = s.setJob j.number .waiting := by
  rw [State.judgeOnce, idle, candidate]
  exact if_neg (Bool.eq_false_iff.1 barred)

end once

/-! ### Nothing more to judge -/

/-- Another judgement changes nothing. -/
def Stable (s : State) : Prop := s.judgeOnce = s

/-- How many entries wait. -/
def waiting (s : State) : Nat := (s.engine.jobs.filter Job.waits).length

theorem stable_of_active {s : State} {k : Job} (mem : k ∈ s.engine.jobs) (active : k.active?.isSome = true) : Stable s := by
  cases found : s.activeJob with
  | none => exact absurd (List.find?_eq_none.1 found k mem) (by simp [active])
  | some j => exact judgeOnce_active found

theorem stable_of_none {s : State} (h : waiting s = 0) : Stable s := by
  cases active : s.activeJob with
  | some j => exact judgeOnce_active active
  | none =>
    have none' : s.candidate = none := List.find?_eq_none.2 fun k mem waits =>
      List.not_mem_nil ((List.length_eq_zero_iff.1 h) ▸ List.mem_filter.2 ⟨mem, waits⟩)
    exact judgeOnce_idle active none'

/-- An entry that is set WAITING stays so while the conditions are not met. -/
theorem stable_setWaiting {s : State} {j : Job} (table : s.jobTable) (idle : s.activeJob = none) (candidate : s.candidate = some j)
    (barred : s.mayStart j = false) : Stable (s.setJob j.number .waiting) := by
  obtain ⟨waits, pre, post, jobs, before⟩ := List.find?_eq_some_iff_append.1 candidate
  have distinct := table.2.1
  rw [jobs] at distinct
  have entries : (s.setJob j.number .waiting).engine.jobs = pre ++ { j with state := .waiting } :: post := by
    rw [setJob_jobs_eq, jobs]
    exact setEntry_split distinct _
  have inactive : (s.setJob j.number .waiting).activeJob = none := by
    refine List.find?_eq_none.2 fun k mem active => ?_
    rw [setJob_jobs_eq] at mem
    obtain ⟨x, inTable, rfl⟩ := List.mem_map.1 mem
    split at active
    · exact Bool.false_ne_true active
    · exact List.find?_eq_none.1 idle x inTable active
  have first : (s.setJob j.number .waiting).candidate = some { j with state := .waiting } := by
    rw [State.candidate, entries]
    exact List.find?_eq_some_iff_append.2 ⟨rfl, pre, post, rfl, before⟩
  have still : (s.setJob j.number .waiting).mayStart { j with state := .waiting } = false := barred
  rw [Stable, judgeOnce_waits inactive first still]
  have same : setEntry j.number .waiting (setEntry j.number .waiting s.engine.jobs) = setEntry j.number .waiting s.engine.jobs := by
    rw [setEntry, setEntry, List.map_map]
    refine List.map_congr_left fun k _ => ?_
    rw [Function.comp_apply]
    by_cases number : k.number = j.number
    · simp [number]
    · simp [number]
  simp only [State.setJob]
  exact congrArg (fun jobs => ({ s with engine := { s.engine with jobs := jobs } } : State)) same

/-- The table as an entry is changed in its place. -/
theorem waiting_setEntry {pre post : List Job} {j : Job} (x : JobState) (waits : j.waits = true) (gone : ({ j with state := x } : Job).waits = false) :
    ((pre ++ { j with state := x } :: post).filter Job.waits).length < ((pre ++ j :: post).filter Job.waits).length := by
  simp [waits, gone]

theorem waiting_of_jobs {s : State} {jobs : List Job} (h : s.engine.jobs = jobs) : waiting s = (jobs.filter Job.waits).length := by rw [waiting, h]

/-- What the work of a job that starts leaves in the table: an ACTIVE entry, nothing that waits, or one entry fewer that waits. -/
theorem work_progress {j : Job} {u t : State} (work : Work j u t) {pre post : List Job} {k : Job} (jobs : u.engine.jobs = pre ++ k :: post)
    (number : k.number = j.number) (active : k.active?.isSome = true) (distinct : ((pre ++ k :: post).map Job.number).Nodup) :
    (∃ x ∈ t.engine.jobs, x.active?.isSome = true) ∨ waiting t = 0 ∨ ∃ c, t.engine.jobs = pre ++ { k with state := .ended c } :: post := by
  induction work with
  | rests s => exact .inl ⟨k, by simp [jobs], active⟩
  | asks a l s =>
    refine .inl ⟨{ k with state := .active a }, ?_, rfl⟩
    have entries : (s.askBoard j a l).engine.jobs = setEntry j.number (.active a) s.engine.jobs := rfl
    rw [entries, jobs, ← number, setEntry_split distinct]
    simp
  | awaits a s =>
    refine .inl ⟨{ k with state := .active a }, ?_, rfl⟩
    rw [setJob_jobs_eq, jobs, ← number, setEntry_split distinct]
    simp
  | ends c s =>
    refine .inr (.inr ⟨c, ?_⟩)
    rw [endJob_engine, jobs, ← number]
    exact setEntry_split distinct _
  | aborts a s =>
    refine .inr (.inl ?_)
    rw [waiting, finishAbort_eq, List.length_eq_zero_iff, List.filter_eq_nil_iff]
    exact fun x mem => by simp [not_waits_cancelAll mem]
  | @owes lane b s _ _ ih => exact ih jobs

theorem cutTransfer_engine (cut : TransferByte → Bool) (s : State) : (s.cutTransfer cut).engine = s.engine := (cutTransfer_cycleKeeps cut s).engine

/-- A judgement leaves nothing more to judge, or one entry fewer that waits (R168). -/
theorem judgeOnce_progress {s : State} (table : s.jobTable) : Stable s.judgeOnce ∨ waiting s.judgeOnce < waiting s := by
  cases idle : s.activeJob with
  | some j => exact .inl (by rw [judgeOnce_active idle]; exact judgeOnce_active idle)
  | none =>
    cases candidate : s.candidate with
    | none => exact .inl (by rw [judgeOnce_idle idle candidate]; exact judgeOnce_idle idle candidate)
    | some j =>
      cases may : s.mayStart j with
      | false =>
        rw [judgeOnce_waits idle candidate may]
        exact .inl (stable_setWaiting table idle candidate may)
      | true =>
        rw [judgeOnce_starts idle candidate may]
        obtain ⟨waits, pre, post, jobs, -⟩ := List.find?_eq_some_iff_append.1 candidate
        have distinct := table.2.1
        rw [jobs] at distinct
        have marked : (s.setJob j.number (.active (j.startWork s.timeBase))).engine.jobs = pre ++ { j with state := .active (j.startWork s.timeBase) } :: post := by
          rw [setJob_jobs_eq, jobs]
          exact setEntry_split distinct _
        obtain ⟨u, from', work⟩ := startJob_course j s
        have entries : u.engine.jobs = pre ++ { j with state := .active (j.startWork s.timeBase) } :: post := by
          rcases from' with rfl | ⟨cut, rfl⟩
          · exact marked
          · rw [cutTransfer_engine]
            exact marked
        have distinct' : ((pre ++ { j with state := .active (j.startWork s.timeBase) } :: post).map Job.number).Nodup := by simpa using distinct
        rcases work_progress work entries rfl rfl distinct' with ⟨x, mem, active⟩ | none' | ⟨c, ended⟩
        · exact .inl (stable_of_active mem active)
        · exact .inl (stable_of_none none')
        · refine .inr ?_
          rw [waiting_of_jobs ended, waiting_of_jobs jobs]
          exact waiting_setEntry _ waits rfl

theorem stable_judgeTimes {s : State} (h : Stable s) (n : Nat) : s.judgeTimes n = s := by
  induction n with
  | zero => rfl
  | succ n ih =>
    rw [State.judgeTimes, show s.judgeOnce = s from h]
    exact ih

/-- As many judgements as entries wait, and one more, leave nothing more to judge. -/
theorem judgeTimes_stable (n : Nat) {s : State} (table : s.jobTable) (few : waiting s ≤ n) : Stable (s.judgeTimes (n + 1)) := by
  induction n generalizing s with
  | zero =>
    have still := stable_of_none (Nat.le_zero.1 few)
    rw [stable_judgeTimes still]
    exact still
  | succ n ih =>
    rw [State.judgeTimes]
    rcases judgeOnce_progress table with still | fewer
    · rw [stable_judgeTimes still]
      exact still
    · exact ih ((jobsKept_judgeOnce s).table table) (by omega)

theorem judgeTimes_nine {s : State} (table : s.jobTable) : (s.judgeTimes 9).judgeOnce = s.judgeTimes 9 :=
  judgeTimes_stable 8 table ((List.length_filter_le ..).trans table.1)

end Sys2Proof.RuleRows
end

section
/-! PROOFS. The start of a job and the course of its work (R169 to R177). -/

namespace Sys2Proof.CourseRows

open Sys2Proof Sys2Proof.Machine Sys2Proof.Resets Sys2Proof.JobTable Sys2Proof.InjectRows Sys2Proof.TableRows Sys2Proof.RuleRows

/-! ### Ends and limits -/

theorem finishJob_eq (j : Job) (a : Active) (o : JobOutcome) (r : Option Nat) (e d : Option Byte) (c : Option Crc) (s : State) : s.finishJob j a o r e d c =
    s.endJob j { outcome := o, reached := r, expected := e, read := d, counts := if j.op.policy.isSome then some (a.mismatches, a.unsteady) else none,
                 crc := c, elapsed := s.timeBase - a.start } := by
  rw [State.finishJob, counts_eq]

theorem pollLimit_eq (op : Operation) (f : FlashPart) : pollLimit op f = match op with
    | .eraseSector => f.sectorTimeout * 1000
    | .eraseLane => if f.laneErase = [] then f.sectorTimeout * 1000 else f.laneTimeout * 1000
    | _ => f.programTimeout := by
  cases op <;> rfl

/-! ### The bytes of a job's slot -/

theorem jobByte_of_none {j : Job} (h : j.op.slot = none) (n : Nat) (s : State) : s.jobByte j n = 0 := by
  rw [State.jobByte, State.jobData, h]
  rfl

theorem jobData_getD {j : Job} {slot : Fin 4} {offset : Nat} (h : j.op.slot = some (slot, offset)) {i : Nat} (inside : i < j.length) (s : State) :
    (s.jobData j).getD i 0 = s.slots[slot].contents.getD (offset + i) 0 := by
  rw [State.jobData, h]
  simp only [List.getD_eq_getElem?_getD, List.getElem?_take_of_lt inside, List.getElem?_drop]

theorem jobByte_of_slot {j : Job} {slot : Fin 4} {offset : Nat} (h : j.op.slot = some (slot, offset)) {n : Nat} (from' : j.address ≤ n)
    (below : n < j.address + j.length) (s : State) : s.jobByte j n = s.slots[slot].contents.getD (offset + (n - j.address)) 0 :=
  jobData_getD h (by omega) s

theorem jobByte_inside {j : Job} {n : Nat} (from' : j.address ≤ n) (below : n < j.address + j.length) (s : State) : s.jobByte j n = match j.op.slot with
    | some (slot, offset) => s.slots[slot].contents.getD (offset + (n - j.address)) 0
    | none => 0 := by
  cases named : j.op.slot with
  | none => exact jobByte_of_none named n s
  | some q => exact jobByte_of_slot named from' below s

/-! ### The start of a job -/

theorem lines_mem (p : Profile) (i : Fin 28) : i ∈ p.lines ↔ 20 ≤ i.val ∨ 2 ^ i.val < p.size ∨ p.base.testBit i.val = true := by
  simp only [Profile.lines, List.mem_filter, List.mem_finRange, true_and, Bool.or_eq_true, decide_eq_true_eq, or_assoc]

theorem faulty_iff (x : LineEntry) : x.faulty = true ↔ x ≠ .untested ∧ x ≠ .good := by
  cases x <;> simp [LineEntry.faulty]

theorem laneFault_iff (p : Profile) (s : State) : s.laneFault p = true ↔
    ∃ i : Fin 28, (20 ≤ i.val ∨ 2 ^ i.val < p.size ∨ p.base.testBit i.val = true) ∧ s.bus.lineMap[i] ≠ .untested ∧ s.bus.lineMap[i] ≠ .good := by
  simp only [State.laneFault, List.any_eq_true, lines_mem, faulty_iff]

/-- The state in which a job begins: it is ACTIVE, and a transfer into a write-class job's lane has been cut short (R145). -/
def startCut (j : Job) (p : Profile) (s : State) : State :=
  if j.op.writeClass then (s.setJob j.number (.active (j.startWork s.timeBase))).cutTransfer (fun b => b.boardBound && p.inRange b.address)
  else s.setJob j.number (.active (j.startWork s.timeBase))

theorem finishTransfer_bus (tr : Transfer) (s : State) : (s.finishTransfer tr).bus = s.bus := by
  unfold State.finishTransfer
  cases tr.form <;> rfl

theorem cutTransfer_aside (cut : TransferByte → Bool) (s : State) : (s.cutTransfer cut).lanes = s.lanes ∧ (s.cutTransfer cut).bus.lineMap = s.bus.lineMap := by
  refine ⟨(cutTransfer_cycleKeeps cut s).lanes, ?_⟩
  unfold State.cutTransfer
  cases s.link.activity with
  | transfer tr =>
    dsimp only
    repeat' split
    · rfl
    · rw [finishTransfer_bus]
    · rfl
  | idle | sending | inject | release | floor | abort | rateChange _ | reset => rfl

theorem startCut_aside (j : Job) (p : Profile) (s : State) : (startCut j p s).lanes = s.lanes ∧ (startCut j p s).bus.lineMap = s.bus.lineMap := by
  unfold startCut
  split
  · exact cutTransfer_aside ..
  · exact ⟨rfl, rfl⟩

theorem startCut_laneFault (j : Job) (p : Profile) (s : State) : (startCut j p s).laneFault p = s.laneFault p := by
  rw [State.laneFault, (startCut_aside j p s).2]
  rfl

section start
variable {j : Job} {p : Profile} {s : State} (profile : s.lanes[j.lane].profile = some p)

include profile

theorem startJob_profile : s.startJob j = if j.op.writeClass && s.laneFault p
    then (startCut j p s).finishJob j (j.startWork s.timeBase) .lineFault (some j.address) none none none
    else match p.flash, s.lanes[j.lane].owed with
      | some f, true => (startCut j p s).askBoard j { j.startWork s.timeBase with phase := .owedReset } [p.pairAccess f.resetPair]
      | _, _ => (startCut j p s).beginWork j (j.startWork s.timeBase) p := by
  have given : s.profileOf j.lane = some p := profile
  rw [← startCut_laneFault j p s, ← (startCut_aside j p s).1, State.startJob, given]
  rfl

theorem startJob_fault (fault : j.op.writeClass = true ∧ s.laneFault p = true) :
    s.startJob j = (startCut j p s).finishJob j (j.startWork s.timeBase) .lineFault (some j.address) none none none := by
  rw [startJob_profile profile, if_pos (Bool.and_eq_true_iff.2 fault)]

variable (sound : ¬(j.op.writeClass = true ∧ s.laneFault p = true))

include sound

theorem startJob_owed {f : FlashPart} (flash : p.flash = some f) (owed : s.lanes[j.lane].owed = true) :
    s.startJob j = (startCut j p s).askBoard j { j.startWork s.timeBase with phase := .owedReset } [p.pairAccess f.resetPair] := by
  rw [startJob_profile profile, if_neg (mt Bool.and_eq_true_iff.1 sound), flash, owed]

theorem startJob_begins (clear : p.flash = none ∨ s.lanes[j.lane].owed = false) : s.startJob j = (startCut j p s).beginWork j (j.startWork s.timeBase) p := by
  rw [startJob_profile profile, if_neg (mt Bool.and_eq_true_iff.1 sound)]
  cases flash : p.flash with
  | none => rfl
  | some f => rw [clear.resolve_left (by simp [flash])]

end start

/-! ### The operation's own work -/

section beginning
variable {j : Job} {p : Profile} (a : Active) (s : State)

theorem eraseStep_eq (f : FlashPart) (op : j.op = .eraseLane) : s.eraseStep j a p f =
    s.askBoard j { a with phase := .eraseRun } (if f.laneErase = [] then p.eraseRun f a.current else f.laneErase.map p.pairAccess) := by
  rw [State.eraseStep]
  by_cases sectors : f.laneErase = []
  · rw [if_neg (fun h => h.2 sectors), if_pos sectors]
  · rw [if_pos ⟨op, sectors⟩, if_neg sectors]

theorem beginWork_sector {f : FlashPart} (op : j.op = .eraseSector) (flash : p.flash = some f) :
    s.beginWork j a p = s.askBoard j { a with phase := .eraseRun } (p.eraseRun f a.current) := by
  rw [State.beginWork, op]
  dsimp only
  rw [flash]
  exact if_neg (fun h => by rw [op] at h; exact nomatch h.1)

theorem beginWork_lane {f : FlashPart} (op : j.op = .eraseLane) (flash : p.flash = some f) : s.beginWork j a p = s.eraseStep j a p f := by
  rw [State.beginWork, op]
  dsimp only
  rw [flash]

theorem beginWork_program (op : j.op.options.isSome = true) :
    (∀ f, p.flash = some f → s.beginWork j a p = s.programStep j a p f) ∧ (p.flash = none → s.beginWork j a p = s.ramStep j a) := by
  cases operation : j.op with
  | program slot offset precheck verifyAfter =>
    refine ⟨fun f flash => ?_, fun flash => ?_⟩
    · rw [State.beginWork, operation]
      dsimp only
      rw [flash]
    · rw [State.beginWork, operation]
      dsimp only
      rw [flash]
  | eraseSector | eraseLane | verify _ _ _ | blankCheck | sum =>
    rw [operation] at op
    exact nomatch op

theorem beginWork_reads (op : j.op.writeClass = false) : s.beginWork j a p = s.askBoard j { a with phase := .reading } [readAccess a.current] := by
  cases operation : j.op with
  | verify _ _ _ | blankCheck | sum => rw [State.beginWork, operation]
  | eraseSector | eraseLane | program _ _ _ _ =>
    rw [operation] at op
    exact nomatch op

end beginning

/-! ### The program pass -/

/-- The erased bytes at the front of a list are those before the first that is not. -/
theorem length_takeWhile_erased {x : Byte} {l : List Byte} {n : Nat} (inside : n < l.length) (before : ∀ i, i < n → l.getD i 0 = x) (at' : l.getD n 0 ≠ x) :
    (l.takeWhile (fun b => decide (b = x))).length = n := by
  induction l generalizing n with
  | nil => exact absurd inside (Nat.not_lt_zero n)
  | cons b rest ih =>
    cases n with
    | zero =>
      rw [List.takeWhile_cons_of_neg (by simpa using at')]
      rfl
    | succ n =>
      have first : b = x := before 0 (Nat.succ_pos n)
      rw [List.takeWhile_cons_of_pos (by simp [first]), List.length_cons,
        ih (Nat.lt_of_succ_lt_succ inside) (fun i earlier => before (i + 1) (Nat.succ_lt_succ earlier)) at']

section program
variable {j : Job} {a : Active} {p : Profile} {s : State} {slot : Fin 4} {offset : Nat} {precheck verifyAfter : Bool}
  (op : j.op = .program slot offset precheck verifyAfter)

include op

theorem program_slot : j.op.slot = some (slot, offset) := by rw [op]; rfl

theorem jobData_length (filled : offset + j.length ≤ s.slots[slot].contents.length) : (s.jobData j).length = j.length := by
  rw [State.jobData, program_slot op]
  simp only [List.length_take, List.length_drop]
  omega

theorem programDone_eq : s.programDone j a = if verifyAfter then s.askBoard j { a with phase := .verifyPass, current := j.address } [readAccess j.address]
    else s.finishJob j a .done none none none none := by
  rw [State.programDone, op]
  cases verifyAfter <;> rfl

theorem ramStep_more (from' : j.address ≤ a.current) (more : a.current < j.address + j.length) : s.ramStep j a =
    s.askBoard j { a with phase := .ramWrite } [{ address := a.current, write := some (s.slots[slot].contents.getD (offset + (a.current - j.address)) 0) }] := by
  rw [← jobByte_of_slot (program_slot op) from' more]
  exact if_neg (by omega)

variable (from' : j.address ≤ a.current)

include from'

/-- The step's address, past the bytes that equal the erased byte (R171). -/
theorem programStep_byte {k : Nat} (filled : offset + j.length ≤ s.slots[slot].contents.length) (inside : k < j.length) (later : a.current ≤ j.address + k)
    (written : s.slots[slot].contents.getD (offset + k) 0 ≠ p.erased)
    (skipped : ∀ i, i < k → a.current ≤ j.address + i → s.slots[slot].contents.getD (offset + i) 0 = p.erased) (f : FlashPart) : s.programStep j a p f =
      if precheck then s.askBoard j { a with phase := .precheck, current := j.address + k } [readAccess (j.address + k)]
      else s.askBoard j { a with phase := .stepRun, current := j.address + k } (p.stepRun f (j.address + k) (s.slots[slot].contents.getD (offset + k) 0)) := by
  have named := program_slot op
  have length := jobData_length (s := s) op filled
  have bytes : ∀ i, i < j.length → (s.jobData j).getD i 0 = s.slots[slot].contents.getD (offset + i) 0 := fun i small => jobData_getD named small s
  have dropped : ∀ i, ((s.jobData j).drop (a.current - j.address)).getD i 0 = (s.jobData j).getD (a.current - j.address + i) 0 := fun i => by
    simp only [List.getD_eq_getElem?_getD, List.getElem?_drop]
  have skips : (((s.jobData j).drop (a.current - j.address)).takeWhile (fun b => decide (b = p.erased))).length = k - (a.current - j.address) := by
    refine length_takeWhile_erased ?_ (fun i earlier => ?_) ?_
    · rw [List.length_drop, length]
      omega
    · rw [dropped, bytes _ (by omega)]
      exact skipped _ (by omega) (by omega)
    · rw [dropped, bytes _ (by omega), show a.current - j.address + (k - (a.current - j.address)) = k by omega]
      exact written
  have byte : s.jobByte j (j.address + k) = s.slots[slot].contents.getD (offset + k) 0 := by
    rw [jobByte_of_slot named (by omega) (by omega), Nat.add_sub_cancel_left]
  have checks : j.op.options.any Prod.fst = precheck := by rw [op]; rfl
  rw [State.programStep, skips, show a.current + (k - (a.current - j.address)) = j.address + k by omega, checks, byte]
  exact if_neg (by omega)

theorem programStep_done (filled : offset + j.length ≤ s.slots[slot].contents.length)
    (skipped : ∀ i, i < j.length → a.current ≤ j.address + i → s.slots[slot].contents.getD (offset + i) 0 = p.erased) (f : FlashPart) :
    s.programStep j a p f = s.programDone j a := by
  have named := program_slot op
  have length := jobData_length (s := s) op filled
  have all : ((s.jobData j).drop (a.current - j.address)).takeWhile (fun b => decide (b = p.erased)) = (s.jobData j).drop (a.current - j.address) := by
    refine List.takeWhile_eq_self_iff.2 fun b mem => decide_eq_true ?_
    obtain ⟨i, inside, rfl⟩ := List.getElem_of_mem mem
    rw [List.length_drop, length] at inside
    have byte := jobData_getD named (i := a.current - j.address + i) (by omega) s
    rw [List.getElem_drop, ← List.getD_eq_getElem (d := 0), byte]
    exact skipped _ (by omega) (by omega)
  rw [State.programStep, all, List.length_drop, length]
  exact if_pos (by omega)

end program

end Sys2Proof.CourseRows
end

section
/-! PROOFS. The end of an access of the ACTIVE job, phase by phase (R170 to R177). -/

namespace Sys2Proof.PhaseRows

open Sys2Proof Sys2Proof.Machine Sys2Proof.Resets Sys2Proof.JobTable Sys2Proof.TableRows Sys2Proof.RuleRows Sys2Proof.CourseRows Sys2Proof.LinkKeeping Sys2Proof.LinkRows

/-! ### Erases -/

section erase
variable {j : Job} {f : FlashPart} (a : Active) (p : Profile) (s : State)

theorem eraseDone_once (h : j.op = .eraseSector ∨ (j.op = .eraseLane ∧ f.laneErase ≠ [])) : s.eraseDone j a p f = s.finishJob j a .done none none none none := by
  rw [State.eraseDone, if_neg]
  rintro ⟨lane, sectors⟩
  rcases h with sector | ⟨-, whole⟩
  · exact nomatch sector.symm.trans lane
  · exact whole sectors

variable (op : j.op = .eraseLane) (sectors : f.laneErase = [])

include op sectors

theorem eraseDone_next {q : Nat × Nat} (found : p.sectors.find? (fun x => decide (a.current < x.1)) = some q) :
    s.eraseDone j a p f = s.askBoard j { a with phase := .eraseRun, current := q.1 } (p.eraseRun f q.1) := by
  rw [State.eraseDone, if_pos ⟨op, sectors⟩, found]
  dsimp only
  rw [eraseStep_eq _ _ _ op, if_pos sectors]

theorem eraseDone_last (below : ∀ q ∈ p.sectors, q.1 ≤ a.current) : s.eraseDone j a p f = s.finishJob j a .done none none none none := by
  have found : p.sectors.find? (fun x => decide (a.current < x.1)) = none :=
    List.find?_eq_none.2 fun q mem later => absurd (below q mem) (Nat.not_le.2 (of_decide_eq_true later))
  rw [State.eraseDone, if_pos ⟨op, sectors⟩, found]

end erase

/-! ### Polls -/

section poll
variable {j : Job} {f : FlashPart} (a : Active) (start : Stamp) (s : State)

theorem pollAgain_toggle (method : f.pollMethod = .toggle) :
    s.pollAgain j a f start = s.askBoard j { a with phase := .poll start .toggleFirst } [readAccess a.current] := by
  rw [State.pollAgain, method]

theorem pollAgain_data (method : f.pollMethod = .data) :
    s.pollAgain j a f start = s.askBoard j { a with phase := .poll start .data } [readAccess a.current] := by
  rw [State.pollAgain, method]

theorem pollAgain_readyLine (method : f.pollMethod = .readyLine) :
    s.pollAgain j a f start = s.setJob j.number (.active { a with phase := .poll start .readyLine }) := by
  rw [State.pollAgain, method]

theorem pollDone_eq (p : Profile) : s.pollDone j a p f =
    if j.op.slot.isSome then s.askBoard j { a with phase := .compare } [readAccess a.current] else s.eraseDone j a p f := by
  rw [State.pollDone]
  cases j.op.slot <;> rfl

theorem pollTarget_eq (p : Profile) : s.pollTarget j a p = if j.op.slot.isSome then s.jobByte j a.current else p.erased := by
  rw [State.pollTarget]
  cases j.op.slot <;> rfl

theorem pollBusy_late {p : Profile} (late : pollLimit j.op f ≤ s.elapsed start) : s.pollBusy j a p f start = s.timeOut j a p f := if_pos late

theorem pollBusy_early {p : Profile} (early : s.elapsed start < pollLimit j.op f) : s.pollBusy j a p f start = s.pollAgain j a f start :=
  if_neg (Nat.not_le.2 early)

end poll

/-! ### The end of an access -/

/-- The phases that only a job of a FLASH lane is in. -/
def flashOnly : JobPhase → Bool
  | .owedReset | .precheck | .stepRun | .eraseRun | .poll _ _ | .compare | .timeoutReset | .abortReset => true
  | .ramWrite | .ramRead | .verifyPass | .reading | .retry _ _ _ => false

section ends
variable {j : Job} {a : Active} {p : Profile} {data : Byte} {s : State} (active : s.activeJob = some j) (state : j.state = .active a)
  (profile : s.lanes[j.lane].profile = some p) (own : a.aborting = false)

include active state profile own

theorem engineAccessEnd_own (still : a.phase.writesReset = false) : s.engineAccessEnd data = s.phaseEnd j a p data := by
  rw [engineAccessEnd_active active state profile, if_neg (fun h => by rw [own] at h; exact nomatch h.1), still]
  rfl

theorem engineAccessEnd_cleared (clears : a.phase.writesReset = true) : s.engineAccessEnd data = (s.setOwed j.lane false).phaseEnd j a p data := by
  rw [engineAccessEnd_active active state profile, if_neg (fun h => by rw [own] at h; exact nomatch h.1), clears]
  rfl

end ends

theorem phaseEnd_flash {j : Job} {a : Active} {p : Profile} {data : Byte} {s : State} {f : FlashPart} (flash : p.flash = some f) (only : flashOnly a.phase = true) :
    s.phaseEnd j a p data = s.flashPhaseEnd j a p f data := by
  rw [State.phaseEnd]
  cases phase : a.phase with
  | owedReset | precheck | stepRun | eraseRun | poll _ _ | compare | timeoutReset | abortReset =>
    dsimp only
    rw [flash]
  | ramWrite | ramRead | verifyPass | reading | retry _ _ _ =>
    rw [phase] at only
    exact nomatch only

section flash
variable {j : Job} {a : Active} {p : Profile} {data : Byte} {s : State} {f : FlashPart} (active : s.activeJob = some j) (state : j.state = .active a)
  (profile : s.lanes[j.lane].profile = some p) (flash : p.flash = some f) (own : a.aborting = false)

include active state profile flash own

theorem engineAccessEnd_flash (only : flashOnly a.phase = true) (still : a.phase.writesReset = false) :
    s.engineAccessEnd data = s.flashPhaseEnd j a p f data :=
  (engineAccessEnd_own active state profile own still).trans (phaseEnd_flash flash only)

theorem engineAccessEnd_owedReset (phase : a.phase = .owedReset) : s.engineAccessEnd data = (s.setOwed j.lane false).beginWork j a p := by
  rw [engineAccessEnd_cleared active state profile own (by rw [phase]; rfl), phaseEnd_flash flash (by rw [phase]; rfl), State.flashPhaseEnd, phase]

theorem engineAccessEnd_timeoutReset (phase : a.phase = .timeoutReset) :
    s.engineAccessEnd data = (s.setOwed j.lane false).finishJob j a .timeout (some a.current) none none none := by
  rw [engineAccessEnd_cleared active state profile own (by rw [phase]; rfl), phaseEnd_flash flash (by rw [phase]; rfl), State.flashPhaseEnd, phase]

theorem engineAccessEnd_precheck (phase : a.phase = .precheck) : s.engineAccessEnd data =
    if data &&& s.jobByte j a.current ≠ s.jobByte j a.current
      then s.finishJob j a .notErased (some a.current) (some (s.jobByte j a.current)) (some data) none
      else s.askBoard j { a with phase := .stepRun } (p.stepRun f a.current (s.jobByte j a.current)) := by
  rw [engineAccessEnd_flash active state profile flash own (by rw [phase]; rfl) (by rw [phase]; rfl), State.flashPhaseEnd, phase]

theorem engineAccessEnd_run (phase : a.phase = .stepRun ∨ a.phase = .eraseRun) : s.engineAccessEnd data = s.pollAgain j a f s.timeBase := by
  rcases phase with phase | phase
  · rw [engineAccessEnd_flash active state profile flash own (by rw [phase]; rfl) (by rw [phase]; rfl), State.flashPhaseEnd, phase]
  · rw [engineAccessEnd_flash active state profile flash own (by rw [phase]; rfl) (by rw [phase]; rfl), State.flashPhaseEnd, phase]

theorem engineAccessEnd_toggleFirst {start : Stamp} (phase : a.phase = .poll start .toggleFirst) :
    s.engineAccessEnd data = s.askBoard j { a with phase := .poll start (.toggleSecond data) } [readAccess a.current] := by
  rw [engineAccessEnd_flash active state profile flash own (by rw [phase]; rfl) (by rw [phase]; rfl), State.flashPhaseEnd, phase]

theorem engineAccessEnd_toggleSecond {start : Stamp} {first : Byte} (phase : a.phase = .poll start (.toggleSecond first)) : s.engineAccessEnd data =
    if f.bitOf first = f.bitOf data then s.pollDone j a p f else s.pollBusy j a p f start := by
  rw [engineAccessEnd_flash active state profile flash own (by rw [phase]; rfl) (by rw [phase]; rfl), State.flashPhaseEnd, phase]

theorem engineAccessEnd_data {start : Stamp} (phase : a.phase = .poll start .data) : s.engineAccessEnd data =
    if f.bitOf data = f.bitOf (s.pollTarget j a p) then s.pollDone j a p f else s.pollBusy j a p f start := by
  rw [engineAccessEnd_flash active state profile flash own (by rw [phase]; rfl) (by rw [phase]; rfl), State.flashPhaseEnd, phase]

theorem engineAccessEnd_compare (phase : a.phase = .compare) : s.engineAccessEnd data =
    if data = s.jobByte j a.current then s.programStep j { a with current := a.current + 1 } p f
      else s.finishJob j a .programFault (some a.current) (some (s.jobByte j a.current)) (some data) none := by
  rw [engineAccessEnd_flash active state profile flash own (by rw [phase]; rfl) (by rw [phase]; rfl), State.flashPhaseEnd, phase]

end flash

section plain
variable {j : Job} {a : Active} {p : Profile} {data : Byte} {s : State} (active : s.activeJob = some j) (state : j.state = .active a)
  (profile : s.lanes[j.lane].profile = some p) (own : a.aborting = false)

include active state profile own

theorem engineAccessEnd_ramWrite (phase : a.phase = .ramWrite) : s.engineAccessEnd data = s.askBoard j { a with phase := .ramRead } [readAccess a.current] := by
  rw [engineAccessEnd_own active state profile own (by rw [phase]; rfl), State.phaseEnd, phase]

theorem engineAccessEnd_ramRead (phase : a.phase = .ramRead) : s.engineAccessEnd data =
    if data = s.jobByte j a.current then s.ramStep j { a with current := a.current + 1 }
      else s.finishJob j a .programFault (some a.current) (some (s.jobByte j a.current)) (some data) none := by
  rw [engineAccessEnd_own active state profile own (by rw [phase]; rfl), State.phaseEnd, phase]

theorem engineAccessEnd_verifyPass (phase : a.phase = .verifyPass) : s.engineAccessEnd data =
    if data ≠ s.jobByte j a.current then s.finishJob j a .mismatch (some a.current) (some (s.jobByte j a.current)) (some data) none
      else if j.address + j.length ≤ a.current + 1 then s.finishJob j a .done none none none none
      else s.askBoard j { a with current := a.current + 1 } [readAccess (a.current + 1)] := by
  rw [engineAccessEnd_own active state profile own (by rw [phase]; rfl), State.phaseEnd, phase]

theorem engineAccessEnd_reading (phase : a.phase = .reading) : s.engineAccessEnd data = s.readByteDone j a p data := by
  rw [engineAccessEnd_own active state profile own (by rw [phase]; rfl), State.phaseEnd, phase]

theorem engineAccessEnd_retry {first : Byte} {left : Nat} {same : Bool} (phase : a.phase = .retry first left same) :
    s.engineAccessEnd data = s.retryDone j a first left same data := by
  rw [engineAccessEnd_own active state profile own (by rw [phase]; rfl), State.phaseEnd, phase]

end plain

/-! ### Reading and comparing -/

section reading
variable {j : Job} (a : Active) (p : Profile) (data : Byte) (s : State)

theorem readByteDone_sum (op : j.op = .sum) : s.readByteDone j a p data = s.nextRead j { a with crc := crcByte a.crc data } := by
  rw [State.readByteDone, op]

theorem readByteDone_blank (op : j.op = .blankCheck) : s.readByteDone j a p data =
    if data = p.erased then s.nextRead j { a with crc := crcByte a.crc data }
      else s.finishJob j { a with crc := crcByte a.crc data } .notBlank (some a.current) none (some data) none := by
  rw [State.readByteDone, op]

/-- A byte of VERIFY that has been read (R175). -/
def verified (j : Job) (a : Active) (policy : Policy) (data : Byte) (s : State) : State :=
  if data = s.jobByte j a.current then s.nextRead j { a with crc := crcByte a.crc data }
  else match policy with
    | .first => s.readingDone j (({ a with crc := crcByte a.crc data } : Active).addMismatch (s.jobByte j a.current) data)
    | .count => s.nextRead j (({ a with crc := crcByte a.crc data } : Active).addMismatch (s.jobByte j a.current) data)
    | .retry => s.askBoard j { a with crc := crcByte a.crc data, phase := .retry data 3 true } [readAccess a.current]

theorem readByteDone_verify {policy : Policy} (op : j.op.policy = some policy) : s.readByteDone j a p data = verified j a policy data s := by
  cases operation : j.op with
  | verify slot offset given =>
    rw [operation] at op
    obtain rfl : given = policy := Option.some.inj op
    rw [State.readByteDone, operation]
    rfl
  | eraseSector | eraseLane | program _ _ _ _ | blankCheck | sum =>
    rw [operation] at op
    exact nomatch op

theorem readingDone_verify (op : j.op.policy.isSome = true) :
    (∀ n e d, a.firstBad = some (n, e, d) → s.readingDone j a = s.finishJob j a .mismatch (some n) (some e) (some d) (some (crcFinal a.crc))) ∧
    (a.firstBad = none → s.readingDone j a = if 0 < a.unsteady then s.finishJob j a .unsteady a.firstUnsteady none none (some (crcFinal a.crc))
      else s.finishJob j a .done none none none (some (crcFinal a.crc))) := by
  cases operation : j.op with
  | verify slot offset given =>
    refine ⟨fun n e d bad => ?_, fun none' => ?_⟩
    · rw [State.readingDone, operation]
      dsimp only
      rw [bad]
    · rw [State.readingDone, operation]
      dsimp only
      rw [none']
  | eraseSector | eraseLane | program _ _ _ _ | blankCheck | sum =>
    rw [operation] at op
    exact nomatch op

theorem readingDone_sum (op : j.op = .sum) : s.readingDone j a = s.finishJob j a .done none none none (some (crcFinal a.crc)) := by
  rw [State.readingDone, op]

theorem readingDone_blank (op : j.op = .blankCheck) : s.readingDone j a = s.finishJob j a .done none none none none := by
  rw [State.readingDone, op]

variable {first : Byte} {left : Nat} {same : Bool}

theorem retryDone_more (more : 1 < left) : s.retryDone j a first left same data =
    s.askBoard j { a with phase := .retry first (left - 1) (same && decide (data = first)) } [readAccess a.current] := if_pos more

theorem retryDone_hard (last : left ≤ 1) (all : same = true) (again : data = first) :
    s.retryDone j a first left same data = s.nextRead j (a.addMismatch (s.jobByte j a.current) first) :=
  (if_neg (Nat.not_lt.2 last)).trans (if_pos (by rw [all, again]; simp))

theorem retryDone_unsteady (last : left ≤ 1) (differs : same = false ∨ data ≠ first) : s.retryDone j a first left same data = s.nextRead j a.addUnsteady :=
  (if_neg (Nat.not_lt.2 last)).trans (if_neg (by rcases differs with h | h <;> simp [h]))

end reading

/-! ### The ready input and the limit of a poll -/

section polling
variable {j : Job} {a : Active} {p : Profile} {f : FlashPart} {start : Stamp} {stage : PollStage} {s : State}

theorem polling_spec (h : s.polling = some (j, a, p, f, start, stage)) : s.activeJob = some j ∧ s.lanes[j.lane].profile = some p ∧ p.flash = some f := by
  unfold State.polling at h
  split at h
  · exact nomatch h
  · next k active =>
    split at h
    · next b q work profile =>
      split at h
      · next flash =>
        obtain ⟨rfl, rfl, rfl, rfl, rfl, rfl⟩ := by simpa using h
        exact ⟨active, profile, flash⟩
      · exact nomatch h
    · exact nomatch h

theorem exec_readyLine (h : s.polling = some (j, a, p, f, start, .readyLine)) (prst : s.port.prst = false) :
    exec .readyLineAsserted s = .next (s.pollDone j a p f).settle := by
  have meaning : exec .readyLineAsserted s = execReadyLineAsserted s := rfl
  rw [meaning, execReadyLineAsserted, h]
  exact if_neg (Bool.eq_false_iff.1 prst)

theorem exec_readyLine_other (h : s.polling = some (j, a, p, f, start, stage)) (other : stage ≠ .readyLine) : exec .readyLineAsserted s = .next s := by
  have meaning : exec .readyLineAsserted s = execReadyLineAsserted s := rfl
  rw [meaning, execReadyLineAsserted, h]
  cases stage with
  | toggleFirst | toggleSecond _ | data => rfl
  | readyLine => exact absurd rfl other

theorem exec_pollTimeout_readyLine (h : s.polling = some (j, a, p, f, start, .readyLine)) (prst : s.port.prst = false) :
    exec .pollTimeout s = .next ((s.passUntil start (pollLimit j.op f)).timeOut j a p f).settle.takeDue := by
  have meaning : exec .pollTimeout s = execPollTimeout s := rfl
  rw [meaning, execPollTimeout, h]
  exact if_neg (Bool.eq_false_iff.1 prst)

theorem exec_pollTimeout_other (h : s.polling = some (j, a, p, f, start, stage)) (prst : s.port.prst = false) (other : stage ≠ .readyLine) :
    exec .pollTimeout s = .next (s.passUntil start (pollLimit j.op f)).takeDue := by
  have meaning : exec .pollTimeout s = execPollTimeout s := rfl
  rw [meaning, execPollTimeout, h]
  refine (if_neg (Bool.eq_false_iff.1 prst)).trans ?_
  cases stage with
  | toggleFirst | toggleSecond _ | data => rfl
  | readyLine => exact absurd rfl other

/-- With no poll under way, or held in reset, the two rows of a poll change nothing. -/
theorem exec_poll_idle (h : s.polling = none ∨ s.port.prst = true) : exec .readyLineAsserted s = .next s ∧ exec .pollTimeout s = .next s := by
  have ready : exec .readyLineAsserted s = execReadyLineAsserted s := rfl
  have late : exec .pollTimeout s = execPollTimeout s := rfl
  rw [ready, late, execReadyLineAsserted, execPollTimeout]
  rcases polling : s.polling with _ | ⟨j, a, p, f, start, stage⟩
  · exact ⟨rfl, rfl⟩
  · have prst := h.resolve_left (by simp [polling])
    refine ⟨?_, if_pos prst⟩
    cases stage with
    | toggleFirst | toggleSecond _ | data => rfl
    | readyLine => exact if_pos prst

end polling

/-! ### The limits reached as a poll times out -/

/-- Where an entry is ACTIVE and its number's entries take new work, the ACTIVE entry has that work. -/
theorem activeJob_askBoard {j : Job} {s : State} (active : s.activeJob = some j) (b : Active) (l : List Access) :
    ∃ k, (s.askBoard j b l).activeJob = some k ∧ k.state = .active b := by
  obtain ⟨-, pre, post, jobs, before⟩ := List.find?_eq_some_iff_append.1 active
  have entries : (s.askBoard j b l).engine.jobs = setEntry j.number (.active b) pre ++ { j with state := .active b } :: setEntry j.number (.active b) post := by
    have same : (s.askBoard j b l).engine.jobs = setEntry j.number (.active b) s.engine.jobs := rfl
    rw [same, jobs]
    simp [setEntry]
  rw [State.activeJob, entries, List.find?_append]
  cases early : (setEntry j.number (.active b) pre).find? (fun k => k.active?.isSome) with
  | none => exact ⟨_, rfl, rfl⟩
  | some k =>
    refine ⟨k, rfl, ?_⟩
    obtain ⟨x, inTable, rfl⟩ := List.mem_map.1 (List.mem_of_find?_eq_some early)
    have isActive := List.find?_some early
    by_cases number : x.number = j.number
    · rw [if_pos number]
    · rw [if_neg number] at isActive
      exact absurd (before x inTable) (by simp [isActive])

theorem judgeTimes_active {s : State} {k : Job} (active : s.activeJob = some k) (n : Nat) : s.judgeTimes n = s :=
  stable_judgeTimes (judgeOnce_active active) n

/-- What follows a change leaves the ACTIVE entry as it is, unless it waits with the reset pair of ABORT ENGINE. -/
theorem activeJob_settle {s : State} {k : Job} {b : Active} (active : s.activeJob = some k) (state : k.state = .active b) (phase : b.phase ≠ .abortReset) :
    s.settle.activeJob = some k := by
  have work : k.active? = some b := by rw [Job.active?, state]
  have judged : s.judgeStart = s := judgeTimes_active active _
  have still : s.settleAbort = s := by
    rw [State.settleAbort, active]
    dsimp only
    rw [work]
    exact if_neg (fun h => phase h.1)
  rw [State.settle, judged, still, arbitrate_only]
  exact active

theorem polling_none {s : State} {k : Job} {b : Active} (active : s.activeJob = some k) (state : k.state = .active b)
    (phase : b.phase = .timeoutReset) : s.polling = none := by
  have work : k.active? = some b := by rw [Job.active?, state]
  rw [State.polling, active]
  dsimp only
  rw [work]
  cases s.profileOf k.lane with
  | none => rfl
  | some p =>
    dsimp only
    rw [phase]

theorem polling_timeOut {j : Job} {a : Active} {p : Profile} {f : FlashPart} {s : State} (active : s.activeJob = some j) :
    (s.timeOut j a p f).settle.polling = none := by
  obtain ⟨k, found, state⟩ := activeJob_askBoard active { a with phase := .timeoutReset } [p.pairAccess f.resetPair]
  exact polling_none (activeJob_settle (s := s.timeOut j a p f) found state (fun h => nomatch h)) state rfl

/-- With no limit reached there is nothing to take. -/
theorem takeDue_of_not {s : State} (hold : s.holdDue = false) (poll : s.pollDue = false) (frame : s.frameDue = false) : s.takeDue = s := by
  have expired : s.pollExpire = s := by
    rw [State.pollExpire]
    split
    · exact if_neg (Bool.eq_false_iff.1 poll)
    · rfl
  rw [State.takeDue, expireDue_of_not hold, expired]
  exact if_neg (Bool.eq_false_iff.1 frame)

theorem pollDue_of_none {s : State} (h : s.polling = none) : s.pollDue = false := by rw [State.pollDue, h]

theorem pollDue_of_other {j : Job} {a : Active} {p : Profile} {f : FlashPart} {start : Stamp} {stage : PollStage} {s : State}
    (h : s.polling = some (j, a, p, f, start, stage)) (other : stage ≠ .readyLine) : s.pollDue = false := by
  rw [State.pollDue, h]
  cases stage with
  | toggleFirst | toggleSecond _ | data => rfl
  | readyLine => exact absurd rfl other

end Sys2Proof.PhaseRows
end

section
/-! PROOFS. The row of the start rule and of the polls (R168 to R177). -/

namespace Sys2Proof.StartRows

open Sys2Proof Sys2Proof.Machine Sys2Proof.Resets Sys2Proof.JobTable Sys2Proof.LinkRows Sys2Proof.TableRows Sys2Proof.RuleRows
open Sys2Proof.CourseRows Sys2Proof.PhaseRows

/-- The bytes of a transfer that the start of a write-class job cuts (R145). -/
theorem cut_eq (p : Profile) : (fun b : TransferByte => b.boardBound && decide (p.base ≤ b.address) && decide (b.address < p.base + p.size)) =
    fun b => b.boardBound && p.inRange b.address := funext fun _ => Bool.and_assoc ..

theorem stepRun_eq (p : Profile) (f : FlashPart) (n : Nat) (d : Byte) :
    p.stepRun f n d = f.unlock.map p.pairAccess ++ [p.pairAccess f.program] ++ [{ address := n, write := some d }] := by
  rw [Profile.stepRun, List.append_assoc, List.singleton_append]

theorem ramStep_end {j : Job} {a : Active} (s : State) (past : j.address + j.length ≤ a.current) : s.ramStep j a = s.programDone j a := if_pos past

theorem passUntil_polling {s : State} {j : Job} {a : Active} {p : Profile} {f : FlashPart} {start since : Stamp} {stage : PollStage} {n : Nat}
    (h : s.polling = some (j, a, p, f, start, stage)) : (s.passUntil since n).polling = some (j, a, p, f, start, stage) := by
  rw [passUntil_eq]
  exact h

/-- Settles O60: by cases on the phase of the ACTIVE job's work, with one lemma for what each phase's end does. -/
theorem startRuleAndPolls : Obligations.StartRuleAndPolls := by
  unfold Obligations.StartRuleAndPolls
  intro ask ends written reads stepRun eraseRun limitOf slotByte
  have asked : ∀ j b l u, State.askBoard j b l u = ask j b l u := fun _ _ _ _ => rfl
  have ended : ∀ j b o r e d c u, State.finishJob j b o r e d c u = ends j b o r e d c u := fun _ _ _ _ _ _ _ _ => finishJob_eq ..
  have steps : ∀ p f n d, Profile.stepRun p f n d = stepRun p f n d := stepRun_eq
  have limits : ∀ op f, pollLimit op f = limitOf op f := pollLimit_eq
  have bytes : ∀ (j : Job) n u, j.address ≤ n ∧ n < j.address + j.length → State.jobByte j n u = slotByte j n u := fun j n u inside =>
    jobByte_inside inside.1 inside.2 u
  refine ⟨fun s => ⟨fun prst => ?_, fun prst => ?_, settle_engineOnly s, rfl, rfl, fun _ => rfl, judgeTimes_nine, fun _ _ => rfl⟩,
    fun j s idle found => ?_, fun j s active => judgeOnce_active active, fun s idle none' => ?_, fun j p s profile => ?_, fun j a p s => ?_,
    fun j a p f s slot offset precheck verifyAfter op from' => ?_, fun j a p f s => ?_, fun j a p f data s active state profile flash own => ?_,
    fun j a p data s active state profile own from' below => ?_, fun j a s => ?_, fun j a p f start s polling prst => ?_,
    fun j a p f start stage s polling prst other => ?_, fun s idle => exec_poll_idle idle⟩
  · exact congrArg Host.Outcome.next (if_neg (Bool.eq_false_iff.1 prst))
  · exact congrArg Host.Outcome.next (if_pos prst)
  · rw [← candidate_eq] at found
    exact ⟨mayStart_iff j s, judgeOnce_starts idle found, judgeOnce_waits idle found⟩
  · refine judgeOnce_idle idle ?_
    rw [candidate_eq]
    exact List.find?_eq_none.2 fun k mem waits => by simp [none' k mem] at waits
  · intro a entered cut fault
    have cutEq : startCut j p s = cut := by
      simp only [cut, cut_eq]
      rfl
    have faultIff : fault ↔ j.op.writeClass = true ∧ s.laneFault p = true := by rw [laneFault_iff]
    refine ⟨fun bad => ?_, fun f sound flash owed => ?_, fun sound clear => ?_⟩
    · rw [startJob_fault profile (faultIff.1 bad), cutEq]
      exact ended ..
    · rw [startJob_owed profile (mt faultIff.2 sound) flash owed, cutEq]
      rfl
    · rw [startJob_begins profile (mt faultIff.2 sound) clear, cutEq]
      rfl
  · exact ⟨fun f op flash => beginWork_sector a s op flash, fun f op flash => (beginWork_lane a s op flash).trans (eraseStep_eq a s f op),
      fun f op flash => (beginWork_program a s op).1 f flash, fun op ram => (beginWork_program a s op).2 ram, fun op => beginWork_reads a s op⟩
  · intro byteAt
    refine ⟨fun k filled inside later written skipped => ?_, fun filled skipped => programStep_done op from' filled skipped f,
      fun more => ramStep_more op from' more, fun past => ramStep_end s past, ?_⟩
    · rw [programStep_byte op from' filled inside later written skipped f, steps]
      rfl
    · rw [programDone_eq op, ended]
      rfl
  · refine ⟨fun once => ?_, fun op sectors => ⟨fun q found => eraseDone_next a p s op sectors found, fun below => ?_⟩⟩
    · rw [eraseDone_once a p s once, ended]
    · rw [eraseDone_last a p s op sectors below, ended]
  · intro after cleared want inside limit done
    have doneEq : s.pollDone j a p f = done := pollDone_eq a s p
    have limitEq : pollLimit j.op f = limit := limits j.op f
    refine ⟨engineAccessEnd_owedReset active state profile flash own, fun phase inside => ?_, fun phase => ?_,
      fun start phase => engineAccessEnd_toggleFirst active state profile flash own phase, fun start first phase method => ?_, fun start phase method inside => ?_,
      fun phase inside => ?_, fun phase => ?_⟩
    · have row := engineAccessEnd_precheck (data := data) active state profile flash own phase
      rw [bytes j a.current s inside, steps, ended] at row
      exact ⟨fun dirty => row.trans (if_pos dirty), fun clean => row.trans (if_neg (not_not_intro clean))⟩
    · have row := engineAccessEnd_run (data := data) active state profile flash own phase
      exact ⟨fun method => row.trans (pollAgain_toggle a s.timeBase s method), fun method => row.trans (pollAgain_data a s.timeBase s method),
        fun method => row.trans (pollAgain_readyLine a s.timeBase s method)⟩
    · have row := engineAccessEnd_toggleSecond (data := data) active state profile flash own phase
      rw [doneEq] at row
      refine ⟨fun same => row.trans (if_pos same), fun differs late => ?_, fun differs early => ?_⟩
      · exact (row.trans (if_neg differs)).trans (pollBusy_late a start s (limitEq ▸ late))
      · exact ((row.trans (if_neg differs)).trans (pollBusy_early a start s (limitEq ▸ early))).trans (pollAgain_toggle a start s method)
    · intro target
      have row := engineAccessEnd_data (data := data) active state profile flash own phase
      rw [doneEq, pollTarget_eq, bytes j a.current s inside] at row
      refine ⟨fun same => row.trans (if_pos same), fun differs late => ?_, fun differs early => ?_⟩
      · exact (row.trans (if_neg differs)).trans (pollBusy_late a start s (limitEq ▸ late))
      · exact ((row.trans (if_neg differs)).trans (pollBusy_early a start s (limitEq ▸ early))).trans (pollAgain_data a start s method)
    · have row := engineAccessEnd_compare (data := data) active state profile flash own phase
      rw [bytes j a.current s inside, ended] at row
      exact ⟨fun same => row.trans (if_pos same), fun differs => row.trans (if_neg differs)⟩
    · exact (engineAccessEnd_timeoutReset active state profile flash own phase).trans (ended ..)
  · intro after want last b next missed
    have inside : j.address ≤ a.current ∧ a.current < j.address + j.length := ⟨from', below⟩
    have byte : s.jobByte j a.current = want := bytes j a.current s inside
    refine ⟨engineAccessEnd_ramWrite active state profile own, fun phase same => ?_, fun phase differs => ?_, fun phase differs => ?_, fun phase same => ?_,
      fun phase op => ?_, fun phase op => ?_, fun policy phase op => ?_, fun first left same phase => ?_⟩
    · have row := engineAccessEnd_ramRead (data := data) active state profile own phase
      rw [byte] at row
      exact row.trans (if_pos same)
    · have row := engineAccessEnd_ramRead (data := data) active state profile own phase
      rw [byte, ended] at row
      exact row.trans (if_neg differs)
    · have row := engineAccessEnd_verifyPass (data := data) active state profile own phase
      rw [byte, ended] at row
      exact row.trans (if_pos differs)
    · have row := engineAccessEnd_verifyPass (data := data) active state profile own phase
      rw [byte, ended, ended] at row
      exact row.trans (if_neg (not_not_intro same))
    · exact (engineAccessEnd_reading active state profile own phase).trans (readByteDone_sum a p data s op)
    · have row := (engineAccessEnd_reading active state profile own phase).trans (readByteDone_blank a p data s op)
      rw [ended] at row
      exact row
    · have row := (engineAccessEnd_reading active state profile own phase).trans (readByteDone_verify a p data s op)
      unfold verified at row
      rw [byte] at row
      refine ⟨fun same => row.trans (if_pos same), fun differs first => ?_, fun differs count => ?_, fun differs retry => ?_⟩
      · rw [if_neg differs, first] at row
        exact row
      · rw [if_neg differs, count] at row
        exact row
      · rw [if_neg differs, retry] at row
        exact row
    · have row := engineAccessEnd_retry (data := data) active state profile own phase
      refine ⟨fun more => row.trans (retryDone_more a data s more), fun lastRead all again => ?_, fun lastRead differs => row.trans (retryDone_unsteady a data s lastRead differs)⟩
      rw [retryDone_hard a data s lastRead all again, byte] at row
      exact row
  · refine ⟨fun n e d op bad => ?_, fun op none' => ?_, fun op => ?_, fun op => ?_⟩
    · exact ((readingDone_verify a s op).1 n e d bad).trans (ended ..)
    · rw [(readingDone_verify a s op).2 none', ended, ended]
      rfl
    · exact (readingDone_sum a s op).trans (ended ..)
    · exact (readingDone_blank a s op).trans (ended ..)
  · have row := exec_readyLine polling prst
    refine ⟨fun op => ?_, fun op => ?_, ⟨_, row, engineOnly_trans (pollDone_engineOnly j a p f s) (settle_engineOnly _)⟩,
      s.passUntil start (pollLimit j.op f), passUntil_eq .., ?_, ?_⟩
    · rw [row, pollDone_eq, if_pos op]
      rfl
    · rw [row, pollDone_eq, op]
      rfl
    · rw [← limits]
      exact elapsed_passUntil ..
    · intro u
      have late : exec .pollTimeout s = .next u.takeDue := exec_pollTimeout_readyLine polling prst
      refine ⟨late, fun hold frame => ?_⟩
      have idle : u.polling = none := polling_timeOut (s := s.passUntil start (pollLimit j.op f)) (polling_spec (passUntil_polling polling)).1
      rw [late, takeDue_of_not hold (pollDue_of_none idle) frame]
  · have late := exec_pollTimeout_other polling prst other
    refine ⟨exec_readyLine_other polling other, s.passUntil start (pollLimit j.op f), passUntil_eq .., ?_, late, fun hold frame => ?_⟩
    · rw [← limits]
      exact elapsed_passUntil ..
    · rw [late, takeDue_of_not hold (pollDue_of_other (passUntil_polling polling) other) frame]

end Sys2Proof.StartRows
end

section
/-! PROOFS. What the loss of the supply does to the transfer, the bus and the engine, and what its return does to run control (R22, R23, R113, R114, R146, R182). -/

namespace Sys2Proof.PowerRows

open Sys2Proof Sys2Proof.Machine Sys2Proof.Resets Sys2Proof.BenchLink Sys2Proof.JobTable Sys2Proof.RunSound Sys2Proof.LinkKeeping Sys2Proof.CycleRows
  Sys2Proof.ReleaseRows Sys2Proof.SupplyRows Sys2Proof.BoardRows Sys2Proof.InjectRows Sys2Proof.PeekRows Sys2Proof.TableRows Sys2Proof.RuleRows
  Sys2Proof.CourseRows

/-! ### The cutting off, at the bus and at the link -/

/-- A command in progress waits for a cycle. -/
def AwaitsCycle (s : State) : Prop := s.link.activity = .inject ∨ s.link.activity = .release ∨ s.link.activity = .floor

/-- What a cutting off leaves of the bus and of the link: the target's request may go, and a command that waits for the cycle may be answered. -/
structure CutAside (s t : State) : Prop where
  bus : t.bus = { s.bus with target := t.bus.target }
  unanswered : ¬AwaitsCycle s → Unanswered s t
  activity : t.link.activity = s.link.activity ∨ t.link.activity = .sending

theorem CutAside.trans {s t u : State} (h : CutAside s t) (k : CutAside t u) : CutAside s u where
  bus := by
    have bus := k.bus
    rw [h.bus] at bus
    exact bus
  unanswered := fun other => by
    have first := h.unanswered other
    refine first.trans (k.unanswered ?_)
    rw [AwaitsCycle, first.activity]
    exact other
  activity := by
    rcases k.activity with same | sending
    · rw [same]
      exact h.activity
    · exact .inr sending

theorem cutAside_of_same {s t : State} (bus : t.bus = s.bus) (unanswered : Unanswered s t) : CutAside s t := ⟨by rw [bus], fun _ => unanswered, .inl unanswered.activity⟩

theorem cutAside_refl (s : State) : CutAside s s := cutAside_of_same rfl (unanswered_refl s)

theorem cutAside_offer (b : RecordBody) (sent : Bool) (stamp : Stamp) (s : State) : CutAside s (s.offer b sent stamp) :=
  cutAside_of_same (offer_bus ..) ⟨offer_activity .., offer_sent ..⟩

theorem cutAside_released (cause : EndCause) (s : State) : CutAside s (released cause s) := by
  refine cutAside_of_same (released_quiet cause s).2.1 ?_
  unfold released State.endHold
  split
  · split
    · exact ⟨offer_activity .., offer_sent ..⟩
    · exact unanswered_of_link rfl
  · exact unanswered_refl s

theorem cutAside_abandoned (c : Cycle) (s : State) : CutAside s (abandoned c s) where
  bus := rfl
  unanswered := fun _ => by
    have only := recorded_traceOnly c (recordWith c true 0) s
    exact ⟨congrArg (fun u => u.link.activity) only, congrArg (fun u => u.link.sent) only⟩
  activity := .inl (recorded_activity ..)

theorem cutAside_answerInjected (c : Cycle) (a : Bool) (d : Delivery) (s : State) : CutAside s (s.answerInjected c a d) where
  bus := by rw [answerInjected_eq]
  unanswered := fun other => by
    refine unanswered_of_link (congrArg State.link ?_)
    unfold State.answerInjected
    split
    · cases activity : s.link.activity with
      | inject => exact absurd (.inl activity) other
      | release => exact absurd (.inr (.inl activity)) other
      | floor => exact absurd (.inr (.inr activity)) other
      | idle | sending | transfer _ | abort | rateChange _ | reset => rfl
    · rfl
  activity := by
    unfold State.answerInjected State.answerInject
    split
    · cases activity : s.link.activity with
      | inject | release | floor => exact .inr rfl
      | idle | sending | transfer _ | abort | rateChange _ | reset => exact .inl activity
    · exact .inl rfl

theorem cutAside_abandonCycle (s : State) : CutAside s s.abandonCycle := by
  have of_same : ∀ {t : State}, t = s → CutAside s t := by
    rintro t rfl
    exact cutAside_refl t
  cases inFlight : s.port.inFlight with
  | none => exact of_same (abandonCycle_of_none inFlight)
  | some c =>
    by_cases begun : c.phase = .performing ∧ s.bus.target = false
    · exact of_same (abandonCycle_of_begun inFlight begun.1 begun.2)
    · have waits : c.phase ≠ .performing ∨ s.bus.target = true := by
        by_cases phase : c.phase = .performing
        · exact .inr (Bool.eq_true_of_not_eq_false fun target => begun ⟨phase, target⟩)
        · exact .inl phase
      rw [abandonCycle_of_waiting inFlight waits]
      exact (cutAside_abandoned c s).trans (cutAside_answerInjected ..)

theorem cutAside_cutOff (cause : EndCause) (after : HoldState) (marker : RecordBody) (s : State) : CutAside s (s.cutOff cause after marker) := by
  rw [cutOff_eq]
  have clears : CutAside (released cause s) (cleared after (released cause s)) := cutAside_of_same rfl (unanswered_of_link rfl)
  exact (((cutAside_released cause s).trans clears).trans (cutAside_abandonCycle _)).trans (cutAside_offer ..)

/-! ### The transfer and the bus -/

/-- The state as the transfer has been cut short and the bus taken from the engine (R142, R146, R150). -/
def busLost (u : State) : State := ((u.latch .power).cutTransfer TransferByte.boardBound).engineBusLost

theorem powerLost_eq (u : State) : powerLost u = { (busLost u).jobPowerLost with lanes := (busLost u).jobPowerLost.lanes.map LaneRecord.owe } := rfl

theorem busLost_engine (u : State) : (busLost u).engine = u.engine := cutTransfer_engine TransferByte.boardBound (u.latch .power)

theorem busLost_lanes (u : State) : (busLost u).lanes = u.lanes := (cutTransfer_aside TransferByte.boardBound (u.latch .power)).1

theorem busLost_bus (u : State) : (busLost u).bus.owner = u.bus.owner.lastAccess ∧ (busLost u).bus.engine = none ∧ (busLost u).bus.survey = false ∧
    (busLost u).bus.lineMap = u.bus.lineMap ∧ (busLost u).bus.target = u.bus.target := by
  obtain ⟨owner, target⟩ := cutTransfer_bus TransferByte.boardBound (u.latch .power)
  exact ⟨congrArg Owner.lastAccess owner, rfl, rfl, (cutTransfer_aside TransferByte.boardBound (u.latch .power)).2, target⟩

theorem busLost_of_none {u : State} (none' : ∀ tr, u.link.activity ≠ .transfer tr) : busLost u = (u.latch .power).engineBusLost := by
  rw [busLost, cutTransfer_of_none (s := u.latch .power) none']

theorem finishTransfer_activity (tr : Transfer) (s : State) : (s.finishTransfer tr).link.activity = .sending := by
  unfold State.finishTransfer
  cases tr.form <;> rfl

section transfer
variable {u : State} {tr : Transfer} {b : TransferByte} {rest : List TransferByte} (activity : u.link.activity = .transfer tr) (todo : tr.todo = b :: rest)

include activity todo

/-- A byte granted, or one that needs no bus, is let end (R146). -/
theorem busLost_kept (kept : u.bus.owner = .bench ∨ b.boardBound = false) :
    (busLost u).link.activity = .transfer { tr with todo := b :: rest.takeWhile (fun x => !x.boardBound) } ∧ (busLost u).link.sent = u.link.sent := by
  have cut : (u.latch .power).cutTransfer TransferByte.boardBound =
      (u.latch .power).occupy (.transfer { tr with todo := b :: rest.takeWhile (fun x => !x.boardBound) }) := by
    by_cases owner : u.bus.owner = .bench
    · exact cutTransfer_granted (s := u.latch .power) _ todo activity owner
    · exact cutTransfer_later (s := u.latch .power) _ todo activity owner (kept.resolve_left owner)
  rw [busLost, cut]
  exact ⟨rfl, rfl⟩

/-- With no byte left the request is withdrawn and the command answered (R146). -/
theorem busLost_cut (owner : u.bus.owner ≠ .bench) (here : b.boardBound = true) : (busLost u).bus.bench = none ∧ (busLost u).link.activity = .sending ∧
    (tr.form = .peek → (busLost u).link.sent = some { status := .ok, code := 0x50, answer := .peeked tr.made tr.count }) ∧
    (tr.form = .poke → (busLost u).link.sent = some { status := .ok, code := 0x51, answer := .poked tr.count }) := by
  have cut := cutTransfer_now (s := u.latch .power) TransferByte.boardBound todo activity owner here
  rw [busLost, cut]
  refine ⟨congrArg Bus.bench (finishTransfer_bus tr _), finishTransfer_activity tr _, fun form => ?_, fun form => ?_⟩
  · rw [finishTransfer_peek form]
    rfl
  · rw [finishTransfer_poke form]
    rfl

end transfer

/-! ### The engine -/

/-- The completion of the job that is ACTIVE as the supply is lost (R178, R182). -/
def lostBy (j : Job) (a : Active) (s : State) : Completion :=
  { outcome := .powerLost, reached := some a.current, expected := none, read := none,
    counts := if j.op.policy.isSome then some (a.mismatches, a.unsteady) else none,
    crc := if j.op = .sum then some (~~~a.crc) else none, elapsed := s.timeBase - a.start }

theorem jobPowerLost_of_idle {s : State} (idle : s.activeJob = none) : s.jobPowerLost = s := by rw [State.jobPowerLost, idle]

section active
variable {s : State} {j : Job} {a : Active} (active : s.activeJob = some j) (state : j.state = .active a)

include active state

theorem jobPowerLost_cases : s.jobPowerLost = if s.link.activity = .abort
    then ((s.endJob j (lostBy j a s)).cancelAll).respond .ok 0x74 (.ended ((s.engine.jobs.filter Job.waits).length + 1)) else s.endJob j (lostBy j a s) := by
  have work : j.active? = some a := by rw [Job.active?, state]
  rw [State.jobPowerLost, active]
  dsimp only
  rw [work]
  dsimp only
  rw [finishJob_eq, TableRows.sumCrc_eq, lostBy]

theorem jobPowerLost_abort (abort : s.link.activity = .abort) : s.jobPowerLost =
    ((s.endJob j (lostBy j a s)).cancelAll).respond .ok 0x74 (.ended ((s.engine.jobs.filter Job.waits).length + 1)) :=
  (jobPowerLost_cases active state).trans (if_pos abort)

theorem jobPowerLost_ends (other : s.link.activity ≠ .abort) : s.jobPowerLost = s.endJob j (lostBy j a s) :=
  (jobPowerLost_cases active state).trans (if_neg other)

end active

theorem active_of_found {s : State} {j : Job} (active : s.activeJob = some j) : ∃ a, j.state = .active a := by
  have isActive := List.find?_some active
  unfold Job.active? at isActive
  cases state : j.state with
  | active a => exact ⟨a, rfl⟩
  | queued | waiting | ended _ =>
    rw [state] at isActive
    exact nomatch isActive

/-- What the end of the ACTIVE job leaves of the bus and the lanes. -/
theorem jobPowerLost_aside (s : State) : s.jobPowerLost.bus = s.bus ∧ s.jobPowerLost.lanes = s.lanes := by
  cases active : s.activeJob with
  | none =>
    rw [jobPowerLost_of_idle active]
    exact ⟨rfl, rfl⟩
  | some j =>
    obtain ⟨a, state⟩ := active_of_found active
    have ends := endsJobs_endJob j (lostBy j a s) s
    rw [jobPowerLost_cases active state]
    split
    · rw [cancelAll_only, ends]
      exact ⟨rfl, rfl⟩
    · rw [ends]
      exact ⟨rfl, rfl⟩

theorem unanswered_jobPowerLost {s : State} (other : s.link.activity ≠ .abort) : Unanswered s s.jobPowerLost := by
  cases active : s.activeJob with
  | none =>
    rw [jobPowerLost_of_idle active]
    exact unanswered_refl s
  | some j =>
    obtain ⟨a, state⟩ := active_of_found active
    rw [jobPowerLost_ends active state other]
    exact unanswered_endJob ..

theorem endJob_idle {s : State} {j : Job} (table : s.jobTable) (active : s.activeJob = some j) (c : Completion) : (s.endJob j c).activeJob = none := by
  refine List.find?_eq_none.2 fun k mem isActive => ?_
  rw [endJob_engine] at mem
  obtain ⟨x, before, rfl⟩ := List.mem_map.1 mem
  split at isActive
  · exact Bool.false_ne_true isActive
  · next other => exact other (congrArg Job.number (active_unique table active before isActive))

/-- Under ABORT ENGINE no entry is left unfinished (R181, R182). -/
theorem cancelled_finished {s : State} {j : Job} (table : s.jobTable) (active : s.activeJob = some j) (c : Completion) :
    ∀ k ∈ (s.endJob j c).cancelAll.engine.jobs, k.unfinished = false := by
  intro k mem
  rcases mem_cancelEach mem with ended | ⟨inTable, apart⟩
  · exact ended
  · refine Bool.eq_false_iff.2 fun unfinished => ?_
    rcases unfinished_iff.1 unfinished with isActive | waits
    · exact List.find?_eq_none.1 (endJob_idle table active c) k inTable isActive
    · exact apart k (List.mem_filter.2 ⟨inTable, waits⟩) rfl

theorem jobPowerLost_idle {s : State} (table : s.jobTable) : s.jobPowerLost.activeJob = none := by
  cases active : s.activeJob with
  | none => rw [jobPowerLost_of_idle active, active]
  | some j =>
    obtain ⟨a, state⟩ := active_of_found active
    rw [jobPowerLost_cases active state]
    split
    · exact (find_active_of_finished (cancelled_finished table active (lostBy j a s))).1
    · exact endJob_idle table active _

/-- The table under ABORT ENGINE: the ACTIVE entry ends POWER_LOST, the waiting ones are cancelled after it (R181, R182; log 36). -/
theorem jobPowerLost_engine {s : State} {j : Job} {a : Active} (table : s.jobTable) (active : s.activeJob = some j) (state : j.state = .active a)
    (abort : s.link.activity = .abort) : s.jobPowerLost.engine =
      { jobs := s.engine.jobs.map (fun k => if k.waits then { k with state := .ended (cancelledBy k) }
                                             else if k.number = j.number then { k with state := .ended (lostBy j a s) } else k),
        endOrder := s.engine.endOrder ++ j.number :: (s.engine.jobs.filter Job.waits).map Job.number, nextNumber := s.engine.nextNumber } := by
  have ended : (s.endJob j (lostBy j a s)).jobTable := (jobsKept_endJob (fun table => (leads_of_active table active).isOpen) _).table table
  have mem : j ∈ s.engine.jobs := List.mem_of_find?_eq_some active
  have busy : j.waits = false := by rw [Job.waits, state]
  have apart : ∀ k ∈ s.engine.jobs, k.waits = true → k.number ≠ j.number := fun k inTable waits same => by
    rw [List.inj_on_of_nodup_map table.2.1 inTable mem same, busy] at waits
    exact nomatch waits
  have cancelled := (cancelAll_cases ended).2.1
  have engine := endJob_engine j (lostBy j a s) s
  have waiting : (setEntry j.number (.ended (lostBy j a s)) s.engine.jobs).filter Job.waits = s.engine.jobs.filter Job.waits := by
    rw [setEntry, List.filter_map]
    have same : ∀ k ∈ s.engine.jobs, (Job.waits ∘ fun k => if k.number = j.number then { k with state := .ended (lostBy j a s) } else k) k = k.waits := by
      intro k inTable
      rw [Function.comp_apply]
      split
      · next number => exact (Bool.eq_false_iff.2 fun waits => apart k inTable waits number).symm
      · rfl
    rw [List.filter_congr same]
    refine (List.map_congr_left fun k mem => ?_).trans (List.map_id _)
    obtain ⟨inTable, waits⟩ := List.mem_filter.1 mem
    exact if_neg (apart k inTable waits)
  rw [jobPowerLost_abort active state abort]
  refine cancelled.trans ?_
  rw [engine]
  dsimp only
  rw [waiting, List.append_assoc, List.singleton_append]
  refine congrArg (fun jobs => Engine.mk jobs _ _) ?_
  rw [setEntry, List.map_map]
  refine List.map_congr_left fun k inTable => ?_
  rw [Function.comp_apply]
  by_cases number : k.number = j.number
  · have still : k.waits = false := Bool.eq_false_iff.2 fun waits => apart k inTable waits number
    have gone : ({ k with state := .ended (lostBy j a s) } : Job).waits = false := rfl
    simp only [if_pos number, gone, still, Bool.false_eq_true, if_false]
  · simp only [if_neg number]

/-- An entry ACTIVE as the supply is lost ends POWER_LOST (R182). -/
theorem mem_jobPowerLost {s : State} {j : Job} {a : Active} (table : s.jobTable) (mem : j ∈ s.engine.jobs) (state : j.state = .active a) :
    s.activeJob = some j ∧ { j with state := .ended (lostBy j a s) } ∈ s.jobPowerLost.engine.jobs := by
  have isActive : j.active?.isSome = true := by rw [Job.active?, state]; rfl
  have active : s.activeJob = some j := by
    cases found : s.activeJob with
    | none => exact absurd isActive (by simpa using List.find?_eq_none.1 found j mem)
    | some k => rw [active_unique table found mem isActive]
  refine ⟨active, ?_⟩
  by_cases abort : s.link.activity = .abort
  · have busy : j.waits = false := by rw [Job.waits, state]
    rw [jobPowerLost_engine table active state abort]
    exact List.mem_map.2 ⟨j, mem, by simp only [busy, Bool.false_eq_true, if_false, if_true]⟩
  · rw [jobPowerLost_ends active state abort, endJob_engine]
    exact List.mem_map.2 ⟨j, mem, if_pos rfl⟩

/-- Where ABORT ENGINE does not wait, an entry that waits stays (R182). -/
theorem mem_jobPowerLost_of_waits {s : State} {k : Job} (table : s.jobTable) (other : s.link.activity ≠ .abort) (mem : k ∈ s.engine.jobs) (waits : k.waits = true) :
    k ∈ s.jobPowerLost.engine.jobs := by
  cases active : s.activeJob with
  | none =>
    rw [jobPowerLost_of_idle active]
    exact mem
  | some j =>
    obtain ⟨a, state⟩ := active_of_found active
    have busy : j.waits = false := by rw [Job.waits, state]
    have apart : k.number ≠ j.number := fun same => by
      rw [List.inj_on_of_nodup_map table.2.1 mem (List.mem_of_find?_eq_some active) same, busy] at waits
      exact nomatch waits
    rw [jobPowerLost_ends active state other, endJob_engine]
    exact List.mem_map.2 ⟨k, mem, if_neg apart⟩

/-! ### What follows with the supply absent -/

/-- With the supply absent and no job ACTIVE the candidate may come to be WAITING, and nothing else follows (R139, R168). -/
theorem settle_absent {s : State} (table : s.jobTable) (absent : s.port.powered = false) (idle : s.activeJob = none) :
    s.settle = s ∨ ∃ k, s.candidate = some k ∧ s.settle = s.setJob k.number .waiting := by
  have quiet : ∀ t : State, t.activeJob = none → t.port.powered = false → t.settleAbort.arbitrate = t := fun t idle absent => by
    rw [show t.settleAbort = t by rw [State.settleAbort, idle]]
    exact if_pos (.inr (.inl absent))
  cases candidate : s.candidate with
  | none =>
    left
    rw [State.settle, show s.judgeStart = s from judgeTimes_idle _ idle candidate, quiet s idle absent]
  | some k =>
    right
    have barred : s.mayStart k = false := Bool.eq_false_iff.2 fun may => by
      rw [((mayStart_iff k s).1 may).1] at absent
      exact nomatch absent
    have first : s.judgeOnce = s.setJob k.number .waiting := judgeOnce_waits idle candidate barred
    have judged : s.judgeStart = s.setJob k.number .waiting := by
      rw [State.judgeStart, State.judgeTimes, first]
      exact stable_judgeTimes (stable_setWaiting table idle candidate barred) _
    have still : (s.setJob k.number .waiting).activeJob = none := by
      refine List.find?_eq_none.2 fun x mem active => ?_
      rw [setJob_jobs_eq] at mem
      obtain ⟨y, inTable, rfl⟩ := List.mem_map.1 mem
      split at active
      · exact Bool.false_ne_true active
      · exact List.find?_eq_none.1 idle y inTable active
    exact ⟨k, rfl, by rw [State.settle, judged, quiet _ still absent]⟩

/-- What settling leaves with the supply absent and no job ACTIVE. -/
structure StillAbsent (s t : State) : Prop where
  bus : t.bus = s.bus
  link : t.link = s.link
  lanes : t.lanes = s.lanes
  idle : t.activeJob = none
  ended : ∀ k ∈ s.engine.jobs, k.unfinished = false → k ∈ t.engine.jobs
  entries : ∀ k ∈ s.engine.jobs, k ∈ t.engine.jobs ∨ { k with state := .waiting } ∈ t.engine.jobs
  finished : (∀ k ∈ s.engine.jobs, k.unfinished = false) → t.engine = s.engine

theorem stillAbsent_settle {s : State} (table : s.jobTable) (absent : s.port.powered = false) (idle : s.activeJob = none) : StillAbsent s s.settle := by
  rcases settle_absent table absent idle with same | ⟨k, candidate, same⟩
  · rw [same]
    exact ⟨rfl, rfl, rfl, idle, fun k mem _ => mem, fun k mem => .inl mem, fun _ => rfl⟩
  · have waits : k.waits = true := List.find?_some candidate
    have inTable : k ∈ s.engine.jobs := List.mem_of_find?_eq_some candidate
    rw [same]
    refine ⟨rfl, rfl, rfl, ?_, fun x mem done => ?_, fun x mem => ?_, fun finished => ?_⟩
    · refine List.find?_eq_none.2 fun x mem active => ?_
      rw [setJob_jobs_eq] at mem
      obtain ⟨y, before, rfl⟩ := List.mem_map.1 mem
      split at active
      · exact Bool.false_ne_true active
      · exact List.find?_eq_none.1 idle y before active
    · rw [setJob_jobs_eq]
      refine List.mem_map.2 ⟨x, mem, if_neg fun number => ?_⟩
      rw [List.inj_on_of_nodup_map table.2.1 mem inTable number, unfinished_of_waits waits] at done
      exact nomatch done
    · rw [setJob_jobs_eq]
      by_cases number : x.number = k.number
      · exact .inr (List.mem_map.2 ⟨x, mem, if_pos number⟩)
      · exact .inl (List.mem_map.2 ⟨x, mem, if_neg number⟩)
    · exact absurd (unfinished_of_waits waits) (by simp [finished k inTable])

/-! ### The return of the supply -/

/-- Run control as the standing claims are taken up (R114). -/
theorem takeUpClaims_cases (s : State) : s.takeUpClaims = if s.run.anyLive then
    (if s.run.rehearsal || s.port.waitWired then s.setHold .holdArmed else (s.setHold .running).latch .holdMissed) else s.setHold .running := rfl

end Sys2Proof.PowerRows
end

section
/-! PROOFS. The row of the supply lost and returned (R21 to R23, R113, R114, R164, R182). -/

namespace Sys2Proof.LostRows

open Sys2Proof Sys2Proof.Machine Sys2Proof.Resets Sys2Proof.BenchLink Sys2Proof.JobTable Sys2Proof.RunSound Sys2Proof.LinkKeeping Sys2Proof.ClaimRows
  Sys2Proof.CycleRows Sys2Proof.ReleaseRows Sys2Proof.SupplyRows Sys2Proof.BoardRows Sys2Proof.InjectRows Sys2Proof.PeekRows Sys2Proof.TableRows
  Sys2Proof.RuleRows Sys2Proof.CourseRows Sys2Proof.PowerRows

/-! ### The row -/

theorem lossLevel_eq (threshold : Fin 4) : Config.lossLevel threshold = match threshold with | 0 => 1500 | 1 => 2500 | 2 => 3000 | 3 => 4200 := by
  revert threshold
  decide

theorem returnLevel_eq (threshold : Fin 4) : Config.returnLevel threshold = match threshold with | 0 => 1600 | 1 => 2600 | 2 => 3100 | 3 => 4300 := by
  revert threshold
  decide

theorem exec_supply {level : Nat} {c : Instr} {s : State} (row : c = .supplyLost level ∨ c = .supplyReturned level) (prst : s.port.prst = false) :
    exec c s = .next (s.setSupply level).supervise := by
  have moved : s.supplyAt level = (s.setSupply level).supervise := if_neg (Bool.eq_false_iff.1 prst)
  rcases row with rfl | rfl
  · exact congrArg Host.Outcome.next moved
  · exact congrArg Host.Outcome.next moved

theorem lastAccess_eq (owner : Owner) : owner.lastAccess = match owner with
    | .engine (.accesses lane (a :: _)) => .ended lane a
    | .engine _ => .free
    | o => o := by
  match owner with
  | .engine (.accesses _ (_ :: _)) | .engine (.accesses _ []) | .engine .lineSurvey | .free | .target | .bench | .ended _ _ => rfl

/-! ### The loss -/

/-- The state as the loss of the supply at this level has cut off the target. -/
def cutTo (level : Nat) (s : State) : State := cutAt (s.setSupply level)

/-- The state after the loss of the supply at this level. -/
def lost (level : Nat) (s : State) : State := (s.setSupply level).supplyLost.settle

theorem lost_eq (level : Nat) (s : State) : lost level s =
    ({ (busLost (cutTo level s)).jobPowerLost with lanes := (busLost (cutTo level s)).jobPowerLost.lanes.map LaneRecord.owe } : State).settle := rfl

section lost
variable (level : Nat) (s : State)

theorem cutTo_keeps : s.cycleKeeps (cutTo level s) := by
  have moved : s.cycleKeeps { s with port := { s.port with supply := level, powered := false } } := State.cycleKeeps.keepsOf s ..
  exact moved.keepsTrans (cutOff_cycleKeeps ..)

theorem cutTo_aside : CutAside s (cutTo level s) := by
  have moved : CutAside s { s with port := { s.port with supply := level, powered := false } } := cutAside_of_same rfl (unanswered_of_link rfl)
  exact moved.trans (cutAside_cutOff ..)

theorem cutTo_run : (cutTo level s).run = { s.run with hold := .unpowered, claims := [], rehearsal := false
                                                       origin := if s.run.hold = .holding then none else s.run.origin
                                                       timer := if s.run.hold = .holding then none else s.run.timer } := cutOff_run ..

theorem cutTo_port : (cutTo level s).port = { s.port with supply := level, powered := false, inFlight := (cutTo level s).port.inFlight } := cutOff_port ..

theorem busLost_table {s : State} (table : s.jobTable) : (busLost (cutTo level s)).jobTable :=
  jobTable_of_engine ((busLost_engine _).trans (cutTo_keeps level s).engine) table

theorem lost_engineOnly : (cutTo level s).engineOnly (lost level s) := engineOnly_trans (supplyLost_engineOnly (s.setSupply level)) (settle_engineOnly _)

variable {s} (table : s.jobTable)

include table

theorem lost_still : StillAbsent (s.setSupply level).supplyLost (lost level s) := by
  have kept := (jobsKept_jobPowerLost _).table (busLost_table level table)
  exact stillAbsent_settle (s := (s.setSupply level).supplyLost) kept (supplyLost_powered _) (jobPowerLost_idle (busLost_table level table))

theorem lost_bus : (lost level s).bus = (busLost (cutTo level s)).bus := (lost_still level table).bus.trans (jobPowerLost_aside _).1

theorem lost_link : (lost level s).link = (busLost (cutTo level s)).jobPowerLost.link := (lost_still level table).link

theorem lost_unanswered (other : (busLost (cutTo level s)).link.activity ≠ .abort) : Unanswered (busLost (cutTo level s)) (lost level s) := by
  have jobs := unanswered_jobPowerLost other
  have link := lost_link level table
  exact ⟨by rw [link]; exact jobs.activity, by rw [link]; exact jobs.sent⟩

theorem lost_lanes (i : Fin 4) : (lost level s).lanes[i] =
    if s.lanes[i].profile.any (fun p => decide (p.cls = .flash)) then { s.lanes[i] with owed := true } else s.lanes[i] := by
  have lanes : (lost level s).lanes = s.lanes.map LaneRecord.owe := by
    have before : (busLost (cutTo level s)).jobPowerLost.lanes = s.lanes :=
      (jobPowerLost_aside _).2.trans ((busLost_lanes _).trans (cutTo_keeps level s).lanes)
    rw [← before]
    exact (lost_still level table).lanes
  rw [lanes]
  exact Vector.getElem_map ..

end lost

/-- The board access in progress is finished, and the bus is taken from the engine and the line survey (R22, R142, R150, R182). -/
theorem lost_busFields (level : Nat) {s : State} (table : s.jobTable) : (lost level s).bus.owner = s.bus.owner.lastAccess ∧ (lost level s).bus.engine = none ∧
    (lost level s).bus.survey = false ∧ (lost level s).bus.lineMap = s.bus.lineMap ∧ (lost level s).bus.target = (cutTo level s).bus.target := by
  obtain ⟨owner, engine, survey, lineMap, target⟩ := busLost_bus (cutTo level s)
  have bus := (cutTo_aside level s).bus
  rw [bus] at owner lineMap
  rw [lost_bus level table]
  exact ⟨owner, engine, survey, lineMap, target⟩

section transfer
variable (level : Nat) {s : State} (table : s.jobTable) {tr : Transfer} {b : TransferByte} {rest : List TransferByte}
  (activity : s.link.activity = .transfer tr) (todo : tr.todo = b :: rest)

include activity in
theorem cutTo_transfer : (cutTo level s).link.activity = .transfer tr ∧ (cutTo level s).link.sent = s.link.sent := by
  have same := (cutTo_aside level s).unanswered (by simp [AwaitsCycle, activity])
  exact ⟨same.activity.trans activity, same.sent⟩

include table activity todo

/-- A PEEK or POKE with a byte that is let end (R146). -/
theorem lost_transfer_kept (kept : s.bus.owner = .bench ∨ b.boardBound = false) :
    (lost level s).link.activity = .transfer { tr with todo := b :: rest.takeWhile (fun x => !x.boardBound) } ∧ (lost level s).link.sent = s.link.sent := by
  obtain ⟨moving, sent⟩ := cutTo_transfer level activity
  have owner : (cutTo level s).bus.owner = s.bus.owner := by rw [(cutTo_aside level s).bus]
  rw [← owner] at kept
  obtain ⟨left, still⟩ := busLost_kept moving todo kept
  have same := lost_unanswered level table (by simp [left])
  exact ⟨same.activity.trans left, (same.sent.trans still).trans sent⟩

/-- A PEEK or POKE with no byte left is answered (R146). -/
theorem lost_transfer_cut (owner : s.bus.owner ≠ .bench) (here : b.boardBound = true) : (lost level s).bus.bench = none ∧ (lost level s).link.activity = .sending ∧
    (tr.form = .peek → (lost level s).link.sent = some { status := .ok, code := 0x50, answer := .peeked tr.made tr.count }) ∧
    (tr.form = .poke → (lost level s).link.sent = some { status := .ok, code := 0x51, answer := .poked tr.count }) := by
  have cut : (cutTo level s).bus.owner ≠ .bench := by rw [(cutTo_aside level s).bus]; exact owner
  obtain ⟨bench, sending, peek, poke⟩ := busLost_cut (cutTo_transfer level activity).1 todo cut here
  have same := lost_unanswered level table (by simp [sending])
  rw [lost_bus level table, same.activity, same.sent]
  exact ⟨bench, sending, peek, poke⟩

end transfer

/-- A command that waits for the cycle has been answered by the cutting off, or goes on (R146). -/
theorem lost_awaits (level : Nat) {s : State} (table : s.jobTable) (awaits : AwaitsCycle s) :
    (lost level s).link.activity = (cutTo level s).link.activity ∧ (lost level s).link.sent = (cutTo level s).link.sent := by
  have others : (∀ tr, (cutTo level s).link.activity ≠ .transfer tr) ∧ (cutTo level s).link.activity ≠ .abort := by
    rcases (cutTo_aside level s).activity with same | sending
    · rw [same]
      rcases awaits with h | h | h
      · simp [h]
      · simp [h]
      · simp [h]
    · simp [sending]
  have bus := busLost_of_none others.1
  have same := lost_unanswered level table (by rw [bus]; exact others.2)
  rw [bus] at same
  exact ⟨same.activity, same.sent⟩

/-- ABORT ENGINE waits as the supply is lost: its answer and the table (R181, R182; log 36). -/
theorem lost_abort (level : Nat) {s : State} (table : s.jobTable) {j : Job} {a : Active} (abort : s.link.activity = .abort) (active : s.activeJob = some j)
    (state : j.state = .active a) : (lost level s).link.activity = .sending ∧
      (lost level s).link.sent = some { status := .ok, code := 0x74, answer := .ended ((s.engine.jobs.filter Job.waits).length + 1) } ∧
      (lost level s).engine = { jobs := s.engine.jobs.map (fun k => if k.waits then { k with state := .ended (cancelledBy k) }
                                                                    else if k.number = j.number then { k with state := .ended (lostBy j a s) } else k),
                                endOrder := s.engine.endOrder ++ j.number :: (s.engine.jobs.filter Job.waits).map Job.number,
                                nextNumber := s.engine.nextNumber } := by
  have cut : (cutTo level s).link.activity = .abort := ((cutTo_aside level s).unanswered (by simp [AwaitsCycle, abort])).activity.trans abort
  have bus := busLost_of_none (u := cutTo level s) (by simp [cut])
  have engine : (busLost (cutTo level s)).engine = s.engine := (busLost_engine _).trans (cutTo_keeps level s).engine
  have waits : (busLost (cutTo level s)).link.activity = .abort := by rw [bus]; exact cut
  have active' : (busLost (cutTo level s)).activeJob = some j := by rw [State.activeJob, engine]; exact active
  have time : (busLost (cutTo level s)).timeBase = s.timeBase := by rw [bus]; exact (cutTo_keeps level s).timeBase
  have answered := jobPowerLost_abort active' state waits
  have ended := jobPowerLost_engine (busLost_table level table) active' state waits
  have finished : ∀ k ∈ (busLost (cutTo level s)).jobPowerLost.engine.jobs, k.unfinished = false := by
    rw [answered]
    exact cancelled_finished (busLost_table level table) active' _
  have still := (lost_still level table).finished finished
  have same : lostBy j a (busLost (cutTo level s)) = lostBy j a s := by simp only [lostBy, time]
  rw [lost_link level table, still]
  refine ⟨?_, ?_, ?_⟩
  · rw [answered]
    rfl
  · rw [answered, engine]
    rfl
  · refine Eq.trans ?_ (ended.trans ?_)
    · rfl
    · rw [engine, same]

theorem busLost_notAbort {u : State} (other : u.link.activity ≠ .abort) : (busLost u).link.activity ≠ .abort := by
  have cut : ((u.latch .power).cutTransfer TransferByte.boardBound).link.activity ≠ .abort := by
    cases activity : u.link.activity with
    | transfer tr =>
      unfold State.cutTransfer
      rw [State.latch_activity, activity]
      dsimp only
      repeat' split
      · exact nofun
      · rw [finishTransfer_activity]
        exact nofun
      · exact nofun
    | idle | sending | inject | release | floor | abort | rateChange _ | reset =>
      rw [cutTransfer_of_none (s := u.latch .power) (by simp [activity])]
      exact other
  exact cut

section entries
variable (level : Nat) {s : State} (table : s.jobTable)

include table

/-- The ACTIVE entry ends POWER_LOST (R182). -/
theorem lost_entry {j : Job} {a : Active} (mem : j ∈ s.engine.jobs) (state : j.state = .active a) :
    { j with state := .ended (lostBy j a s) } ∈ (lost level s).engine.jobs := by
  have engine : (busLost (cutTo level s)).engine = s.engine := (busLost_engine _).trans (cutTo_keeps level s).engine
  have time : (busLost (cutTo level s)).timeBase = s.timeBase :=
    (cutTransfer_cycleKeeps TransferByte.boardBound _).timeBase.trans (cutTo_keeps level s).timeBase
  have entry := (mem_jobPowerLost (busLost_table level table) (by rw [engine]; exact mem) state).2
  have same : lostBy j a (busLost (cutTo level s)) = lostBy j a s := by simp only [lostBy, time]
  rw [same] at entry
  exact (lost_still level table).ended _ entry rfl

/-- The waiting entries stay, the candidate WAITING, unless ABORT ENGINE waits (R182). -/
theorem lost_waits {k : Job} (other : s.link.activity ≠ .abort) (mem : k ∈ s.engine.jobs) (waits : k.waits = true) :
    k ∈ (lost level s).engine.jobs ∨ { k with state := .waiting } ∈ (lost level s).engine.jobs := by
  have engine : (busLost (cutTo level s)).engine = s.engine := (busLost_engine _).trans (cutTo_keeps level s).engine
  have cut : (cutTo level s).link.activity ≠ .abort := by
    rcases (cutTo_aside level s).activity with same | sending
    · rw [same]
      exact other
    · simp [sending]
  have inTable : k ∈ (busLost (cutTo level s)).engine.jobs := by rw [engine]; exact mem
  exact (lost_still level table).entries _ (mem_jobPowerLost_of_waits (busLost_table level table) (busLost_notAbort cut) inTable waits)

end entries

theorem linkKept_jobPowerLost (s : State) : LinkKept s s.jobPowerLost := by
  unfold State.jobPowerLost
  dsimp only
  repeat' split
  · exact linkKept_refl s
  · exact linkKept_refl s
  · exact ((linkKept_endJob ..).trans (linkKept_cancelAll _)).trans (linkKept_respond ..)
  · exact linkKept_endJob ..

theorem lost_noticed (level : Nat) (s : State) : (lost level s).noticed .power = true := by
  have cut : (((cutTo level s).latch .power).cutTransfer TransferByte.boardBound).noticed .power = true :=
    (linkKept_cutTransfer ..).notices _ (noticed_latch_self ..)
  exact (linkKept_settle _).notices _ ((linkKept_jobPowerLost (busLost (cutTo level s))).notices _ cut)

/-! ### The return -/

/-- What the return of the supply leaves of the tables and of the Trace Store, until its own marker. -/
theorem returnedTo_aside (s : State) : s.sameTables (returnedTo s) ∧ (returnedTo s).trace = s.trace := by
  unfold returnedTo
  split
  · exact ⟨⟨rfl, rfl, rfl, rfl, rfl, rfl, rfl, rfl⟩, rfl⟩
  · rw [takeUpClaims_cases]
    repeat' split
    all_goals exact ⟨⟨rfl, rfl, rfl, rfl, rfl, rfl, rfl, rfl⟩, rfl⟩

theorem returnedTo_run (s : State) : (returnedTo s).run = { s.run with
    hold := if s.run.powerUpHold then .resetHeld else if s.run.anyLive && (s.run.rehearsal || s.port.waitWired) then .holdArmed else .running } := by
  unfold returnedTo
  by_cases hold : s.run.powerUpHold = true
  · rw [if_pos hold, if_pos hold]
    rfl
  · rw [if_neg hold, if_neg hold, takeUpClaims_cases]
    dsimp only
    cases s.run.anyLive with
    | false => rfl
    | true => cases s.run.rehearsal || s.port.waitWired <;> rfl

theorem returnedTo_missed {s : State} (noHold : s.run.powerUpHold = false) (live : s.run.anyLive = true) (rehearsal : s.run.rehearsal = false)
    (unwired : s.port.waitWired = false) : (returnedTo s).noticed .holdMissed = true := by
  rw [returnedTo, if_neg (Bool.eq_false_iff.1 noHold), takeUpClaims_cases]
  dsimp only
  rw [live, rehearsal, unwired]
  exact noticed_latch_self ..

/-- The state after the return of the supply at this level. -/
def returned (level : Nat) (s : State) : State := (s.setSupply level).supplyReturned.settle

section returned
variable (level : Nat) (s : State)

theorem returned_engineOnly : (((returnedTo (s.setSupply level)).mark (.power false)).latch .power).engineOnly (returned level s) := settle_engineOnly _

theorem returned_tables : s.sameTables (returned level s) := by
  obtain ⟨⟨windows, floatByte, overlay, watch, probes, timeBase, pending, freeIndex⟩, -⟩ := returnedTo_aside (s.setSupply level)
  obtain ⟨⟨windows', floatByte', overlay', watch', probes', timeBase', pending', freeIndex'⟩, -⟩ := returned_engineOnly level s
  exact ⟨windows'.trans ((offer_windows ..).trans windows), floatByte'.trans ((offer_floatByte ..).trans floatByte),
    overlay'.trans ((offer_overlay ..).trans overlay), watch'.trans ((offer_watch ..).trans watch), probes'.trans ((offer_probes ..).trans probes),
    timeBase'.trans ((offer_timeBase ..).trans timeBase), pending'.trans ((offer_pending ..).trans pending),
    freeIndex'.trans ((offer_freeIndex ..).trans freeIndex)⟩

theorem returned_port : (returned level s).port = { s.port with supply := level, powered := true, resetSense := false } :=
  (settle_port _).trans (supplyReturned_port _)

theorem returned_run : (returned level s).run = { s.run with
    hold := if s.run.powerUpHold then .resetHeld else if s.run.anyLive && (s.run.rehearsal || s.port.waitWired) then .holdArmed else .running } :=
  (settle_run _).trans ((offer_run ..).trans (returnedTo_run (s.setSupply level)))

theorem returned_trace : (returned level s).trace = (s.offer (.power false) true s.timeBase).trace := by
  obtain ⟨⟨-, -, -, -, -, timeBase, -, -⟩, trace⟩ := returnedTo_aside (s.setSupply level)
  have marked : (returned level s).trace = ((returnedTo (s.setSupply level)).offer (.power false) true (returnedTo (s.setSupply level)).timeBase).trace := settle_trace _
  rw [marked, timeBase]
  exact offer_trace (s := s) trace ..

theorem returned_noticed : (returned level s).noticed .power = true := (linkKept_settle _).notices _ (noticed_latch_self ..)

theorem returned_missed (noHold : s.run.powerUpHold = false) (live : s.run.anyLive = true) (rehearsal : s.run.rehearsal = false)
    (unwired : s.port.waitWired = false) : (returned level s).noticed .holdMissed = true :=
  (linkKept_settle _).notices _ (noticed_latch_of_noticed ((linkKept_offer ..).notices _ (returnedTo_missed (s := s.setSupply level) noHold live rehearsal unwired)) _)

end returned

/-! ### The statement -/

/-- Settles O49: the level against those of the threshold index, then what the loss and the return leave, field by field. -/
theorem supplyLostAndReturned : Obligations.SupplyLostAndReturned := by
  unfold Obligations.SupplyLostAndReturned
  intro level c s row prst loss back moved lastAccess waits endedAs
  have judged := exec_supply row prst
  have lossEq : Config.lossLevel s.run.threshold = loss := lossLevel_eq _
  have backEq : Config.returnLevel s.run.threshold = back := returnLevel_eq _
  refine ⟨fun powered above => ?_, fun absent below => ?_, fun powered below table => ?_, fun absent above => ?_⟩
  · rw [judged, supervise_of_present (s := s.setSupply level) powered (Nat.not_lt.2 (lossEq.trans_le above))]
    rfl
  · rw [judged, supervise_of_absent (s := s.setSupply level) absent (Nat.not_le.2 (backEq.symm ▸ below))]
    rfl
  · have run : exec c s = .next (lost level s) := by
      rw [judged, supervise_of_lost (s := s.setSupply level) powered (below.trans_eq lossEq.symm)]
      rfl
    obtain ⟨⟨windows, floatByte, overlay, watch, probes, timeBase, pending, -⟩, port, control, trace⟩ := lost_engineOnly level s
    obtain ⟨owner, engine, survey, lineMap, target⟩ := lost_busFields level table
    have keeps := cutTo_keeps level s
    have portIs := cutTo_port level s
    have controlIs := cutTo_run level s
    have lastEq : s.bus.owner.lastAccess = lastAccess := lastAccess_eq _
    have absent : (lost level s).port.powered = false := by rw [port, portIs]
    have still := lost_still level table
    have store : ∀ b sent stamp, (State.offer b sent stamp { s with port := { s.port with supply := level, powered := false } }).trace =
      (s.offer b sent stamp).trace := offer_trace rfl
    refine ⟨lost level s, run, absent, by rw [port, portIs], lost_noticed level s, by rw [control, controlIs], by rw [control, controlIs],
      by rw [control, controlIs], fun holding => ?_, fun k inFlight free => ?_, fun tr b rest activity todo => ⟨fun kept => ?_, lost_transfer_cut level table activity todo⟩,
      ⟨port, control, watch, trace, target, lost_awaits level table⟩, ?_, fun free => ?_, owner.trans lastEq, engine, survey, lineMap, still.idle,
      fun j a mem state => lost_entry level table mem state, fun other k mem waiting => ?_, fun j a abort active state => ?_, lost_lanes level table,
      windows.trans keeps.windows, floatByte.trans keeps.floatByte, probes.trans keeps.probes, timeBase.trans keeps.timeBase,
      overlay.trans (cutOff_overlay ..), pending.trans keeps.pending, fun empty other => ?_, fun k o inFlight phase noStop holding origin => ?_⟩
    · rw [control, controlIs]
      exact ⟨if_pos holding, if_pos holding⟩
    · rw [port]
      refine cutOff_inFlight (s := { s with port := { s.port with supply := level, powered := false } }) (fun c other => ?_) ..
      obtain rfl : k = c := Option.some.inj (inFlight.symm.trans other)
      exact free
    · exact ⟨owner, lost_transfer_kept level table activity todo kept⟩
    · simp [State.targetReset, absent]
    · have high : (lost level s).highImpedance = true := by simp [State.highImpedance, absent, owner, lastEq, free]
      exact ⟨high, by simp [State.wait, high]⟩
    · exact lost_waits level table other mem ((waits_eq k).trans waiting)
    · obtain ⟨sending, sent, table'⟩ := lost_abort level table abort active state
      rw [filter_waits] at sent table'
      simp only [waits_eq] at table'
      exact ⟨sending, sent, table'⟩
    · obtain ⟨units, marked⟩ := cutOff_of_empty (s := { s with port := { s.port with supply := level, powered := false } }) empty other .power .unpowered (.power true)
      exact ⟨watch.trans units, trace.trans (marked.trans (store ..))⟩
    · have ended := cutOff_trace_of_held (s := { s with port := { s.port with supply := level, powered := false } }) inFlight phase noStop holding origin
        .power .unpowered (.power true)
      exact trace.trans (ended.trans (offer_trace (offer_trace (store ..) ..) ..))
  · have run : exec c s = .next (returned level s) := by
      rw [judged, supervise_of_returned (s := s.setSupply level) absent (backEq.trans_le above)]
      rfl
    have port := returned_port level s
    refine ⟨_, run, returned_tables level s, port, ?_, returned_noticed level s, returned_run level s, returned_missed level s, returned_trace level s⟩
    simp [State.highImpedance, port, prst]

end Sys2Proof.LostRows
end
